-- ==== Sys2Proof/Word.lean ====
section
/-! DEFINITION. The word types of the module: bytes, 32-bit registers, 64-bit registers, packet words. -/

namespace Sys2Proof

/-- A memory byte. -/
abbrev Byte := BitVec 8

/-- A 16-bit word, as rule-program operands and value streams use it. -/
abbrev Half := BitVec 16

/-- A 32-bit register or list entry (00/R13). -/
abbrev Word := BitVec 32

/-- A 64-bit register or SRAM word (00/R16, 09/R306). -/
abbrev DWord := BitVec 64

/-- A local address, 40 bits (00/R8). -/
abbrev Addr := BitVec 40

/-- Who makes a register or memory access: the initiators that 00/R16 tells apart, and every other unit, which makes 64-bit
accesses only. -/
inductive Initiator where
  | core (n : Fin 4)
  | dma (c : Fin 16)
  | security
  | debug
  | other
  deriving DecidableEq, Repr

/-- What the shadow core and the third computation found for a sampled unit (09/R312, R314, R315): `again` says that the
suspect slot's repeat disagreed again. -/
inductive ShadowFind where
  | agree
  | primaryOut (again : Bool)
  | shadowOut (again : Bool)
  | allDiffer
  deriving DecidableEq, Repr

/-- A result as the lanes gave it, beside what its residue check or its second unit looks at (09/R309): a product with what a
shift discarded, a sum or difference, a slot accumulator with its contributions, a clamp with the bounds, and a binary32 step
that two units made. -/
inductive LaneCheck where
  | mulShift (a b q f : Int) (s : Nat)
  | add (x y z : Int)
  | sub (x y z : Int)
  | slotClose (acc : Int) (parts : List Int)
  | clamp (x lo hi got : Int)
  | binary32 (one two : BitVec 32)
  deriving DecidableEq, Repr

/-- What a WRITE packet is, where its bits do not show it: the header of a row load that a ROWLOAD descriptor wrote (07/R266), or one
4-byte access to the register in a lane of its granule (07/R261). -/
inductive PacketMark where
  | plain
  | rowHead
  | lane (k : Fin 4)
  deriving DecidableEq, Repr

/-- What a unit of a square saw while it worked: a result of a core for a neuron, one of a physical slot that recomputes what
another core computed (the shadow, or the core that computes a third time), or a word of an SRAM row with the four parity
bits that its bank added (09/R306, R309). The units see every such result and word; a command lists those that matter, and what
passes its check changes nothing. -/
inductive Seen where
  | result (core : Fin 18) (neuron : Fin 16384) (c : LaneCheck)
  | slotResult (slot : Fin 19) (neuron : Fin 16384) (c : LaneCheck)
  | word (group : Fin 32) (bank : Fin 16) (row : Fin 2048) (w : DWord) (par : BitVec 4)
  deriving DecidableEq, Repr

/-- What a CSI-2 packet carries (14/T14-14): frame start and end, a line of pixels, vendor event data (0x30 to 0x37), or a data
type that the port does not take. -/
inductive CsiBody where
  | frameStart
  | frameEnd
  | raw8 (px : List Byte)
  | raw10 (px : List (BitVec 10))
  | vendor (bytes : List Byte)
  | other
  deriving DecidableEq, Repr

/-- What the march test of S3 found in a bank (12/R402): its unit, group and number, with the failing rows and columns. -/
structure MarchFind where
  unit  : Nat
  group : Nat
  bank  : Nat
  rows  : List Nat
  cols  : Nat
  deriving DecidableEq, Repr

/-- How a register write names a core: by logical number, or by physical slot in the slot window (01/R38, R39). -/
inductive CoreRef where
  | logical (l : Fin 18)
  | slot (p : Fin 19)
  deriving DecidableEq, Repr

end Sys2Proof
end

