-- ==== Sys2Proof/Config.lean ====
section
/-! DEFINITION. Free values: the functions and keys that the spec names only by reference to another document, or keeps in a
boot ROM whose contents it does not give. None has a body, so no proof can rest on a value of them (log 11, 12, 13). -/

namespace Sys2Proof.Config

/-- SHA3-512 of FIPS 202, which the spec names and does not define (13/R429, R432, R447). -/
opaque sha3 : List Byte → BitVec 512

/-- ML-DSA-87 internal key generation of FIPS 204 from the seed: the public key (13/R429). -/
opaque mlDsaPublicKey : BitVec 256 → List Byte

/-- ML-DSA-87 verification of FIPS 204: public key, message, context string, signature (13/R433). -/
opaque mlDsaVerify : List Byte → List Byte → List Byte → List Byte → Bool

/-- The hedged ML-DSA-87 signature of FIPS 204 by the module's key: seed, message, context, and the number of the
signature, which stands for its fresh randomness (13/R446). -/
opaque mlDsaSign : BitVec 256 → List Byte → List Byte → Nat → List Byte

/-- The public key that an X.509 certificate in DER carries (13/R445, R451). -/
opaque certPublicKey : List Byte → List Byte

/-- The Ehrene firmware public key in the boot ROM (13/R433). -/
opaque firmwareKey : List Byte

/-- The digest of the Ehrene device authority's key in the boot ROM (13/R451). -/
opaque authorityDigest : BitVec 512

/-- The digest of the Ehrene network key in the boot ROM (13/R448). -/
opaque networkKeyDigest : BitVec 512

/-- The module certificate and the authority certificate that provisioning wrote (13/R445). -/
opaque factoryCerts : List Byte × List Byte

/-- A value that the spec leaves open at one step: `k` is the number of the value, counted in `Hw.fresh`. -/
opaque freeValue : Nat → Nat

/-- Spare rows and spare column selects of an SRAM bank of a unit outside the squares, which Table 12-1 does not give. -/
opaque outsideSpares : Nat → Nat
opaque outsideSelects : Nat → Nat

end Sys2Proof.Config
end

