-- ==== Sys2Proof/Syntax.lean ====
section
/-! DEFINITION. The commands of the module: one constructor for each row of the table of operations and events. -/

namespace Sys2Proof

/-- A command: a register access, an operation of a bus or protocol, or an event. Operands name the unit and carry what the
module measures or receives. -/
inductive Instr where
  /-- REGISTER_WRITE. A write of a register, 32 bits or 64 (00/R13, R16). -/
  | registerWrite (ini : Initiator) (addr : Addr) (value : DWord) (wide : Bool)
  /-- REG64_LOW_READ. A 32-bit read of the low word of a 64-bit register (00/R16). -/
  | reg64LowRead (ini : Initiator) (addr : Addr)
  /-- REG64_HIGH_READ. A 32-bit read of the high word (00/R16). -/
  | reg64HighRead (ini : Initiator) (addr : Addr)
  /-- REG64_LOW_WRITE. A 32-bit write of the low word, which is held (00/R16). -/
  | reg64LowWrite (ini : Initiator) (addr : Addr) (value : Word)
  /-- REG64_HIGH_WRITE. A 32-bit write of the high word (00/R16). -/
  | reg64HighWrite (ini : Initiator) (addr : Addr) (value : Word)
  /-- SQ_CFG_WRITE. A write of SQ_CFG (01/R21). -/
  | sqCfgWrite (ini : Initiator) (sq : Fin 64) (value : Word)
  /-- INPUT_CUTOFF. The timebase reaches C_T of the slot (02/R49). -/
  | inputCutoff (job : Fin 4)
  /-- JOB_RELEASE. The job of the slot is released at S (02/R68). -/
  | jobRelease (job : Fin 4)
  /-- EVENT_DISTRIBUTE. The event distributor takes one event packet; what the square's checks saw (04/R129, 09/R306, R309). -/
  | eventDistribute (sq : Fin 64) (seen : List Seen)
  /-- GLOBAL_CLOSURE. The tempo tree signals global closure; what the checks of each square saw in its update (02/R44, 09/R309). -/
  | globalClosure (job : Fin 4) (seen : List (Fin 64 × Seen))
  /-- SHADOW_COMPARE. The shadow core compares a sampled unit, with what it and the third computation
  found, and what their checks saw (09/R309, R312 to R315). -/
  | shadowCompare (sq : Fin 64) (core : Fin 18) (neuron : Fin 16384) (find : ShadowFind) (seen : List Seen)
  /-- UPDATE_COMPLETE. A core ends its update phase (03/R120). -/
  | updateComplete (sq : Fin 64) (core : Fin 18)
  /-- CONSOLIDATION_PHASE_A. Phase A of a consolidation on a core; what its checks saw (05/R185, 09/R309). -/
  | consolidationPhaseA (sq : Fin 64) (core : Fin 18) (seen : List Seen)
  /-- CONSOLIDATION_PHASE_B. Phase B of a consolidation on a core; what its checks saw (05/R187, 09/R309). -/
  | consolidationPhaseB (sq : Fin 64) (core : Fin 18) (seen : List Seen)
  /-- GLOBAL_DONE. The tempo tree signals done (02/R44). -/
  | globalDone (job : Fin 4)
  /-- SNAPSHOT_COPY_UNIT. The background copier copies a unit (09/R324). -/
  | snapshotCopyUnit (sq : Fin 64)
  /-- TEMPO_STALL. A running tempo is later than four times the bound (02/R71). -/
  | tempoStall (job : Fin 4)
  /-- SEQ_TEMPO_PERIOD_WRITE. A write of SEQ_TEMPO_PERIODj (02/R86). -/
  | seqTempoPeriodWrite (ini : Initiator) (job : Fin 4) (value : Word)
  /-- SEQ_TEMPO_BOUND_WRITE. A write of SEQ_TEMPO_BOUNDj (02/R87). -/
  | seqTempoBoundWrite (ini : Initiator) (job : Fin 4) (value : Word)
  /-- RELOAD. A write of CORE_CTL.RELOAD = 1 (03/R121). -/
  | reload (ini : Initiator) (sq : Fin 64) (core : CoreRef)
  /-- RELOAD_CHECK_DONE. The table check ends (03/R122). -/
  | reloadCheckDone (sq : Fin 64) (core : Fin 18)
  /-- RULE_RELOAD. A write of RULE_CTL.RELOAD = 1 (05/R172). -/
  | ruleReload (ini : Initiator) (sq : Fin 64) (core : CoreRef)
  /-- RULE_RELOAD_CHECK_DONE. The rule image check ends (05/R172). -/
  | ruleReloadCheckDone (sq : Fin 64) (core : Fin 18)
  /-- RULE_LFSR_WRITE. A write of RULE_LFSR (05/R182). -/
  | ruleLfsrWrite (ini : Initiator) (sq : Fin 64) (core : CoreRef) (value : Word)
  /-- PACKET_INJECT. A queued packet enters the router (06/R204). -/
  | packetInject (sq : Fin 64)
  /-- ROUTE_CYCLE. One spine cycle of every router (06/R201). -/
  | routeCycle
  /-- WRITE_PACKET. The memory agent takes a WRITE (06/R199). -/
  | writePacket (sq : Fin 64)
  /-- READ_PACKET. The memory agent takes a READ (06/R198). -/
  | readPacket (sq : Fin 64) (seen : List Seen)
  /-- FENCE_PACKET. The memory agent takes a FENCE (06/R199). -/
  | fencePacket (sq : Fin 64)
  /-- RESP_PACKET. A RESP lands or completes a request (06/R198). -/
  | respPacket (sq : Fin 64)
  /-- QUEUE_PACKET. The square takes a QUEUE packet (07/R245). -/
  | queuePacket (sq : Fin 64)
  /-- QSTAT_PACKET. A send channel takes a QSTAT (07/R247). -/
  | qstatPacket (sq : Fin 64)
  /-- INBOX_WATCHDOG. The inbox watchdog reaches its limit (06/R219). -/
  | inboxWatchdog (sq : Fin 64)
  /-- FLIP. A write of RT_EPOCH.FLIP = 1 (06/R215). -/
  | flip (ini : Initiator)
  /-- OLD_EPOCH_DRAINED. No packet of the previous version is left (06/R214). -/
  | oldEpochDrained
  /-- RTR_TBL_DATA_WRITE. A write of RTR_TBL_DATA (06/R214, R495). -/
  | rtrTblDataWrite (ini : Initiator) (sq : Fin 64) (value : Word)
  /-- OL_SLOT_WRITE. A 64-bit write of an output-ledger slot (06/R493). -/
  | olSlotWrite (ini : Initiator) (slot : Fin 4096) (value : DWord)
  /-- SQUARE_ABSENT. A draining square owes nothing (06/R228). -/
  | squareAbsent (sq : Fin 64)
  /-- LINK_FRAME_TX. A link port sends a frame (06/R231). -/
  | linkFrameTx (link : Fin 6)
  /-- LINK_FRAME_RX. A link receiver takes a frame of 512 bits (06/R232), with what the bits of its first and its second packet do
  not show (07/R261, R266, log 169). -/
  | linkFrameRx (link : Fin 6) (frame : BitVec 512) (marks : PacketMark × PacketMark)
  /-- LINK_RESEND_LIMIT. The same SEQ has been resent eight times (06/R233). -/
  | linkResendLimit (link : Fin 6)
  /-- LINK_SILENCE_TIMEOUT. 2 µs without an accepted frame (06/R233). -/
  | linkSilenceTimeout (link : Fin 6)
  /-- LANE_FAIL. An active physical lane fails (06/R230). -/
  | laneFail (link : Fin 6) (lane : Fin 5)
  /-- FL_CTL_WRITE. A write of FL_CTLn (13/R438). -/
  | flCtlWrite (ini : Initiator) (link : Fin 6) (value : Word)
  /-- LINK_UP. Link training completes (13/R438). -/
  | linkUp (link : Fin 6)
  /-- ROPEN. A write of Q_CTLq.ROPEN = 1 (07/R242). -/
  | ropen (ini : Initiator) (sq : Fin 64) (core : Fin 18) (queue : Fin 4)
  /-- RCLOSE. A write of Q_CTLq.RCLOSE = 1 (07/R242). -/
  | rclose (ini : Initiator) (sq : Fin 64) (core : Fin 18) (queue : Fin 4)
  /-- SOPEN. A write of SCH_CTLc.SOPEN = 1 (07/R248). -/
  | sopen (ini : Initiator) (sq : Fin 64) (core : Fin 18) (queue : Fin 4)
  /-- SCLOSE. A write of SCH_CTLc.SCLOSE = 1 (07/R248). -/
  | sclose (ini : Initiator) (sq : Fin 64) (core : Fin 18) (queue : Fin 4)
  /-- SEND. The core controller issues a SEND (07/R249). -/
  | send (sq : Fin 64) (core : Fin 18)
  /-- RECV. The core controller issues a RECV (07/R251). -/
  | recv (sq : Fin 64) (core : Fin 18)
  /-- SEND_TIMEOUT. A waiting SEND reaches CP_TMO (07/R250). -/
  | sendTimeout (sq : Fin 64) (core : Fin 18)
  /-- RECV_TIMEOUT. A waiting RECV reaches CP_TMO (07/R250). -/
  | recvTimeout (sq : Fin 64) (core : Fin 18)
  /-- START. A write of CP_CTL.START = 1 (07/R252). -/
  | start (ini : Initiator) (sq : Fin 64) (core : Fin 18)
  /-- STOP. A write of CP_CTL.STOP = 1 (07/R254). -/
  | stop (ini : Initiator) (sq : Fin 64) (core : Fin 18)
  /-- NOP. The core controller issues NOP (03/R102 to R109, 07/R252 to R254). -/
  | opNop (sq : Fin 64) (core : Fin 18)
  /-- ADD. The core controller issues ADD (03/R102 to R109, 07/R252 to R254). -/
  | opAdd (sq : Fin 64) (core : Fin 18)
  /-- SUB. The core controller issues SUB (03/R102 to R109, 07/R252 to R254). -/
  | opSub (sq : Fin 64) (core : Fin 18)
  /-- MUL. The core controller issues MUL (03/R102 to R109, 07/R252 to R254). -/
  | opMul (sq : Fin 64) (core : Fin 18)
  /-- SHR. The core controller issues SHR (03/R102 to R109, 07/R252 to R254). -/
  | opShr (sq : Fin 64) (core : Fin 18)
  /-- SHL. The core controller issues SHL (03/R102 to R109, 07/R252 to R254). -/
  | opShl (sq : Fin 64) (core : Fin 18)
  /-- MIN. The core controller issues MIN (03/R102 to R109, 07/R252 to R254). -/
  | opMin (sq : Fin 64) (core : Fin 18)
  /-- MAX. The core controller issues MAX (03/R102 to R109, 07/R252 to R254). -/
  | opMax (sq : Fin 64) (core : Fin 18)
  /-- ABS. The core controller issues ABS (03/R102 to R109, 07/R252 to R254). -/
  | opAbs (sq : Fin 64) (core : Fin 18)
  /-- NEG. The core controller issues NEG (03/R102 to R109, 07/R252 to R254). -/
  | opNeg (sq : Fin 64) (core : Fin 18)
  /-- MOV. The core controller issues MOV (03/R102 to R109, 07/R252 to R254). -/
  | opMov (sq : Fin 64) (core : Fin 18)
  /-- LDI. The core controller issues LDI (03/R102 to R109, 07/R252 to R254). -/
  | opLdi (sq : Fin 64) (core : Fin 18)
  /-- CMPGE. The core controller issues CMPGE (03/R102 to R109, 07/R252 to R254). -/
  | opCmpge (sq : Fin 64) (core : Fin 18)
  /-- CMPLT. The core controller issues CMPLT (03/R102 to R109, 07/R252 to R254). -/
  | opCmplt (sq : Fin 64) (core : Fin 18)
  /-- CMPEQ. The core controller issues CMPEQ (03/R102 to R109, 07/R252 to R254). -/
  | opCmpeq (sq : Fin 64) (core : Fin 18)
  /-- CMPNZ. The core controller issues CMPNZ (03/R102 to R109, 07/R252 to R254). -/
  | opCmpnz (sq : Fin 64) (core : Fin 18)
  /-- END. The core controller issues END (03/R102 to R109, 07/R252 to R254). -/
  | opEnd (sq : Fin 64) (core : Fin 18)
  /-- JMP. The core controller issues JMP (03/R102 to R109, 07/R252 to R254). -/
  | opJmp (sq : Fin 64) (core : Fin 18)
  /-- LDW. The core controller issues LDW (03/R102 to R109, 07/R252 to R254). -/
  | opLdw (sq : Fin 64) (core : Fin 18)
  /-- STW. The core controller issues STW (03/R102 to R109, 07/R252 to R254). -/
  | opStw (sq : Fin 64) (core : Fin 18)
  /-- DMA_START_CHAIN. A write of DMA_CTLc.START = 1 (07/R256). -/
  | dmaStartChain (ini : Initiator) (chan : Fin 16)
  /-- DMA_STOP_CHAIN. A write of DMA_CTLc.STOP = 1 (07/R256). -/
  | dmaStopChain (ini : Initiator) (chan : Fin 16)
  /-- DMA_DESCRIPTOR. The channel fetches a descriptor and moves its bytes (07/R258). -/
  | dmaDescriptor (chan : Fin 16)
  /-- DMA_DESCRIPTOR_COMPLETE. A descriptor completes (07/R263). -/
  | dmaDescriptorComplete (chan : Fin 16)
  /-- DMA_TIMEOUT. A READ or FENCE got no answer within DMA_TMO (07/R262). -/
  | dmaTimeout (chan : Fin 16)
  /-- TASK_START. A SEQ cycle of the arbiter (08/R283). -/
  | taskStart
  /-- TASK_END. A CHECK task ends, with the slots that failed its known-answer work (08/R274, 09/R318). -/
  | taskEnd (tid : Fin 4096) (fails : List (Nat × Nat))
  /-- WAIT_TIME_EXPIRY. The timebase reaches the TIME of a WAIT_TIME task (08/R271). -/
  | waitTimeExpiry (tid : Fin 4096)
  /-- TASK_DEADLINE. A task passes its deadline (08/R279). -/
  | taskDeadline (tid : Fin 4096)
  /-- SEQ_RING_WRITE. A write of SEQ_RING (08/R301). -/
  | seqRingWrite (ini : Initiator) (value : Word)
  /-- WINDOW_START. An accounting window begins, with the readings of the 64 sensors in °C (08/R289). -/
  | windowStart (temps : List Int)
  /-- POWER_SAMPLE. A 10 µs energy sample in µJ: at the inputs, of each square, of the work that is never throttled (08/R287). -/
  | powerSample (energy : Nat) (squares : List (Nat × Nat)) (fixed : Nat)
  /-- TEMP_SAMPLE. A square sensor is read, in °C (08/R290). -/
  | tempSample (sq : Fin 64) (temp : Int)
  /-- DVFS_RAISE_COMPLETE. A voltage raise completes (08/R294). -/
  | dvfsRaiseComplete (sq : Fin 64)
  /-- DOMAIN_IDLE_ENTRY. An idle domain begins entry to RETAIN or OFF (08/R296). -/
  | domainIdleEntry (dom : Fin 91)
  /-- DOMAIN_TRANSITION_BEGIN. A waiting transition begins (08/R303). -/
  | domainTransitionBegin
  /-- DOMAIN_TRANSITION_DONE. A domain completes a transition, and held accesses are served (08/R295, R300). -/
  | domainTransitionDone (dom : Fin 91)
  /-- PWR_REQ_WRITE. A write of PWR_REQ (08/R297). -/
  | pwrReqWrite (ini : Initiator) (value : Word)
  /-- WAKE_REQUEST. A wake source latches a wake of a domain (08/R300). -/
  | wakeRequest (dom : Fin 91)
  /-- RESTART_PURGE_DONE. Step 2 of a restart (09/R332). -/
  | restartPurgeDone (job : Fin 4)
  /-- RESTORE_START. Step 3 of a restart (09/R337). -/
  | restoreStart (job : Fin 4)
  /-- RESTORE_DONE. The squares have restored; what the checks of each saw in it and in its readiness pattern (09/R333, 13/R441). -/
  | restoreDone (job : Fin 4) (seen : List (Fin 64 × Seen))
  /-- ECC_WRITEBACK. A corrected word is written back; `used` is a word of the row as its bank hands it on, with its number and its
  path parity (09/R306). -/
  | eccWriteback (unit : Fin 68) (group : Fin 32) (bank : Fin 16) (row : Fin 2048) (used : Option (Fin 16 × DWord × BitVec 4))
  /-- ROW_REPAIR. A failing row moves to a spare row (12/R403); `check` names the slot whose reload check made the uncorrectable
  read (03/R122). -/
  | rowRepair (unit : Fin 68) (group : Fin 32) (bank : Fin 16) (row : Fin 2048) (bad : List Nat) (uncorr : Bool)
      (check : Option (Fin 19))
  /-- SQ_BANKREQ_WRITE. A write of SQ_BANKREQ (12/R397). -/
  | sqBankreqWrite (ini : Initiator) (sq : Fin 64) (value : Word)
  /-- RETRAIN. A write of PSC_CHCTLk.RETRAIN = 1 (12/R411). -/
  | retrain (ini : Initiator) (chan : Fin 16)
  /-- PSRAM_DRIFT_CHECK. The periodic drift check, with the drift by channel in 1/256 UI (12/R411). -/
  | psramDriftCheck (drifts : List (Nat × Nat))
  /-- PSRAM_RETRAIN_DONE. A channel retrain ends, with its narrowest window in 1/256 UI (12/R411). -/
  | psramRetrainDone (chan : Fin 16) (window : Nat)
  /-- PSRAM_RETRAIN_TIMEOUT. A retrain has not ended within 400 µs (12/R412). -/
  | psramRetrainTimeout (chan : Fin 16)
  /-- JOURNAL_PAGE_WRITE. The hub writes an incident journal page (12/R413). -/
  | journalPageWrite
  /-- PSC_JRNL_WRITE. A write of PSC_JRNL (12/R414). -/
  | pscJrnlWrite (ini : Initiator) (value : Word)
  /-- SESSION_OPEN. SESSION_OPEN arrives on a port (10/R348 to R350, R363). -/
  | sessionOpen (port : Bool) (async : Bool) (tag : BitVec 16) (params : List Byte)
  /-- SESSION_CLOSE. SESSION_CLOSE arrives on a port (10/R348 to R350, R363). -/
  | sessionClose (port : Bool) (async : Bool) (tag : BitVec 16) (params : List Byte)
  /-- TAKEOVER. TAKEOVER arrives on a port (10/R348 to R350, R363). -/
  | takeover (port : Bool) (async : Bool) (tag : BitVec 16) (params : List Byte)
  /-- SET_LEASE. SET_LEASE arrives on a port (10/R348 to R350, R363). -/
  | setLease (port : Bool) (async : Bool) (tag : BitVec 16) (params : List Byte)
  /-- ECHO. ECHO arrives on a port (10/R348 to R350, R363). -/
  | echo (port : Bool) (async : Bool) (tag : BitVec 16) (params : List Byte)
  /-- PORT_STATUS. PORT_STATUS arrives on a port (10/R348 to R350, R363). -/
  | portStatus (port : Bool) (async : Bool) (tag : BitVec 16) (params : List Byte)
  /-- GET_IDENTITY. GET_IDENTITY arrives on a port (10/R348 to R350, R363). -/
  | getIdentity (port : Bool) (async : Bool) (tag : BitVec 16) (params : List Byte)
  /-- GET_STAGE_REPORTS. GET_STAGE_REPORTS arrives on a port (10/R348 to R350, R363). -/
  | getStageReports (port : Bool) (async : Bool) (tag : BitVec 16) (params : List Byte)
  /-- GET_CERT. GET_CERT arrives on a port (10/R348 to R350, R363). -/
  | getCert (port : Bool) (async : Bool) (tag : BitVec 16) (params : List Byte)
  /-- ATTEST. ATTEST arrives on a port (10/R348 to R350, R363). -/
  | attest (port : Bool) (async : Bool) (tag : BitVec 16) (params : List Byte)
  /-- GET_TELEMETRY. GET_TELEMETRY arrives on a port (10/R348 to R350, R363). -/
  | getTelemetry (port : Bool) (async : Bool) (tag : BitVec 16) (params : List Byte)
  /-- GET_NET_DIGESTS. GET_NET_DIGESTS arrives on a port (10/R348 to R350, R363). -/
  | getNetDigests (port : Bool) (async : Bool) (tag : BitVec 16) (params : List Byte)
  /-- MEM_READ. MEM_READ arrives on a port (10/R348 to R350, R363). -/
  | memRead (port : Bool) (async : Bool) (tag : BitVec 16) (params : List Byte)
  /-- MEM_WRITE. MEM_WRITE arrives on a port (10/R348 to R350, R363). -/
  | memWrite (port : Bool) (async : Bool) (tag : BitVec 16) (params : List Byte)
  /-- DMA_START. DMA_START arrives on a port (10/R348 to R350, R363). -/
  | dmaStart (port : Bool) (async : Bool) (tag : BitVec 16) (params : List Byte)
  /-- GRAPH_SUBMIT. GRAPH_SUBMIT arrives on a port (10/R348 to R350, R363). -/
  | graphSubmit (port : Bool) (async : Bool) (tag : BitVec 16) (params : List Byte)
  /-- TASK_RETIRE. TASK_RETIRE arrives on a port (10/R348 to R350, R363). -/
  | taskRetire (port : Bool) (async : Bool) (tag : BitVec 16) (params : List Byte)
  /-- TASK_CANCEL. TASK_CANCEL arrives on a port (10/R348 to R350, R363). -/
  | taskCancel (port : Bool) (async : Bool) (tag : BitVec 16) (params : List Byte)
  /-- TASK_STATUS. TASK_STATUS arrives on a port (10/R348 to R350, R363). -/
  | taskStatus (port : Bool) (async : Bool) (tag : BitVec 16) (params : List Byte)
  /-- JOB_STOP. JOB_STOP arrives on a port (10/R348 to R350, R363). -/
  | jobStop (port : Bool) (async : Bool) (tag : BitVec 16) (params : List Byte)
  /-- DOORBELL_RING. DOORBELL_RING arrives on a port (10/R348 to R350, R363). -/
  | doorbellRing (port : Bool) (async : Bool) (tag : BitVec 16) (params : List Byte)
  /-- SEQ_RUN. SEQ_RUN arrives on a port (10/R348 to R350, R363). -/
  | seqRun (port : Bool) (async : Bool) (tag : BitVec 16) (params : List Byte)
  /-- IMAGE_CHECK. IMAGE_CHECK arrives on a port (10/R348 to R350, R363). -/
  | imageCheck (port : Bool) (async : Bool) (tag : BitVec 16) (params : List Byte)
  /-- SQUARE_INFO. SQUARE_INFO arrives on a port (10/R348 to R350, R363). -/
  | squareInfo (port : Bool) (async : Bool) (tag : BitVec 16) (params : List Byte)
  /-- STREAM_SET. STREAM_SET arrives on a port (10/R348 to R350, R363). -/
  | streamSet (port : Bool) (async : Bool) (tag : BitVec 16) (params : List Byte)
  /-- STREAM_GET. STREAM_GET arrives on a port (10/R348 to R350, R363). -/
  | streamGet (port : Bool) (async : Bool) (tag : BitVec 16) (params : List Byte)
  /-- PWR_SET. PWR_SET arrives on a port (10/R348 to R350, R363). -/
  | pwrSet (port : Bool) (async : Bool) (tag : BitVec 16) (params : List Byte)
  /-- PWR_PINS. PWR_PINS arrives on a port (10/R348 to R350, R363). -/
  | pwrPins (port : Bool) (async : Bool) (tag : BitVec 16) (params : List Byte)
  /-- BUDGET_SET. BUDGET_SET arrives on a port (10/R348 to R350, R363). -/
  | budgetSet (port : Bool) (async : Bool) (tag : BitVec 16) (params : List Byte)
  /-- BUDGET_GET. BUDGET_GET arrives on a port (10/R348 to R350, R363). -/
  | budgetGet (port : Bool) (async : Bool) (tag : BitVec 16) (params : List Byte)
  /-- TRIP_CLEAR. TRIP_CLEAR arrives on a port (10/R348 to R350, R363). -/
  | tripClear (port : Bool) (async : Bool) (tag : BitVec 16) (params : List Byte)
  /-- FAULT_READ. FAULT_READ arrives on a port (10/R348 to R350, R363). -/
  | faultRead (port : Bool) (async : Bool) (tag : BitVec 16) (params : List Byte)
  /-- STICKY_READ. STICKY_READ arrives on a port (10/R348 to R350, R363). -/
  | stickyRead (port : Bool) (async : Bool) (tag : BitVec 16) (params : List Byte)
  /-- STICKY_CLEAR. STICKY_CLEAR arrives on a port (10/R348 to R350, R363). -/
  | stickyClear (port : Bool) (async : Bool) (tag : BitVec 16) (params : List Byte)
  /-- JOB_FAULTS. JOB_FAULTS arrives on a port (10/R348 to R350, R363). -/
  | jobFaults (port : Bool) (async : Bool) (tag : BitVec 16) (params : List Byte)
  /-- FW_BEGIN. FW_BEGIN arrives on a port (10/R348 to R350, R363). -/
  | fwBegin (port : Bool) (async : Bool) (tag : BitVec 16) (params : List Byte)
  /-- FW_DATA. FW_DATA arrives on a port (10/R348 to R350, R363). -/
  | fwData (port : Bool) (async : Bool) (tag : BitVec 16) (params : List Byte)
  /-- FW_END. FW_END arrives on a port (10/R348 to R350, R363). -/
  | fwEnd (port : Bool) (async : Bool) (tag : BitVec 16) (params : List Byte)
  /-- FW_ACTIVATE. FW_ACTIVATE arrives on a port (10/R348 to R350, R363). -/
  | fwActivate (port : Bool) (async : Bool) (tag : BitVec 16) (params : List Byte)
  /-- FW_CORE_REPORT. A control core reports that it runs the new image (13/R442). -/
  | fwCoreReport
  /-- FW_ACTIVATION_TIMEOUT. A control core has not reported within 50 ms (13/R443). -/
  | fwActivationTimeout
  /-- FW_STATUS. FW_STATUS arrives on a port (10/R348 to R350, R363). -/
  | fwStatus (port : Bool) (async : Bool) (tag : BitVec 16) (params : List Byte)
  /-- LC_GET. LC_GET arrives on a port (10/R348 to R350, R363). -/
  | lcGet (port : Bool) (async : Bool) (tag : BitVec 16) (params : List Byte)
  /-- LC_TRANSITION. LC_TRANSITION arrives on a port (10/R348 to R350, R363). -/
  | lcTransition (port : Bool) (async : Bool) (tag : BitVec 16) (params : List Byte)
  /-- KEY_ENROL. KEY_ENROL arrives on a port (10/R348 to R350, R363). -/
  | keyEnrol (port : Bool) (async : Bool) (tag : BitVec 16) (params : List Byte)
  /-- RESET. RESET arrives on a port (10/R348 to R350, R363). -/
  | reset (port : Bool) (async : Bool) (tag : BitVec 16) (params : List Byte)
  /-- TIME_GET. TIME_GET arrives on a port (10/R348 to R350, R363). -/
  | timeGet (port : Bool) (async : Bool) (tag : BitVec 16) (params : List Byte)
  /-- TIME_SET. TIME_SET arrives on a port (10/R348 to R350, R363). -/
  | timeSet (port : Bool) (async : Bool) (tag : BitVec 16) (params : List Byte)
  /-- LEASE_EXPIRY. The owner's lease runs out (10/R355). -/
  | leaseExpiry
  /-- USB_LINK_LOSS. A port's link is lost, or the host resets it (10/R353). -/
  | usbLinkLoss (port : Bool) (reset : Bool)
  /-- USB_SUSPEND. A port enters or leaves U3, with remote wake enabled or not (10/R344). -/
  | usbSuspend (port : Bool) (enter : Bool) (wake : Bool)
  /-- VBUS_CHANGE. VBUS of a port becomes present or absent (14/R478). -/
  | vbusChange (port : Bool) (present : Bool)
  /-- RESULT_RECORD_ACK. The host acknowledges a result record (10/R357). -/
  | resultRecordAck (port : Bool)
  /-- INPUT_RECORD. A transfer of input records arrives (10/R361). -/
  | inputRecord (port : Bool) (bytes : List Byte)
  /-- IRC_DOORBELL. A doorbell write (11/R370, R371). -/
  | ircDoorbell (ini : Initiator) (target : Fin 4) (source : Fin 512)
  /-- IRC_ACK. A read of IRC_ACKt (11/R373). -/
  | ircAck (ini : Initiator) (target : Fin 4)
  /-- IRC_EOI. A write of IRC_EOIt (11/R374). -/
  | ircEoi (ini : Initiator) (target : Fin 4) (source : Fin 512)
  /-- CLRP. A write of IRC_SRCn with CLRP = 1; PRI and EN are written with it (11/R371). -/
  | clrp (ini : Initiator) (source : Fin 512) (pri : Fin 16) (en : Bool)
  /-- IRC_HOLDOFF_END. A group's hold-off expires (11/R376). -/
  | ircHoldoffEnd (group : Fin 32)
  /-- TC_COUNT_EVENT. A TC that counts the timebase sees a tick (11/R378). -/
  | tcCountEvent (tc : Fin 16)
  /-- TIO_EDGE. The sampled level of a TIO pin has held its new value for `samples` samples (11/R379). -/
  | tioEdge (pin : Fin 16) (level : Bool) (samples : Nat)
  /-- TC_CAP_READ. A read of TC_CAPn, of its low word or whole (11/R384). -/
  | tcCapRead (ini : Initiator) (tc : Fin 16) (wide : Bool)
  /-- CLEAR. A write of TC_CTLn with CLEAR = 1; EN is written with it (11/R381). -/
  | clear (ini : Initiator) (tc : Fin 16) (en : Bool)
  /-- TC_CNT_WRITE. A write of TC_CNTn (11/R381). -/
  | tcCntWrite (ini : Initiator) (tc : Fin 16) (value : Word)
  /-- TC_CMP_WRITE. A write of TC_CMPn (11/R381). -/
  | tcCmpWrite (ini : Initiator) (tc : Fin 16) (value : Word)
  /-- TIME_REF_PRESENT. TIME_REF becomes present (11/R389). -/
  | timeRefPresent
  /-- TIME_REF_LOST. TIME_REF shows no edge for 1 µs (11/R389). -/
  | timeRefLost
  /-- TIMEBASE_PLL_LOCK. The timebase PLL locks (11/R389). -/
  | timebasePllLock
  /-- PPS_EDGE. A PPS rising edge (11/R390). -/
  | ppsEdge
  /-- PPS_ABSENT. 1.5 s without an accepted edge (11/R390). -/
  | ppsAbsent
  /-- TIMEBASE_SLEW_TICK. One slew step of the timebase (11/R391). -/
  | timebaseSlewTick
  /-- TB_SET_WRITE. A write of TB_SET, whole or of its high word (11/R393). -/
  | tbSetWrite (ini : Initiator) (value : DWord) (wide : Bool)
  /-- TB_PPS_READ. A read of TB_PPS, of its low word or whole (11/R390). -/
  | tbPpsRead (ini : Initiator) (wide : Bool)
  /-- STAGE_S1. S1 (13/R427). -/
  | stageS1
  /-- STAGE_S2. S2, with the squares whose PLL did not lock and the code of another PLL that did not (13/R420). -/
  | stageS2 (unlocked : List Nat) (pll : Option Nat)
  /-- STAGE_S3. S3, with the findings of the march test and the PSRAM device that failed (12/R402). -/
  | stageS3 (finds : List MarchFind) (psram : Option (Nat × Nat))
  /-- STAGE_S4. S4 (13/R434). -/
  | stageS4
  /-- STAGE_S5. S5, with the slots that failed the known-answer work (13/R436). -/
  | stageS5 (fails : List (Nat × Nat))
  /-- STAGE_S6. S6, with the narrowest window of each channel at 200, 166 and 133 MHz in 1/256 UI (12/R410). -/
  | stageS6 (windows : List (List Nat))
  /-- STAGE_S7. S7, with the lanes of each port that showed a bit error (13/R437). -/
  | stageS7 (fails : List (List Nat))
  /-- LINK_TRAINING_TIMEOUT. A port gets no partner answer within 20 ms (13/R437). -/
  | linkTrainingTimeout (link : Fin 6)
  /-- STAGE_S8. S8: the module is ready (13/R420). -/
  | stageS8
  /-- GO. A write of FL_LCTLn with GO = 1 for a logical lane (13/R439). -/
  | go (ini : Initiator) (link : Fin 6) (lane : Fin 4)
  /-- LANE_RETRAIN_DONE. A lane retrain passes or fails (13/R439). -/
  | laneRetrainDone (link : Fin 6) (ok : Bool)
  /-- LANE_RETRAIN_TIMEOUT. A lane retrain has not completed within 2 ms (13/R439). -/
  | laneRetrainTimeout (link : Fin 6)
  /-- LANE_ERROR_WINDOW. The end of a 1 ms window, with the sync-header errors of a logical lane (13/R439). -/
  | laneErrorWindow (link : Fin 6) (lane : Fin 4) (errors : Nat)
  /-- SUPPLY_START. An input has been in range for 1 ms: the input voltages in mV, the ADDR pins and the µs of S0 (14/R463). -/
  | supplyStart (vinA : Nat) (vinB : Nat) (pins : Fin 8) (us : Nat)
  /-- SUPPLY_SWITCH. The filtered inputs cross a threshold: their voltages in mV (14/R461). -/
  | supplySwitch (vinA : Nat) (vinB : Nat)
  /-- SUPPLY_RETURN. VIN_A has stayed above 9.5 V for 10 ms (14/R461). -/
  | supplyReturn
  /-- SUPPLY_OVERVOLTAGE. An input rises above 17.5 V (14/R460). -/
  | supplyOvervoltage (input : Bool) (mv : Nat)
  /-- SUPPLY_RECONNECT. An input has been below 16.5 V for 10 ms (14/R460). -/
  | supplyReconnect (input : Bool) (mv : Nat)
  /-- INPUT_SHORT. An input is shorted (14/R465). -/
  | inputShort (input : Bool)
  /-- BROWNOUT. The bus falls below 3.0 V (14/R466). -/
  | brownout
  /-- RESET_N_ASSERT. RESET_N has been low for 10 µs (14/R472). -/
  | resetNAssert
  /-- RESET_N_RELEASE. RESET_N has been high for 10 µs (14/R472). -/
  | resetNRelease
  /-- MGT_TRANSFER. A management-port transfer to a 7-bit address: a read of `len` bytes, or a write of bytes (14/R475). -/
  | mgtTransfer (addr : Fin 128) (read : Bool) (len : Nat) (bytes : List Byte) (stop : Bool)
  /-- MGT_SCL_TIMEOUT. SCL has been held low for 35 ms (14/R477). -/
  | mgtSclTimeout
  /-- CSI_PACKET. A CSI-2 packet of a virtual channel, with the outcomes of its header ECC and payload CRC, and whether the lanes stay in HS (14/R484). -/
  | csiPacket (csi : Fin 8) (channel : Fin 4) (hdrBad : Bool) (crcBad : Bool) (more : Bool) (body : CsiBody)
  /-- CSI_ENABLE. A write of CSI_CTLn with EN = 1 (14/R489). -/
  | csiEnable (ini : Initiator) (csi : Fin 8) (value : Word)
  /-- RUNNING_TEMPO_LATE. The lateness of a running tempo passes the bound (11/R369). -/
  | runningTempoLate (job : Fin 4)
  /-- BANK_GROUP_TRANSITION_DONE. A bank group completes a transition, and held accesses are served (12/R395, R396). -/
  | bankGroupTransitionDone (sq : Fin 64) (group : Fin 28)
  /-- MALFORMED_COMMAND. A transfer that fails framing or carries an unlisted opcode (10/R348). -/
  | malformedCommand (port : Bool) (raw : List Byte)
  /-- REPLY_COLLECTED. The host collects a reply (10/R349). -/
  | replyCollected (port : Bool)
  /-- NOTIFICATION_DELIVERED. The host takes a notification (10/R362). -/
  | notificationDelivered (port : Bool)
  /-- LOSS_OF_BOTH_SUPPLIES. Both inputs stay below 4.0 V: their voltages in mV (14/R466). -/
  | lossOfBothSupplies (vinA : Nat) (vinB : Nat)
  /-- SUPPLY_RANGE_CHANGE. An input crosses a limit of its operating range: their voltages in mV (14/R461). -/
  | supplyRangeChange (vinA : Nat) (vinB : Nat)
  /-- LINK_TRAINING_REQUEST. A training request arrives from a partner (13/R437). -/
  | linkTrainingRequest (link : Fin 6)
  /-- WAIT_TIME_LEAD_REACHED. A WAIT_TIME predecessor comes within BUD_LEAD (08/R302). -/
  | waitTimeLeadReached (tid : Fin 4096)
  deriving DecidableEq, Repr

end Sys2Proof
end

