-- ==== Sys2Proof/Decode.lean ====
section
/-! DEFINITION. Words of the table: no row gives its command bits, so no word spells a command. -/

namespace Sys2Proof

/-- The command that a table word spells. -/
def decodeTableWord (_nbits _w : Nat) : Option Instr := none

end Sys2Proof
end

