-- ==== Sys2Proof/Machine/Bits.lean ====
section
/-! DEFINITION. Bit fields, sign extension, byte order, and the sorted lists that hold sparse data. -/

namespace Sys2Proof.Machine

/-- Field `[hi:lo]` of a number (00/R10). -/
def fld (v hi lo : Nat) : Nat := (v >>> lo) % 2 ^ (hi + 1 - lo)

/-- Bit `[n]` of a number. -/
def bit (v n : Nat) : Bool := v.testBit n

/-- A flag as a number, to build a register value from its fields. -/
def b2n (b : Bool) : Nat := if b then 1 else 0

/-- The two's complement reading of the low `w` bits (00/R11). -/
def sext (w v : Nat) : Int :=
  let m := v % 2 ^ w
  if m < 2 ^ (w - 1) then (m : Int) else (m : Int) - (2 ^ w : Nat)

/-- The low `w` bits of an integer, as a field holds it (00/R11). -/
def toField (w : Nat) (x : Int) : Nat := (x % ((2 ^ w : Nat) : Int)).toNat

/-- An integer clamped to a range. -/
def clampInt (lo hi x : Int) : Int := if x < lo then lo else if hi < x then hi else x

/-- A count that saturates at `m`. -/
def satAdd (m a b : Nat) : Nat := if m ≤ a + b then m else a + b

/-- `n` bytes of a number, the least significant first (00/R10). -/
def leBytes : Nat → Nat → List Byte
  | 0, _ => []
  | n + 1, v => BitVec.ofNat 8 v :: leBytes n (v / 256)

/-- The number a list of bytes spells, the least significant first (00/R10). -/
def ofLe : List Byte → Nat
  | [] => 0
  | b :: r => b.toNat + 256 * ofLe r

/-- Bytes `[a, a + n)` of a list, zero beyond its end. -/
def sliceB (l : List Byte) (a n : Nat) : List Byte :=
  let t := (l.drop a).take n
  t ++ List.replicate (n - t.length) 0

/-- The little-endian field of `n` bytes at offset `a` of a list. -/
def leAt (l : List Byte) (a n : Nat) : Nat := ofLe ((l.drop a).take n)

/-- The value a sorted list of pairs holds at key `k`, or `d`. -/
def mget {α : Type} (d : α) : List (Nat × α) → Nat → α
  | [], _ => d
  | (k', v) :: r, k => if k = k' then v else if k < k' then d else mget d r k

/-- The list with `v` at key `k`. -/
def mset {α : Type} : List (Nat × α) → Nat → α → List (Nat × α)
  | [], k, v => [(k, v)]
  | (k', v') :: r, k, v =>
    if k = k' then (k, v) :: r
    else if k < k' then (k, v) :: (k', v') :: r
    else (k', v') :: mset r k v

/-- The list with `f` of the old value at key `k`. -/
def mupd {α : Type} (d : α) (m : List (Nat × α)) (k : Nat) (f : α → α) : List (Nat × α) :=
  mset m k (f (mget d m k))

/-- The list with no entry at key `k`. -/
def mdel {α : Type} (m : List (Nat × α)) (k : Nat) : List (Nat × α) := m.filter (fun p => p.1 != k)

/-- Whether a key has an entry. -/
def mhas {α : Type} (m : List (Nat × α)) (k : Nat) : Bool := m.any (fun p => p.1 == k)

/-- The entry at a key, if any. -/
def mfind {α : Type} (m : List (Nat × α)) (k : Nat) : Option α := (m.find? (fun p => p.1 == k)).map (·.2)

/-- The sorted set with `k` in it. -/
def sins : List Nat → Nat → List Nat
  | [], k => [k]
  | a :: r, k => if k = a then a :: r else if k < a then k :: a :: r else a :: sins r k

/-- The set without `k`. -/
def sdel (s : List Nat) (k : Nat) : List Nat := s.filter (fun a => a != k)

/-- Put `k` in or take it out. -/
def sput (s : List Nat) (k : Nat) (b : Bool) : List Nat := if b then sins s k else sdel s k

/-- The bit mask of a set, for its members below `n` (member `i` gives bit `i`). -/
def maskOf (n : Nat) (s : List Nat) : Nat :=
  (List.range n).foldl (fun a i => if s.contains i then a + 2 ^ i else a) 0

/-- The set of the bits of a mask, below `n`. -/
def ofMask (n m : Nat) : List Nat := (List.range n).filter (fun i => m.testBit i)

/-- How many bits below `n` a mask has. -/
def popCount (n m : Nat) : Nat := (ofMask n m).length

/-- The first number of a list that passes a test. -/
def firstOf (l : List Nat) (p : Nat → Bool) : Option Nat := l.find? p

/-- XOR of the low `w` bits of a number. -/
def xorBits (w v : Nat) : Bool := (popCount w v) % 2 == 1

/-- Floor division of integers, as the references use it. -/
def fdiv (a b : Int) : Int := Int.fdiv a b

/-- `x / 2^n`, rounded towards minus infinity. -/
def asr (x : Int) (n : Nat) : Int := Int.fdiv x ((2 ^ n : Nat) : Int)

/-- Replace element `i` of a list. -/
def setAt {α : Type} (l : List α) (i : Nat) (v : α) : List α := l.set i v

/-- Apply `f` for each number of a list, in order. -/
def forAll {σ : Type} (l : List Nat) (f : Nat → σ → σ) (s : σ) : σ := l.foldl (fun a i => f i a) s

end Sys2Proof.Machine
end

