-- ==== Sys2Proof/Machine/UnitsTime.lean ====
section
/-! DEFINITION. Plain data of the interrupt controller, the timer/counters, the timebase, the power domains and the supplies
(11, 08 "Power", 14 "Supplies"). The default of each field is its reset value. -/

namespace Sys2Proof.Machine

/-- One interrupt source, IRC_SRCn (11/R371, R372). -/
structure IrcSrc where
  pri   : Nat := 15
  en    : Bool := false
  pend  : Bool := false
  act   : Bool := false
  again : Bool := false
  atgt  : Nat := 0
  deriving DecidableEq, Repr

/-- One group of sources, IRC_GRPg, with the end of its running hold-off in timebase ns (11/R376). -/
structure IrcGrp where
  target    : Nat := 0
  holdoff   : Nat := 0
  wake      : Bool := false
  heldUntil : Option Nat := none
  deriving DecidableEq, Repr

/-- The interrupt controller. Stacks list (source, priority), the top entry first (11/R372). -/
structure Irc where
  src     : List (Nat × IrcSrc) := []
  grp     : List (Nat × IrcGrp) := []
  accepts : List (Nat × List (Nat × Nat)) := []
  eoiErr  : List Nat := []
  badDb   : Bool := false
  lastBad : Nat := 0
  /-- The 512-bit latch array in AON (11/R377). -/
  latch   : List Nat := []
  deriving DecidableEq, Repr

/-- One timer/counter (11/R378 to R386). -/
structure Tc where
  cfg         : BitVec 30 := 0
  en          : Bool := false
  matchF      : Bool := false
  ovf         : Bool := false
  cap         : Bool := false
  outLvl      : Bool := false
  cnt         : Word := 0
  cmp         : Word := 0
  /-- The last step of the count was a match (11/R382). -/
  matched     : Bool := false
  /-- The last edge captured: its pin, whether it rose, and the count recorded (11/R383). -/
  lastEdge    : Option (Nat × Bool × Word) := none
  /-- When it was recorded, ns of `elapsed`, and whether it completed a pair: a step of that cycle still counts (11/R383). -/
  edgeAt      : Option Nat := none
  edgePair    : Bool := false
  /-- The held pair, RISE then FALL (11/R384). -/
  pair        : Option (Word × Word) := none
  unread      : Bool := false
  overrun     : Bool := false
  infoNew     : Bool := false
  infoOverrun : Bool := false
  /-- When its present count interval of 2^PRE cycles began, ns of `elapsed`. -/
  tickAt      : Nat := 0
  /-- The cycle of the last write of TC_CNTn or CLEAR, which takes no count step (11/R381). -/
  quietAt     : Option Nat := none
  deriving DecidableEq, Repr

/-- The input path of a pin that its TC drives: the level in the synchroniser, the level sampled last, and for how many
consecutive samples it has held (11/R379). -/
structure PinPath where
  flop : Bool
  lvl  : Bool
  held : Nat
  deriving DecidableEq, Repr

/-- The TIO pins: directions, filter, recognised levels, and the edges latched in AON (11/R379, R387). -/
structure Tio where
  dir       : Nat := 0
  filt      : Nat := 0
  /-- Input paths of the pins that are driven outputs. -/
  paths     : List (Nat × PinPath) := []
  level     : List Nat := []
  latchRise : List Nat := []
  latchFall : List Nat := []
  deriving DecidableEq, Repr

/-- The states of the timebase (11/T11-6). -/
inductive TbState where
  | free | locked | disciplined | holdover
  deriving DecidableEq, Repr

/-- The timebase and its discipline (11/R388 to R393). -/
structure Timebase where
  now         : Nat := 0
  state       : TbState := .free
  refPresent  : Bool := false
  ppsPresent  : Bool := false
  lockLost    : Bool := false
  ppsBad      : Bool := false
  stepped     : Bool := false
  stepEn      : Bool := true
  slew        : Nat := 50
  tol         : Nat := 100
  ppsValue    : Nat := 0
  ppsUnread   : Bool := false
  ppsOverrun  : Bool := false
  infoNew     : Bool := false
  infoOverrun : Bool := false
  setLast     : Nat := 0
  err         : Int := 0
  /-- The phase still to remove, ns, signed as e is (11/R391). -/
  slewLeft    : Int := 0
  /-- When the slew target was set, or the slew last moved the count, ns of `elapsed`. -/
  slewAt      : Nat := 0
  /-- The timebase at the previous accepted edge that a new edge is measured from (11/R390). -/
  prevPps     : Option Nat := none
  /-- When the last edge was accepted, ns of `elapsed`. -/
  lastPpsAt   : Option Nat := none
  /-- Consecutive accepted edges within TOL (11/R392). -/
  goodEdges   : Nat := 0
  /-- The PLL is locking to a present TIME_REF (11/R389). -/
  locking     : Bool := false
  /-- The domain left RETAIN or OFF and is undisciplined until TIME_REF and PPS_IN lock it again (01/R35). -/
  undisciplined : Bool := false
  deriving DecidableEq, Repr

/-- The states of a power domain or a bank group (01/R32, 12/R395). -/
inductive PwrState where
  | on | retain | off
  deriving DecidableEq, Repr

/-- One of the 91 power domains (08/T8-8). -/
structure Domain where
  state   : PwrState := .on
  /-- The state that a transition in progress leads to. -/
  moving  : Option PwrState := none
  /-- A wake latched in AON during an entry (08/R300). -/
  wake    : Bool := false
  /-- The state an accepted request holds the domain in (08/R297). -/
  held    : Option PwrState := none
  /-- When the domain was last used, and last woken, ns of `elapsed` (08/R296, R300). -/
  lastUse : Nat := 0
  wokeAt  : Option Nat := none
  deriving DecidableEq, Repr

/-- What R303 queues: a domain transition to a state, or the steps of a square's voltage, raised or lowered (08/T8-9). -/
inductive Transition where
  | domain (d : Nat) (target : PwrState)
  | dvfs (sq steps : Nat) (up : Bool)
  deriving DecidableEq, Repr

/-- A ramp in progress: its slope in 0.001 A/µs and its end, ns of `elapsed` (08/R303). -/
structure Ramp where
  slope : Nat
  until_ : Nat
  deriving DecidableEq, Repr

/-- Power domains, waiting transitions, ramps and PWR_PINk. -/
structure Power where
  dom     : List (Nat × Domain) := []
  waiting : List Transition := []
  ramps   : List Ramp := []
  pin     : List (Nat × Nat) := []
  deriving DecidableEq, Repr

/-- The supply inputs, the pins of the module and the management port (14). -/
structure Supply where
  /-- VIN_A and VIN_B in mV (PWR_VIN). -/
  vinA      : Nat := 0
  vinB      : Nat := 0
  /-- The input in use: false A, true B. -/
  inUse     : Bool := false
  aOv       : Bool := false
  bOv       : Bool := false
  aShort    : Bool := false
  bShort    : Bool := false
  switched  : Bool := false
  range     : Bool := false
  brownout  : Bool := false
  switches  : Nat := 0
  busUp     : Bool := false
  resetLow  : Bool := false
  addrPins  : Nat := 0
  addrSampled : Nat := 0
  mgtPtr    : Nat := 0
  /-- The bytes that the last read transfer returned (14/R475). -/
  mgtRead   : List Byte := []
  /-- What the module answered to each byte that the last transfer brought, the address first: true for an acknowledgement. -/
  mgtAcks   : List Bool := []
  /-- A transfer was left without a STOP (14/R477). -/
  mgtOpen   : Bool := false
  /-- AON has kept its contents since the last loss of both supplies (14/R466). -/
  aonKept   : Bool := false
  vbusA     : Bool := false
  vbusB     : Bool := false
  deriving DecidableEq, Repr

end Sys2Proof.Machine
end

