-- ==== Sys2Proof/Machine/UnitsSys.lean ====
section
/-! DEFINITION. Plain data of bring-up, fuses, firmware, PSRAM, the Kezil engine, the CSI-2 ports and the fault unit
(13, 12, 10, 14 "CSI-2", 09 "Fault records"). The default of each field is its reset value. -/

namespace Sys2Proof.Machine

/-- Bring-up (13/R420 to R424, SYS_STAGE, SYS_CAUSE, SYS_READY). -/
structure BringUp where
  /-- The stage in progress; 8 once S8 is reached. -/
  stage    : Nat := 0
  last     : Nat := 0
  stopped  : Bool := false
  cause    : Nat := 1
  /-- S0 of the present reset has ended. -/
  s0Done   : Bool := false
  /-- Stage reports of 16 bytes, by stage. -/
  reports  : List (Nat × List Byte) := []
  /-- When the stage in progress began, ns of `elapsed`. -/
  began    : Nat := 0
  /-- The control complex runs S4 alone, with its cause 1 or 2 (13/R435). -/
  ctrlS4   : Option Nat := none
  pass     : List Nat := []
  unfit    : List Nat := []
  /-- A life-cycle transition began this reset, so the staging region is wiped at S3 (12/T12-3). -/
  lcReset  : Bool := false
  /-- Ports without a partner at S7 (13/T13-3). -/
  noPartner : List Nat := []
  deriving DecidableEq, Repr

/-- The fuse map of Table 13-4. A field row reads as the OR of its two fuses (13/R426). -/
structure Fuses where
  serial   : BitVec 128 := 0
  grade    : Nat := 0
  sqFused  : BitVec 64 := 0
  idSeed   : BitVec 256 := 0
  badCore  : List (Nat × Nat) := []
  badLane  : Nat := 0
  badRow   : List (Nat × Nat) := []
  colSel   : List (Nat × Nat) := []
  pkDigest : BitVec 512 := 0
  crc      : Nat := 0
  lcCount  : BitVec 64 := 1
  retired  : BitVec 32 := 0
  svnMin   : BitVec 64 := 0
  key      : List (Nat × BitVec 512) := []
  /-- Bits of the map (8 × offset + bit) of which only one fuse of the pair is blown. -/
  half     : List Nat := []
  deriving DecidableEq, Repr

/-- The security engine beside the fuses (13/R429, R445, R449). -/
structure Security where
  publicKey   : Option (List Byte) := none
  /-- The certificate store, written once: module and authority certificates in DER. -/
  certs       : Option (List Byte × List Byte) := none
  spillDigest : List (BitVec 512) := []
  deriving DecidableEq, Repr

/-- Firmware (10/R365, 13/R432 to R444). -/
structure Firmware where
  version   : Nat := 0
  digest    : BitVec 512 := 0
  svn       : Nat := 0
  commit    : Bool := false
  /-- Control cores that run the image. -/
  coresUp   : List Nat := []
  /-- FW_STATUS: 0 idle, 1 receiving, 2 staged, 3 activating. -/
  xfer      : Nat := 0
  mode      : Nat := 0
  length    : Nat := 0
  received  : Nat := 0
  /-- The bytes of a transfer with MODE 0. -/
  bootImage : List Byte := []
  /-- A MODE 0 image that passed its checks waits to be loaded at S4. -/
  bootOk    : Bool := false
  stagedVersion : Nat := 0
  stagedLength  : Nat := 0
  /-- The control core that the activation replaces, and when its 50 ms end (ns of `elapsed`). -/
  actCore   : Option (Nat × Nat) := none
  deriving DecidableEq, Repr

/-- One PSRAM channel, PSC_CHSTATk and PSC_CHCNTk (12/T12-13, T12-14). -/
structure PscChan where
  /-- 0 ready, 1 training, 2 retraining, 3 failed. -/
  state     : Nat := 0
  freq      : Nat := 0
  rtEvt     : Bool := false
  win       : Nat := 0
  retrains  : Nat := 0
  /-- T_CP when the channel last trained. -/
  tcpAt     : Int := 0
  /-- When its retrain began, ns of `elapsed`. -/
  began     : Nat := 0
  deriving DecidableEq, Repr

/-- The PSRAM controller and the incident journal (12/R407 to R416). -/
structure Psram where
  chan      : List (Nat × PscChan) := []
  period    : Nat := 100
  drift     : Nat := 26
  dtemp     : Nat := 10
  size      : Nat := 16
  inEn      : Bool := false
  outEn     : Bool := false
  jpage     : Nat := 0
  jseq      : Nat := 1
  /-- When the drift check last ran, in ns of `elapsed`. -/
  driftAt   : Nat := 0
  /-- Channels that wait to retrain. -/
  queue     : List Nat := []
  /-- Input entries waiting for a page, by job slot (8 bytes each). -/
  inWait    : List (Nat × List (List Byte)) := []
  /-- Result bytes waiting for a page, each with the mark that a record begins there. -/
  outWait   : List (List Byte) := []
  /-- Bytes of the first waiting record that earlier pages already carry. -/
  outPos    : Nat := 0
  deriving DecidableEq, Repr

/-- A notification (10/T10-7) before its LOST and CRC are filled in. -/
structure Note where
  kind   : Nat
  status : Nat
  id     : Nat
  time   : Nat
  aux    : Nat
  data   : List Byte
  deriving DecidableEq, Repr

/-- A Kezil command as a port holds it (10/R345, R350). `bad` holds the status, DETAIL and echoed OPCODE and TAG
of a framing or opcode failure, or of a loss of ownership, which is answered in its turn: status and DETAIL. -/
structure Cmd where
  opcode  : Nat
  tag     : Nat
  async   : Bool
  params  : List Byte
  arrived : Nat
  /-- Timebase when the last byte arrived. -/
  time    : Nat
  bad     : Option (Nat × Nat) := none
  deriving DecidableEq, Repr

/-- What a command that has begun waits for. -/
inductive KWait where
  /-- The chain of a DMA channel. -/
  | chain (ch : Nat)
  /-- The end of a task. -/
  | task (tid : Nat)
  /-- The firmware activation. -/
  | activation
  /-- A forced TAKEOVER: the end of the owner's command in progress (10/R354). -/
  | grant
  /-- Its access to PSRAM is held: it is carried out once the access can be made (12/R411, 01/R36). -/
  | retry
  deriving DecidableEq, Repr

/-- A command whose work goes on: its port (false A, true B), tag, opcode and what it waits for. -/
structure Running where
  port   : Bool
  cmd    : Cmd
  wait   : KWait
  deriving DecidableEq, Repr

/-- One USB port of the Kezil engine (10/R343 to R362). -/
structure Port where
  /-- Enumerated by its host: it takes and delivers transfers. -/
  up          : Bool := false
  suspended   : Bool := false
  remoteWake  : Bool := false
  /-- The port signals remote wake to its host (10/R344). -/
  waking      : Bool := false
  cmds        : List Cmd := []
  /-- The command in progress that holds the port (not async). -/
  current     : Option (Cmd × KWait) := none
  replies     : List (List Byte) := []
  /-- The reply that the host collected last. -/
  lastReply   : List Byte := []
  notes       : List Note := []
  lost        : Nat := 0
  /-- The notification that the host took last. -/
  lastNote    : List Byte := []
  /-- Observer input transfers discarded. -/
  discarded   : Nat := 0
  /-- Input records refused since the last INPUT_REFUSED notification; ID and first bytes of the last one; when the last
  notification was sent, ns of `elapsed` (10/R358, R361). -/
  refused     : Nat := 0
  refusedId   : Nat := 0xFFFF
  refusedRec  : List Byte := []
  refusedAt   : Option Nat := none
  deriving DecidableEq, Repr

/-- A group of a host stream or CSI tile: GROUP, ORD and attachment square. -/
structure StreamGroup where
  group : Nat
  ord   : Nat
  asq   : Nat
  deriving DecidableEq, Repr

/-- A host input stream (10/R359). -/
structure Stream where
  enable : Bool := false
  jobId  : Nat := 0
  groups : List StreamGroup := []
  /-- The job slot it joined. -/
  joined : Option Nat := none
  deriving DecidableEq, Repr

/-- The Kezil engine: ownership, lease, ports and streams. -/
structure Kezil where
  owner    : Option Bool := none
  leaseMs  : Nat := 0
  /-- When the lease was last restarted, ns of `elapsed`. -/
  leaseAt  : Nat := 0
  portA    : Port := {}
  portB    : Port := {}
  streams  : List (Nat × Stream) := []
  /-- Commands received so far, to keep the order of arrival. -/
  arrivals : Nat := 0
  /-- Commands with ASYNC = 1 whose work goes on. -/
  running  : List Running := []
  deriving DecidableEq, Repr

/-- A CSI-2 port (14/R483 to R489). -/
structure CsiPort where
  en      : Bool := false
  lanes   : Nat := 0
  mode    : Bool := false
  vc      : Nat := 0
  graded  : Bool := false
  ntile   : Nat := 0
  joined  : Option Nat := none
  refOk   : Bool := false
  crcEvt  : Bool := false
  skip    : Bool := false
  width   : Nat := 0
  height  : Nat := 0
  th      : Nat := 0
  gshift  : Nat := 0
  jobId   : Nat := 0
  errCrc  : Nat := 0
  errEcc  : Nat := 0
  errOut  : Nat := 0
  errIgn  : Nat := 0
  stime   : Nat := 0
  tile    : List (Nat × DWord) := []
  /-- The data lanes are receiving in HS: a burst is not over. -/
  hs      : Bool := false
  /-- Reference pixels, at y × (WIDTH + 1) + x. -/
  refPix  : List (Nat × Nat) := []
  /-- A frame is in progress; its next line; every line and pixel so far was received. -/
  inFrame : Bool := false
  line    : Nat := 0
  whole   : Bool := false
  /-- The frame in progress began after the port joined its job. -/
  fresh   : Bool := false
  deriving DecidableEq, Repr

/-- The FLT unit (09/R340 to R342, Tables 9-17 to 9-25). -/
structure Flt where
  sticky1 : Nat := 0
  sticky2 : Nat := 0
  maxRst  : Nat := 8
  /-- The last 256 records of 32 bytes, oldest first. -/
  ring    : List (List Byte) := []
  /-- Records held while the control complex is not ON. -/
  buffer  : List (List Byte) := []
  lost    : Nat := 0
  nextSeq : Nat := 0
  /-- Ring entry that the next record takes. -/
  ringPos : Nat := 0
  chkSeed : Word := 1
  ecc     : List (Nat × Nat) := []
  deriving DecidableEq, Repr

/-- One entry of the soft repair table (12/R403). -/
structure SoftRepair where
  square : Nat
  group  : Nat
  bank   : Nat
  row    : Nat
  deriving DecidableEq, Repr

end Sys2Proof.Machine
end

