-- ==== Sys2Proof/Machine/UnitsBoard.lean ====
section
/-! DEFINITION. Plain data of the board: packets, routers, squares, cores, queues, controller programs, links, the DMA
engine, the sequencer and its jobs (01 to 09). The default of each field is its reset value. -/

namespace Sys2Proof.Machine

/-- A packet (06/R192). `link` is the port it entered the module through, to which fault 0x02 is charged (09/T9-1). -/
structure Packet where
  hdr  : BitVec 48
  pay  : BitVec 128
  par  : BitVec 11
  age  : Nat := 0
  link : Option Nat := none
  /-- The square of this module that sent a QUEUE packet (06/T6-4: its QSTAT goes back there). -/
  home : Option Nat := none
  /-- What of a WRITE packet its bits do not show (07/R261, R266). -/
  mark : PacketMark := .plain
  deriving DecidableEq, Repr

/-- The states of a router (06/T6-22). -/
inductive RtState where
  | normal | draining | absent | sink
  deriving DecidableEq, Repr

/-- A packet in the replicator: the ports still owed a copy, the local delivery still owed and how often it was refused
(06/R210, R211). -/
structure Repl where
  pkt     : Packet
  owe     : List Nat
  localOwed : Bool
  refused : Nat := 0
  deriving DecidableEq, Repr

/-- What a square, or the router as its proxy, keeps for one WID (06/R199, R227). -/
structure WidState where
  count    : Nat := 0
  /-- A counted write failed parity, was not made under 12/R401, or was ignored, since the last FENCE. -/
  parity   : Bool := false
  ecc      : Bool := false
  busy     : Bool := false
  /-- The first other status of a counted write that was not made: an absent core, an unmapped address. -/
  other    : Nat := 0
  /-- The router as proxy absorbed a WRITE since the last FENCE. -/
  absorbed : Bool := false
  /-- A refused row load: writes are absorbed until the FENCE (07/R266). -/
  refused  : Bool := false
  deriving DecidableEq, Repr

/-- An accepted row load (07/R265, R266). -/
structure RowLoad where
  start  : Nat
  len    : Nat
  dirV   : Bool
  dirIdx : Nat
  dirEnt : Nat := 0
  deriving DecidableEq, Repr

/-- The router of a square with its queues (06). -/
structure Router where
  state    : RtState := .normal
  fenced   : Bool := false
  tblAddr  : Nat := 0
  /-- Route entries written, at 64 × version + square. -/
  sqRoute  : List (Nat × Nat) := []
  /-- Module entries, at 16 × version + module. -/
  modRoute : List (Nat × Nat) := []
  /-- Multicast entries, at 16,384 × version + group. -/
  mcast    : List (Nat × Nat) := []
  sink     : Nat := 0
  /-- RTR_SENDL values, by logical core. -/
  send     : List (Nat × Nat) := []
  /-- Packets that arrived on the mesh inputs N, E, S, W (0 to 3). -/
  latch    : List (Nat × Packet) := []
  /-- Whether each output carried a packet: bit 0 the present cycle, bits 1 to 16 the 16 before it. -/
  occ      : List (Nat × Nat) := []
  /-- The inbox, and the replicator, has taken a packet in the present spine cycle (06/R205). -/
  inTaken  : Bool := false
  rpTaken  : Bool := false
  repl     : List Repl := []
  inject   : List Packet := []
  /-- Packets waiting in the packers of the cores. -/
  packer   : List Packet := []
  /-- Input queue of the edge port (I/O hub or link receiver). -/
  edgeIn   : List Packet := []
  /-- Transmit queue of the edge port. -/
  edgeOut  : List Packet := []
  deriving DecidableEq, Repr

/-- A packet in the inbox, with the pair slot of an EVENT and whether the ledger has counted it (06/R217, R224). -/
structure InEntry where
  pkt     : Packet
  slot    : Nat := 0
  counted : Bool := false
  /-- It had reached the square when the square's domain left ON for OFF: it is still served (06/R228). -/
  owed    : Bool := false
  deriving DecidableEq, Repr

/-- One pair slot of a ledger (06/T6-25, T6-26). -/
structure LgSlot where
  expect    : Bool := false
  src       : Nat := 0
  bind      : Nat := 0
  received  : Nat := 0
  carried   : Nat := 0
  closeSeen : Bool := false
  deriving DecidableEq, Repr

/-- One pair slot of the output ledger (06/R493). -/
structure OlSlot where
  expect    : Bool := false
  src       : Nat := 0
  ssq       : Nat := 0
  smod      : Nat := 0
  group     : Nat := 0
  jobId     : Nat := 0
  received  : Nat := 0
  carried   : Nat := 0
  closeSeen : Bool := false
  deriving DecidableEq, Repr

/-- A snapshot unit of a square (09/R324), by logical core. -/
inductive SnapUnit where
  | row (core r : Nat)
  | plastic (index : Nat)
  | due (core bitmap quarter : Nat)
  | fire (core piece : Nat)
  | control
  deriving DecidableEq, Repr

/-- A neuron record as it crosses the update unit (03): membrane, refractory count, trace, channel, model and the rest of
the state word are read from its 32 bytes. -/
structure Sample where
  core   : Nat
  neuron : Nat
  /-- The records of the unit before the update, 32 or 64 bytes. -/
  before : List Byte
  /-- The primary's state after the update and fire outcomes, one for each record. -/
  after  : List (List Byte)
  fires  : List (Option Nat)
  deriving DecidableEq, Repr

/-- A bank group of a square (12/R395). -/
structure BankGroup where
  state  : PwrState := .on
  moving : Option PwrState := none
  /-- A request has set the group ON (12/R397). -/
  reqOn  : Bool := false
  /-- A held access wakes the group when its entry completes (12/R396). -/
  wake   : Bool := false
  deriving DecidableEq, Repr

/-- Shadow sampling, faults and counters of a square (09). -/
structure SqFault where
  rate     : Nat := 0
  arb      : Nat := 0
  arbSlot  : Nat := 0
  samples  : Nat := 0
  sticky   : Nat := 0
  eccCount : Nat := 0
  /-- NSNAP_L where it differs from the reset value. -/
  nsnap    : List (Nat × Nat) := []
  /-- Timebase of recent transients: slots 0 to 18, 19 the router, 20 the square. -/
  trans    : List (Nat × List Nat) := []
  dirty    : List SnapUnit := []
  pend     : List SnapUnit := []
  /-- Pending plastic records whose copy takes the form of 09/R327. -/
  consPend : List Nat := []
  /-- Samples of the running tempo that are not compared yet. -/
  waiting  : List Sample := []
  /-- The tempo of the last snapshot point (09/T9-3). -/
  snapAt   : Nat := 0
  sampled  : Nat := 0
  /-- A shadow found permanent, to be fenced at the next tempo boundary. -/
  shadowOut : Bool := false
  /-- Primary or reserve slots found permanent, to be fenced at step 2. -/
  fenceAt2 : List Nat := []
  /-- The square itself, or its router, is to be fenced at step 2. -/
  fenceSq  : Bool := false
  fenceRt  : Bool := false
  deriving DecidableEq, Repr

/-- A square of the board. -/
structure Square where
  fused      : Bool := false
  fenced     : Bool := false
  policy     : Bool := false
  loaded     : Bool := false
  /-- Fenced physical slots. -/
  slotFence  : List Nat := []
  /-- Slot of each logical core, 31 for absent, where it differs from the identity under REMAP. -/
  lmap       : List (Nat × Nat) := []
  /-- The slot that carries the shadow role, 31 for nowhere. -/
  shadow     : Nat := 18
  digest     : BitVec 512 := 0
  rt         : Router := {}
  inbox      : List InEntry := []
  wdog       : Bool := false
  wdogCount  : Nat := 0
  ledger     : List (Nat × LgSlot) := []
  /-- The tempo that the ledger counts; none before the job's start. -/
  ledgerT    : Option Nat := none
  closed     : Bool := false
  /-- The square has reported local closure, and done, of the tempo the ledger counts. -/
  reported   : Bool := false
  inUpdate   : Bool := false
  ejected    : Nat := 0
  /-- Packets ejected into the inbox under the tempo that the last global closure closed (02/T2-4). -/
  ejectedT   : Nat := 0
  wid        : List (Nat × WidState) := []
  fences     : List Packet := []
  rowLoads   : List (Nat × RowLoad) := []
  /-- Pending directory entries: index, entry (04/R161). -/
  pendDir    : List (Nat × Nat) := []
  /-- Entries replaced at the last point, kept until the snapshot is complete (04/R162). -/
  oldDir     : List (Nat × Nat) := []
  /-- Taken staging lines of the synapse tier (04/R160). -/
  staged     : List (Nat × Nat) := []
  /-- The synapse root as read at the job's start (04/R133). -/
  root       : Option (List Byte) := none
  /-- The send table of each core as read at the job's start (06/R222). -/
  sends      : List (Nat × List Nat) := []
  /-- Used slots of each plastic record, as LOAD_SQUARE found them (05/R167). -/
  usedSlots  : List (Nat × Nat) := []
  flt        : SqFault := {}
  banks      : List (Nat × BankGroup) := []
  dvfsCur    : Nat := 7
  dvfsFloor  : Nat := 7
  dvfsNext   : Nat := 0
  busy       : Nat := 0
  busyHist   : List Nat := []
  temp       : Int := 0
  /-- A raise whose voltage change is in progress: the point it leads to. -/
  raising    : Option Nat := none
  /-- A completed raise that the next tempo start takes over: the point it led to (08/R294). -/
  volt       : Option Nat := none
  /-- Work of the running tempo so far: compute cycles counted, whether they count now, and since when, ns of `elapsed`. -/
  cycles     : Nat := 0
  counting   : Bool := false
  countAt    : Nat := 0
  /-- Compute cycles of the square up to `countAt`, in hundredths, and whether its clock stands because its domain is not ON. -/
  clock      : Nat := 0
  clkOff     : Bool := false
  /-- ns of `elapsed` at the square's start of the tempo, its local closure and the global closure. -/
  tStart     : Nat := 0
  tClosed    : Nat := 0
  /-- When the ledger closed its tempo, timebase ns. -/
  ledgerAt   : Nat := 0
  tUpdate    : Nat := 0
  /-- DVFS pauses of the running tempo, cycles. -/
  pauses     : Nat := 0
  /-- Logical cores that step 2 of the present restart moved to a reserve core (09/R334, R335). -/
  moved      : List Nat := []
  /-- Those cores with the units that were DIRTY when step 2 moved them, until the restore: a point that a RESTART message names is
  still taken of the slot that each left (09/R337). -/
  left       : List (Nat × List SnapUnit) := []
  /-- Clocks gated by throttling (08/R287). -/
  gated      : Bool := false
  deriving DecidableEq, Repr

/-- A table or rule image that a core holds: its base in square memory and its bytes. -/
structure Image where
  base  : Nat
  bytes : List Byte
  deriving DecidableEq, Repr

/-- A physical core slot with its core registers and unit SRAM (03, 05). -/
structure Slot where
  checking  : Bool := false
  reloadErr : Bool := false
  errCode   : Nat := 0
  tblBase   : Nat := 0
  table     : Option Image := none
  stagedT   : Option Image := none
  pendT     : Option Image := none
  /-- A staged image was read through an uncorrectable word (03/R122, 05/R172). -/
  tEcc      : Bool := false
  rEcc      : Bool := false
  rChecking : Bool := false
  rErr      : Bool := false
  rErrCode  : Nat := 0
  gsat      : Bool := false
  ruleBase  : Nat := 0
  rule      : Option Image := none
  stagedR   : Option Image := none
  pendR     : Option Image := none
  lfsr      : Word := 1
  mods      : List (Nat × Nat) := []
  /-- M_q of the tempo in its update phase; RULE_MODq takes them at the square's done (05/R174). -/
  modNew    : List (Nat × Nat) := []
  cntDue    : Nat := 0
  cntUpd    : Nat := 0
  /-- Lane work of the tempo that has ended, in half lane-cycles, of which CORE_CNT_LANE reports what fits (02/R74, 04/R154). -/
  laneWork  : Nat := 0
  cntLane   : Nat := 0
  cntWide   : Nat := 0
  cntFire   : Nat := 0
  cntTempo  : Nat := 0
  cntPre    : Nat := 0
  cntMod    : Nat := 0
  cntCons   : Nat := 0
  /-- Counts of the running tempo: lane work in half units, wide entries, plastic entries, update cycles, records of
  modulation passes, neurons updated, neurons fired, synaptic operations. -/
  laneHalf  : Nat := 0
  wide      : Nat := 0
  plastic   : Nat := 0
  updCycles : Nat := 0
  modRecs   : Nat := 0
  updated   : Nat := 0
  firedN    : Nat := 0
  sop       : Nat := 0
  /-- Neurons due, for each of the eight bitmaps (03/R117). -/
  due       : List (Nat × List Nat) := []
  /-- Fires of the last update: neuron and value (09/R494). -/
  fire      : List (Nat × Nat) := []
  /-- Modulator sums (05/R180). -/
  modSum    : List (Nat × Int) := []
  updating  : Bool := false
  phaseA    : Bool := false
  phaseB    : Bool := false
  /-- IN_JOB as it stood when the slot last carried a logical number (03/R126). -/
  heldInJob : Bool := false
  deriving DecidableEq, Repr

/-- A receive queue (07/R241 to R246). GEN lies in the SPINE domain. -/
structure Queue where
  buf    : Nat := 0
  smod   : Nat := 0
  ssq    : Nat := 0
  score  : Nat := 0
  bound  : Bool := false
  open_  : Bool := false
  gen    : Nat := 0
  rptr   : Nat := 0
  rxerr  : Bool := false
  valid  : List Nat := []
  freed  : Nat := 0
  deriving DecidableEq, Repr

/-- A send channel (07/R247 to R249). -/
structure SendCh where
  dmod    : Nat := 0
  dsq     : Nat := 0
  dcore   : Nat := 0
  dq      : Nat := 0
  open_   : Bool := false
  gen     : Nat := 0
  wptr    : Nat := 0
  credits : Nat := 0
  rvalid  : Bool := false
  rej     : Nat := 0
  rgen    : Nat := 0
  sClosed : Bool := false
  sStale  : Bool := false
  sAbsent : Bool := false
  sParity : Bool := false
  sBadp   : Bool := false
  deriving DecidableEq, Repr

/-- What a controller program waits in (07/R249, R251): channel or queue, the register D, the offset A. -/
inductive CpWait where
  | send (ch d off : Nat)
  | recv (q d off : Nat)
  deriving DecidableEq, Repr

/-- The controller program of a logical core (07/R252 to R254). -/
structure Prog where
  base    : Nat := 0
  run     : Bool := false
  pc      : Nat := 0
  err     : Bool := false
  errCode : Nat := 0
  tmo     : Nat := 4096
  w       : List (Nat × Int) := []
  f       : Bool := false
  /-- Words of the image that the START check accepted. -/
  len     : Nat := 0
  wait    : Option CpWait := none
  /-- The clock of the square when the wait began, and CP_TMO then (07/R250). -/
  waitAt  : Nat := 0
  waitN   : Nat := 0
  deriving DecidableEq, Repr

/-- Queues, send channels and program of a logical core. -/
structure LCore where
  queue : List (Nat × Queue) := []
  send  : List (Nat × SendCh) := []
  cp    : Prog := {}
  deriving DecidableEq, Repr

/-- A link frame (06/T6-13). -/
structure Frame where
  nak    : Bool := false
  seq    : Nat := 0
  ack    : Nat := 0
  credit : Nat := 0
  ctrl   : Nat := 0
  pkts   : List Packet := []
  deriving DecidableEq, Repr

/-- A Faride link port (06/R229 to R235, 13/R437 to R441). -/
structure Link where
  en       : Bool := false
  jobs     : Nat := 0
  up       : Bool := false
  spareUsed : Bool := false
  downEvt  : Bool := false
  cause    : Nat := 0
  credits  : Nat := 0
  crcErr   : Nat := 0
  retry    : Nat := 0
  /-- Physical lane of logical lanes 0 to 3, where it differs from the lane's own number. -/
  lane     : List (Nat × Nat) := []
  failed   : List Nat := []
  nextSeq  : Nat := 0
  replay   : List Frame := []
  /-- Position in the replay buffer from which frames are resent; none when nothing is. -/
  resendAt : Option Nat := none
  /-- How often each frame of the replay buffer has been resent, in its order (06/R233). -/
  resends  : List Nat := []
  /-- SEQ of the last frame accepted in order. -/
  lastRx   : Nat := 4095
  nakOwed  : Bool := false
  ackOwed  : Bool := false
  creditOwed : Nat := 0
  ctrlQ    : List Nat := []
  lastOk   : Nat := 0
  lastSent : Option Frame := none
  training : Bool := false
  rtRun    : Bool := false
  rtOk     : Bool := false
  rtFail   : Bool := false
  rtLane   : Nat := 0
  rtPhys   : Nat := 0
  rtAt     : Nat := 0
  rtWait   : List Nat := []
  fitHist  : List Nat := []
  fitNow   : Nat := 0
  /-- Timebase of recent transients (09/R316). -/
  trans    : List Nat := []
  deriving DecidableEq, Repr

/-- A read that a DMA channel has outstanding: its tag, the granule it names, and its answer once it came. -/
structure DmaRead where
  tag   : Nat
  addr  : Nat
  lo    : Nat
  n     : Nat
  data  : Option (List Byte) := none
  /-- When it was issued, ns of `elapsed`. -/
  sent  : Nat := 0
  deriving DecidableEq, Repr

/-- The descriptor in progress of a DMA channel (07/R257 to R264). -/
structure DmaDesc where
  addr    : Nat
  src     : Nat
  sfix    : Bool
  sw      : Nat
  dst     : Nat
  dfix    : Bool
  dw      : Nat
  len     : Nat
  barrier : Bool
  irq     : Bool
  rowload : Bool
  nextV   : Bool
  next    : Nat
  dirEnt  : Nat
  dirIdx  : Nat
  dirV    : Bool
  /-- Source bytes requested, and delivered to the funnel. -/
  asked   : Nat := 0
  taken   : Nat := 0
  /-- Bytes in the funnel. -/
  funnel  : List Byte := []
  /-- Bytes whose writes were issued. -/
  written : Nat := 0
  header  : Bool := false
  status  : Nat := 0
  /-- Tags of the FENCE packets outstanding, with the time each was sent. -/
  fencing : List (Nat × Nat) := []
  fenced  : Bool := false
  deriving DecidableEq, Repr

/-- A DMA channel (07/R256 to R267). -/
structure Dma where
  run     : Bool := false
  done    : Bool := false
  err     : Bool := false
  code    : Nat := 0
  desc    : Nat := 0
  cur     : Nat := 0
  stop    : Bool := false
  d       : Option DmaDesc := none
  reads   : List DmaRead := []
  nextTag : Nat := 0
  /-- WRITE packets sent since the last FENCE, by 64 × module + square. -/
  writes  : List (Nat × Nat) := []
  /-- Bytes of a Kezil MEM_READ, or the bytes a MEM_WRITE still supplies. -/
  kezil   : Option (List Byte) := none
  /-- 0 none, 1 MEM_READ (the destination is the reply), 2 MEM_WRITE (the source is the command). -/
  kmode   : Nat := 0
  /-- Paused between packets by throttling (08/R287). -/
  paused  : Bool := false
  /-- The task that runs the chain. -/
  task    : Option Nat := none
  deriving DecidableEq, Repr

/-- The states of a task (08/T8-4), but EMPTY, which has no entry. -/
inductive TaskState where
  | waiting | ready | running | done | failed
  deriving DecidableEq, Repr

/-- A resident task (08/R268 to R281). -/
structure Task where
  desc     : List Byte := []
  state    : TaskState := .waiting
  deferred : Bool := false
  late     : Bool := false
  jslot    : Nat := 0
  status   : Nat := 0
  time     : Nat := 0
  readyAt  : Nat := 0
  episode  : Bool := false
  lateSent : Bool := false
  /-- The channel a DMA task holds. -/
  chan     : Nat := 0
  /-- A CONSOLIDATE or SNAPSHOT task waits for this tempo's snapshot. -/
  snapT    : Option Nat := none
  /-- The state of the bring-up of its squares: a DRAIN waits for ABSENT. -/
  imminent : Bool := false
  /-- The squares for which its access to PSRAM is held; a SNAPSHOT lists its job slot (12/R411, 01/R36). -/
  memWait  : List Nat := []
  /-- The first status other than OK of a spill image of a DRAIN_SQUARE task. -/
  memSt    : Nat := 0
  deriving DecidableEq, Repr

/-- A bound consolidation (05/R184). -/
structure Binding where
  ts   : Nat
  tid  : Nat
  mask : Nat
  deriving DecidableEq, Repr

/-- A restart in progress (09/R332). -/
structure Restart where
  /-- 1 stop, 2 purge done, 3 restore begun. -/
  step   : Nat := 1
  /-- ns of `elapsed` at step 1. -/
  at_    : Nat := 0
  /-- The snapshot named by RESTART messages, the latest. -/
  named  : Option Nat := none
  /-- A link loss began or joined it: an armed table version flips in at step 2 (06/R237). -/
  flip   : Bool := false
  /-- Part 1 of the readiness check has passed (13/R441). -/
  fit    : Bool := true
  deriving DecidableEq, Repr

/-- The cause of the last restart of a job (09/R319). -/
structure Cause where
  status : Nat
  square : Option Nat
  tempo  : Nat
  deriving DecidableEq, Repr

/-- A job slot (02, 08/R272 to R276, 09). -/
structure Job where
  active   : Bool := false
  tid      : Nat := 0
  jobId    : Nat := 0
  mask     : Nat := 0
  ntempo   : Nat := 0
  t0       : Nat := 0
  fabric   : Bool := false
  snapIv   : Nat := 8
  startAt  : Nat := 0
  released : Bool := false
  period   : Nat := 50000
  bound    : Nat := 32
  boundNext : Nat := 32
  origin   : Int := 0
  /-- The tempo in progress, or the last one. -/
  tempo    : Nat := 0
  sT       : Nat := 0
  dPrev    : Nat := 0
  /-- 0 idle, 1 integrate, 2 close, 3 update and fire. -/
  phase    : Nat := 0
  closedSq : List Nat := []
  doneSq   : List Nat := []
  closedCh : List Nat := []
  doneCh   : List Nat := []
  /-- CLOSED, and DONE, of the running tempo have been sent to the parent module. -/
  sentUp   : Bool := false
  sentDone : Bool := false
  /-- GCLOSED, and GDONE, of the running tempo have come from the parent module. -/
  gClosed  : Bool := false
  /-- GCLOSED of the tempo after the running one has come from the parent (06/R235). -/
  gNext    : Bool := false
  gDone    : Bool := false
  /-- The input tempo, whose cutoff has not passed, and whether the running tempo's input has been injected. -/
  inTempo  : Nat := 0
  injected : Bool := false
  held     : Bool := false
  heldStart : Bool := false
  /-- Lateness caused by the hold of 02/R73 so far, and when the present hold began, timebase ns. -/
  lag      : Nat := 0
  holdAt   : Nat := 0
  /-- The part of `lag` that arose in the running tempo. -/
  lagT     : Nat := 0
  /-- The running tempo has started. -/
  started  : Bool := false
  /-- The bound that the last tempo boundary took over, for the tempos that start after it (02/R87). -/
  boundLatch : Nat := 32
  /-- Of the running tempo: synaptic operations, slowest point, a square without shadow sampling. -/
  sopT     : Nat := 0
  dvfsT    : Nat := 0
  shadowLost : Bool := false
  /-- A restart came since the last record was built (02/R85). -/
  afterRst : Bool := false
  recovery : Bool := false
  late     : Bool := false
  overrun  : Bool := false
  overNow  : Bool := false
  stopReq  : Bool := false
  /-- The tempo that was running at the stop (08/R276). -/
  stopT    : Nat := 0
  ran      : Nat := 0
  sinceLate : Nat := 8
  lateIn   : List (Nat × Nat) := []
  /-- Events of one input source (SRC) and group in one tempo, at (tempo × 16 + SRC − 18) × 16,384 + group. -/
  portCnt  : List (Nat × Nat) := []
  bindings : List Binding := []
  snapT    : Nat := 0
  snapV    : Bool := false
  /-- Squares whose initial copy must finish before the release. -/
  initCopy : Bool := false
  copying  : Bool := false
  rstCount : Nat := 0
  rstLast  : Nat := 0
  noSnap   : Nat := 0
  outT     : Nat := 0
  outV     : Bool := false
  restart  : Option Restart := none
  cause    : Option Cause := none
  firstDue : Bool := true
  jfull    : Bool := false
  /-- Output events gathered for the record of the running tempo (8 bytes as a number). -/
  outEvents : List Nat := []
  /-- The tempo whose record the output ledger closes; none before the first closure. -/
  outTempo : Option Nat := none
  outClosed : Bool := false
  /-- Output packets of the tempo after it, uncounted, with the square whose edge port they left by (06/R224, R493). -/
  outHeld  : List (Nat × Packet) := []
  /-- A finished tempo's header fields, waiting for its output events: lateness, busy, D_T, flags, DVFS, late inputs, SOP. -/
  pendHdr  : Option (List Nat) := none
  /-- When the last event that the running tempo awaited came, timebase ns; none before its global closure. -/
  arrival  : Option Nat := none
  /-- The number of jobs that the slot has run before this one: it tells a job's records from those of an earlier job. -/
  run      : Nat := 0
  deriving DecidableEq, Repr

/-- An entry of the input journal: 8 bytes, its job slot and tempo, and whether it has been released (09/R330, R331). A
released entry stays readable until its room is needed. -/
structure JEntry where
  slot  : Nat
  tempo : Nat
  word  : Nat
  free  : Bool := false
  deriving DecidableEq, Repr

/-- A result record that is held until delivered (02/R79, R73). -/
structure Record where
  slot  : Nat
  tempo : Nat
  bytes : List Byte
  /-- `Job.run` of the job that the record belongs to. -/
  run   : Nat := 0
  deriving DecidableEq, Repr

/-- The graph sequencer (08). -/
structure Seq where
  run     : Bool := true
  dbPend  : Nat := 0
  tasks   : List (Nat × Task) := []
  sweeps  : List Nat := []
  deriving DecidableEq, Repr

/-- The budget arbiter (08/R284 to R294). -/
structure Budget where
  slack   : Nat := 128
  didt    : Nat := 50
  limit   : Nat := 60000
  tlim    : Nat := 115
  rth     : Nat := 128
  tcpExt  : Nat := 0x80
  tcp     : Int := 0
  thot    : Int := 0
  hotSq   : Nat := 0
  avail   : Int := 0
  emNow   : Nat := 0
  emPrev  : Nat := 0
  defer   : Bool := false
  c0Over  : Bool := false
  throttle : Bool := false
  /-- Timebase when throttling began. -/
  throttleAt : Nat := 0
  hot     : List Nat := []
  trip    : Bool := false
  heatBind : Bool := false
  idleUs  : Nat := 500
  leadUs  : Nat := 200
  wakeSq  : List (Nat × Nat) := []
  wakeDom : List (Nat × Nat) := []
  winStart : Nat := 0
  winLimit : Int := 60000
  /-- Input energy of the windows before, the latest first, at most 20. -/
  hist    : List Nat := []
  /-- Compute energy by square, in this window and in the previous one. -/
  sqNow   : List (Nat × Nat) := []
  sqPrev  : List (Nat × Nat) := []
  /-- Unthrottled energy of this window. -/
  c0Now   : Nat := 0
  /-- ns of `elapsed` of the last sample above 72 W. -/
  over72  : Option Nat := none
  deriving DecidableEq, Repr

/-- An access held at a domain or a bank group until it is ON (01/R36, 12/R396): a packet in a square's memory agent, or a
register access by an initiator number. -/
structure HeldAccess where
  dom    : Nat
  group  : Option Nat
  square : Nat
  pkt    : Option Packet
  /-- A register write: initiator, address, value, 64-bit. -/
  ini    : Nat := 0
  addr   : Nat := 0
  value  : Nat := 0
  wide   : Bool := false
  read   : Bool := false
  deriving DecidableEq, Repr

/-- Half-done 64-bit accesses of one (initiator, register): the latched high word, the held low word (00/R16). -/
structure Half64 where
  latch : Option Nat := none
  low   : Option Nat := none
  deriving DecidableEq, Repr

end Sys2Proof.Machine
end

