-- ==== Sys2Proof/Machine/Hw.lean ====
section
/-! DEFINITION. The whole module but the queue of waiting commands: every register, FIFO, buffer, counter, mode and pin. -/

namespace Sys2Proof.Machine

/-- The answer to the last register or memory access that a command made: its value and its status code (00/R19). -/
structure BusAnswer where
  value  : Nat := 0
  status : Nat := 0
  deriving DecidableEq, Repr

/-- The global RT block (06/T6-15 to T6-18). -/
structure RtGlobal where
  moduleId : Nat := 0
  cur      : Nat := 0
  oldBusy  : Bool := false
  armed    : Bool := false
  wait     : Bool := false
  flipAt   : Nat := 0
  tree     : List (Nat × Nat) := []
  /-- The input port at which the tie order of the routers starts in this cycle (06/R201). -/
  tie      : Nat := 0
  deriving DecidableEq, Repr

/-- Memory and what the banks keep beside it (12). -/
structure Banks where
  /-- Bytes that differ from zero, by local address; the core state of slot p lies at window + 0x200_0000 + 0x8_0000 × p. -/
  mem      : List Host.Cell := []
  /-- Poisoned 64-bit words, by address / 8. -/
  poison   : List Nat := []
  /-- Words that their bank hands over with bad path parity, by address / 8, until a unit has found one (09/R306). -/
  path     : List Nat := []
  /-- Timebase of recent corrected reads, by row. -/
  corr     : List (Nat × List Nat) := []
  soft     : List SoftRepair := []
  /-- Spare rows used, by bank. -/
  spare    : List (Nat × Nat) := []
  deriving DecidableEq, Repr

/-- The registers that hold W1C bits, by unit, and SEQ_RING, whose bits are W1S (00/R15). -/
inductive W1c where
  | tempo (j : Nat) | core (s p : Nat) | rule (s p : Nat) | inbox (s : Nat) | queue (s l i : Nat) | send (s l c : Nat)
  | cp (s l : Nat) | faults (s : Nat) | link (n : Nat) | retrain (n : Nat) | dma (c : Nat) | dbPend | ring | budget | sticky1 | sticky2
  | eoi (t : Nat) | badDb | again (n : Nat) | tc (n : Nat) | tioLatch | timebase | psc (k : Nat) | ready | supply | csi (n : Nat)
  deriving DecidableEq, Repr

/-- The module. -/
structure Hw where
  /-- Model's own: ns since power-on, advanced by idle steps (log 2). -/
  elapsed  : Nat := 0
  /-- Model's own: number of the next free value (log 3). -/
  fresh    : Nat := 0
  bus      : BusAnswer := {}
  /-- W1C bits that hardware has set in the present ns, by register: a write of 1 in the same cycle leaves them set. And doorbells
  rung in it that were pending already: hardware that takes one in the same cycle leaves it pending (00/R15). -/
  risen    : List (W1c × Nat) := []
  half     : List (Nat × Half64) := []
  supply   : Supply := {}
  bring    : BringUp := {}
  fuses    : Fuses := {}
  sec      : Security := {}
  fw       : Firmware := {}
  banks    : Banks := {}
  psc      : Psram := {}
  kz       : Kezil := {}
  irc      : Irc := {}
  tc       : List (Nat × Tc) := []
  tio      : Tio := {}
  tb       : Timebase := {}
  power    : Power := {}
  sq       : List (Nat × Square) := []
  slot     : List (Nat × Slot) := []
  core     : List (Nat × LCore) := []
  link     : List (Nat × Link) := []
  fitCrc   : Nat := 16
  fitLane  : Nat := 64
  rt       : RtGlobal := {}
  ol       : List (Nat × OlSlot) := []
  dma      : List (Nat × Dma) := []
  dmaTmo   : Nat := 100000
  seq      : Seq := {}
  jobs     : List (Nat × Job) := []
  bud      : Budget := {}
  journal  : List JEntry := []
  results  : List Record := []
  flt      : Flt := {}
  csi      : List (Nat × CsiPort) := []
  heldAcc  : List HeldAccess := []
  deriving DecidableEq, Repr

end Sys2Proof.Machine
end

