-- ==== Sys2Proof/Machine/Ops.lean ====
section
/-! DEFINITION. Named operations over the state that every family shares: accessors, memory, CRCs, power-domain tests,
wakes, interrupt signals, notifications and fault records. -/

namespace Sys2Proof.Machine

/-! ### Accessors. -/

def Hw.sqOf (hw : Hw) (s : Nat) : Square := mget {} hw.sq s
def Hw.modSq (hw : Hw) (s : Nat) (f : Square → Square) : Hw := { hw with sq := mupd {} hw.sq s f }

/-- Router of a square. -/
def Hw.rtOf (hw : Hw) (s : Nat) : Router := (hw.sqOf s).rt
def Hw.modRt (hw : Hw) (s : Nat) (f : Router → Router) : Hw := hw.modSq s fun q => { q with rt := f q.rt }

/-- Fault block of a square. -/
def Hw.modFlt (hw : Hw) (s : Nat) (f : SqFault → SqFault) : Hw := hw.modSq s fun q => { q with flt := f q.flt }

/-- Physical slot p of square s. -/
def Hw.slotOf (hw : Hw) (s p : Nat) : Slot := mget {} hw.slot (s * 19 + p)
def Hw.modSlot (hw : Hw) (s p : Nat) (f : Slot → Slot) : Hw := { hw with slot := mupd {} hw.slot (s * 19 + p) f }

/-- Queues and program of logical core L of square s. -/
def Hw.coreOf (hw : Hw) (s l : Nat) : LCore := mget {} hw.core (s * 18 + l)
def Hw.modCore (hw : Hw) (s l : Nat) (f : LCore → LCore) : Hw := { hw with core := mupd {} hw.core (s * 18 + l) f }

def LCore.queueOf (c : LCore) (q : Nat) : Queue := mget {} c.queue q
def LCore.sendOf (c : LCore) (k : Nat) : SendCh := mget {} c.send k

def Hw.queueOf (hw : Hw) (s l q : Nat) : Queue := (hw.coreOf s l).queueOf q
def Hw.modQueue (hw : Hw) (s l q : Nat) (f : Queue → Queue) : Hw :=
  hw.modCore s l fun c => { c with queue := mupd {} c.queue q f }
def Hw.sendOf (hw : Hw) (s l c : Nat) : SendCh := (hw.coreOf s l).sendOf c
def Hw.modSend (hw : Hw) (s l c : Nat) (f : SendCh → SendCh) : Hw :=
  hw.modCore s l fun k => { k with send := mupd {} k.send c f }
def Hw.cpOf (hw : Hw) (s l : Nat) : Prog := (hw.coreOf s l).cp
def Hw.modCp (hw : Hw) (s l : Nat) (f : Prog → Prog) : Hw := hw.modCore s l fun c => { c with cp := f c.cp }

def Hw.jobOf (hw : Hw) (j : Nat) : Job := mget {} hw.jobs j
def Hw.modJob (hw : Hw) (j : Nat) (f : Job → Job) : Hw := { hw with jobs := mupd {} hw.jobs j f }

/-- A stop of an open-ended job: the tempo that is running now is its last (08/R276). -/
def Job.stopNow (k : Job) : Job := if k.stopReq then k else { k with stopReq := true, stopT := k.tempo }

def Hw.linkOf (hw : Hw) (n : Nat) : Link := mget {} hw.link n
def Hw.modLink (hw : Hw) (n : Nat) (f : Link → Link) : Hw := { hw with link := mupd {} hw.link n f }

def Hw.dmaOf (hw : Hw) (c : Nat) : Dma := mget {} hw.dma c
def Hw.modDma (hw : Hw) (c : Nat) (f : Dma → Dma) : Hw := { hw with dma := mupd {} hw.dma c f }

def Hw.tcOf (hw : Hw) (n : Nat) : Tc := mget {} hw.tc n
def Hw.modTc (hw : Hw) (n : Nat) (f : Tc → Tc) : Hw := { hw with tc := mupd {} hw.tc n f }

def Hw.csiOf (hw : Hw) (n : Nat) : CsiPort := mget {} hw.csi n
def Hw.modCsi (hw : Hw) (n : Nat) (f : CsiPort → CsiPort) : Hw := { hw with csi := mupd {} hw.csi n f }

def Hw.domOf (hw : Hw) (d : Nat) : Domain := mget {} hw.power.dom d
def Hw.modDom (hw : Hw) (d : Nat) (f : Domain → Domain) : Hw :=
  { hw with power := { hw.power with dom := mupd {} hw.power.dom d f } }

def Hw.srcOf (hw : Hw) (n : Nat) : IrcSrc := mget {} hw.irc.src n
def Hw.modSrc (hw : Hw) (n : Nat) (f : IrcSrc → IrcSrc) : Hw :=
  { hw with irc := { hw.irc with src := mupd {} hw.irc.src n f } }
def Hw.grpOf (hw : Hw) (g : Nat) : IrcGrp := mget {} hw.irc.grp g
def Hw.modGrp (hw : Hw) (g : Nat) (f : IrcGrp → IrcGrp) : Hw :=
  { hw with irc := { hw.irc with grp := mupd {} hw.irc.grp g f } }

def Hw.chanOf (hw : Hw) (k : Nat) : PscChan := mget {} hw.psc.chan k
def Hw.modChan (hw : Hw) (k : Nat) (f : PscChan → PscChan) : Hw :=
  { hw with psc := { hw.psc with chan := mupd {} hw.psc.chan k f } }

def Hw.taskOf (hw : Hw) (t : Nat) : Option Task := mfind hw.seq.tasks t
def Hw.modTask (hw : Hw) (t : Nat) (f : Task → Task) : Hw :=
  match hw.taskOf t with
  | some k => { hw with seq := { hw.seq with tasks := mset hw.seq.tasks t (f k) } }
  | none => hw

/-- The port of the Kezil engine: false A, true B. -/
def Hw.portOf (hw : Hw) (p : Bool) : Port := if p then hw.kz.portB else hw.kz.portA
def Hw.modPort (hw : Hw) (p : Bool) (f : Port → Port) : Hw :=
  if p then { hw with kz := { hw.kz with portB := f hw.kz.portB } }
  else { hw with kz := { hw.kz with portA := f hw.kz.portA } }

/-- Record the answer to an access: its value and status. -/
def Hw.answer (hw : Hw) (value status : Nat) : Hw := { hw with bus := ⟨value, status⟩ }

/-! ### Status codes (10/T10-18). -/

def stOK : Nat := 0x00
def stFULL : Nat := 0x10
def stCLOSED : Nat := 0x11
def stSTALE : Nat := 0x12
def stTIMEOUT : Nat := 0x13
def stABSENT : Nat := 0x14
def stFENCED : Nat := 0x15
def stPARITY : Nat := 0x20
def stRESIDUE : Nat := 0x21
def stSKEW : Nat := 0x22
def stCLOSEMM : Nat := 0x23
def stOVERFLOW : Nat := 0x24
def stECC : Nat := 0x25
def stLATE : Nat := 0x30
def stDEFER : Nat := 0x31
def stSTALL : Nat := 0x32
def stAUTH : Nat := 0x40
def stLIFECYCLE : Nat := 0x41
def stBADOP : Nat := 0x50
def stBADPARAM : Nat := 0x51
def stNOTOWNER : Nat := 0x52
def stBUSY : Nat := 0x53

/-- The listed codes but OK (10/T10-18). -/
def failCodes : List Nat := [
  stFULL, stCLOSED, stSTALE, stTIMEOUT, stABSENT, stFENCED, stPARITY, stRESIDUE, stSKEW, stCLOSEMM, stOVERFLOW, stECC, stLATE,
  stDEFER, stSTALL, stAUTH, stLIFECYCLE, stBADOP, stBADPARAM, stNOTOWNER, stBUSY]

/-- A status that the spec leaves open: some listed code but OK, since the module reports no other (10/R367). -/
def freeCode (n : Nat) : Nat := failCodes.getD (Config.freeValue n % failCodes.length) stBUSY

/-! ### W1C bits (00/R15). -/

/-- Hardware sets the W1C bits `m` of a register in this cycle. -/
def Hw.rise (hw : Hw) (w : W1c) (m : Nat) : Hw := { hw with risen := if m = 0 then hw.risen else (w, m) :: hw.risen }

/-- The W1C bits of a register that hardware has set in this cycle. -/
def Hw.rose (hw : Hw) (w : W1c) : Nat := (hw.risen.filter fun x => x.1 == w).foldl (fun a x => a ||| x.2) 0

/-- The bits that a write of `v` to a register clears: a bit that hardware sets in the cycle of the write ends set (00/R15). A cycle of
the model is what happens between two idle times, and TRIP_CLEAR and STICKY_CLEAR clear as writes do (DEDUCED, log 209). -/
def Hw.clears (hw : Hw) (w : W1c) (v : Nat) : Nat := v - (v &&& hw.rose w)

/-! ### Memory. -/

/-- The byte at an address; a byte that no entry lists reads zero (12/R406; before the wipe, log 4). -/
def memRead : List Host.Cell → Nat → Byte
  | [], _ => 0
  | (k, v) :: r, a => if a = k then v else if a < k then 0 else memRead r a

/-- Write a byte, keeping the addresses rising and listing no zero byte. -/
def memWrite : List Host.Cell → Nat → Byte → List Host.Cell
  | [], a, b => if b = 0 then [] else [(a, b)]
  | (k, v) :: r, a, b =>
    if a = k then (if b = 0 then r else (a, b) :: r)
    else if a < k then (if b = 0 then (k, v) :: r else (a, b) :: (k, v) :: r)
    else (k, v) :: memWrite r a b

/-- The canonical form of memory: addresses strictly rising from `lo` on, no listed byte zero. -/
def memWfFrom : Nat → List Host.Cell → Bool
  | _, [] => true
  | lo, (k, v) :: r => decide (lo ≤ k) && (v != 0) && memWfFrom (k + 1) r

/-- The canonical form of memory. -/
def Memory.wf (m : List Host.Cell) : Bool := memWfFrom 0 m

/-- `n` bytes from an address upward. -/
def memReadN (m : List Host.Cell) (a : Nat) : Nat → List Byte
  | 0 => []
  | n + 1 => memRead m a :: memReadN m (a + 1) n

/-- Write bytes from an address upward. -/
def memWriteN (m : List Host.Cell) : Nat → List Byte → List Host.Cell
  | _, [] => m
  | a, b :: r => memWriteN (memWrite m a b) (a + 1) r

/-- Set every byte of `[a, a + n)` to zero: no entry of the range stays. -/
def memClear (m : List Host.Cell) (a n : Nat) : List Host.Cell := m.filter fun c => decide (c.1 < a ∨ a + n ≤ c.1)

def Hw.rd (hw : Hw) (a n : Nat) : List Byte := memReadN hw.banks.mem a n
def Hw.rdN (hw : Hw) (a n : Nat) : Nat := ofLe (hw.rd a n)
def Hw.wr (hw : Hw) (a : Nat) (bs : List Byte) : Hw :=
  { hw with banks := { hw.banks with mem := memWriteN hw.banks.mem a bs } }

/-- The words of a list that do not lie in `[a, a + n)`. -/
def outside (l : List Nat) (a n : Nat) : List Nat := l.filter fun w => decide (w * 8 < a ∨ a + n ≤ w * 8)

/-- Wipe `[a, a + n)`: zeros with valid check bits, poison cleared (12/R406). -/
def Hw.wipe (hw : Hw) (a n : Nat) : Hw :=
  { hw with banks := { hw.banks with
      mem := memClear hw.banks.mem a n
      poison := outside hw.banks.poison a n, path := outside hw.banks.path a n } }

/-- Every byte is zero. -/
def allZero (l : List Byte) : Bool := l.all (· == 0)

/-- Whether a word that overlaps `[a, a + n)` is poisoned (12/R404). -/
def Hw.hasPoison (hw : Hw) (a n : Nat) : Bool :=
  hw.banks.poison.any fun w => decide (w * 8 < a + n ∧ a < w * 8 + 8)

/-- Whether a word that overlaps `[a, a + n)` cannot be used: it is poisoned, or its path parity fails (09/R306, R307, 12/R404). -/
def Hw.poisoned (hw : Hw) (a n : Nat) : Bool :=
  hw.hasPoison a n || hw.banks.path.any fun w => decide (w * 8 < a + n ∧ a < w * 8 + 8)

/-- Clear the poison of the whole words of `[a, a + n)`; `a` and `n` are multiples of 8 (12/R401). -/
def Hw.unpoison (hw : Hw) (a n : Nat) : Hw :=
  { hw with banks := { hw.banks with poison := outside hw.banks.poison a n, path := outside hw.banks.path a n } }

/-- Write whole words: the address and the length are multiples of 8. It reads nothing, and clears poison (12/R401). -/
def Hw.wrWhole (hw : Hw) (a : Nat) (bs : List Byte) : Hw := (hw.wr a bs).unpoison a bs.length

/-- The base of a square window (00/R8). -/
def winBase (s : Nat) : Nat := s * 0x4000000

/-- Square memory of a square, synapse tier, Mirror tier, and the core state of a physical slot (01/T1-8). -/
def sqMem (s : Nat) : Nat := winBase s + 0x3000000
def synTier (s : Nat) : Nat := winBase s
def mirTier (s : Nat) : Nat := winBase s + 0x1000000
def slotState (s p : Nat) : Nat := winBase s + 0x2000000 + 0x80000 * p

/-! ### CRCs. -/

/-- One bit of the reflected CRC-32 (02/R81). -/
def crc32Bit (c : Nat) : Nat := if c % 2 = 1 then (c / 2) ^^^ 0xEDB88320 else c / 2

def crc32Byte (c : Nat) (b : Byte) : Nat :=
  let x := c ^^^ b.toNat
  crc32Bit (crc32Bit (crc32Bit (crc32Bit (crc32Bit (crc32Bit (crc32Bit (crc32Bit x)))))))

/-- The CRC-32 of 02/R81. -/
def crc32 (l : List Byte) : Nat := (l.foldl crc32Byte 0xFFFFFFFF) ^^^ 0xFFFFFFFF

def crc16Bit (c : Nat) : Nat := if c.testBit 15 then ((c * 2) % 65536) ^^^ 0x1021 else (c * 2) % 65536

def crc16Byte (c : Nat) (b : Byte) : Nat :=
  let x := c ^^^ (b.toNat * 256)
  crc16Bit (crc16Bit (crc16Bit (crc16Bit (crc16Bit (crc16Bit (crc16Bit (crc16Bit x)))))))

/-- The CRC-16 of 10/R346. -/
def crc16 (l : List Byte) : Nat := l.foldl crc16Byte 0xFFFF

/-! ### Power domains and wakes. -/

/-- A domain is ON and not in transition. -/
def Hw.isOn (hw : Hw) (d : Nat) : Bool := (hw.domOf d).state == .on && (hw.domOf d).moving == none

/-- Numbers of the domains (08/T8-8). -/
def domCtrl : Nat := 88
def domHub : Nat := 89
def domTb : Nat := 90
def domPsc (pair : Nat) : Nat := 64 + pair
def domLink (n : Nat) : Nat := 72 + n
def domCsi (n : Nat) : Nat := 78 + n
def domUsb (p : Bool) : Nat := if p then 87 else 86

/-- A transition of the domain waits to begin. -/
def waitsFor (l : List Transition) (d : Nat) : Bool :=
  l.any fun t => match t with | .domain e _ => e == d | .dvfs _ _ _ => false

/-- The waiting transitions without those of a domain. -/
def dropWait (l : List Transition) (d : Nat) : List Transition :=
  l.filter fun t => match t with | .domain e _ => e != d | .dvfs _ _ _ => true

/-- Request a transition of a domain; it begins under 08/R303, in the order of the requests: a request for what is waiting
already keeps its place, and one for another state takes the place at the end. -/
def Hw.askDomain (hw : Hw) (d : Nat) (t : PwrState) : Hw :=
  if hw.power.waiting.contains (.domain d t) then hw
  else { hw with power := { hw.power with waiting := dropWait hw.power.waiting d ++ [.domain d t] } }

/-- A wake reaches a domain (08/R300): it is latched during an entry, cancels an entry that has not begun, and takes a
domain in RETAIN or OFF to ON. A fused-off square's domain stays as it is (08/R297). -/
def Hw.wakeDom (hw : Hw) (d : Nat) : Hw :=
  if d < 64 ∧ (hw.sqOf d).fused then hw
  else
    let k := hw.domOf d
    let hw := hw.modDom d fun k => { k with held := none, wokeAt := some hw.elapsed }
    match k.moving with
    | some .on => hw
    | some _ => hw.modDom d fun k => { k with wake := true }
    | none =>
      if k.state = .on then { hw with power := { hw.power with waiting := dropWait hw.power.waiting d } }
      else hw.askDomain d .on

/-- Wake every domain that BUD_WAKE_SQk and BUD_WAKE_DOMk name (08/R298). -/
def Hw.wakeSet (hw : Hw) (k : Nat) : Hw :=
  let sqs := ofMask 64 (mget 0 hw.bud.wakeSq k)
  let doms := (ofMask 27 (mget 0x3000000 hw.bud.wakeDom k)).map (64 + ·)
  forAll (sqs ++ doms) (fun d h => h.wakeDom d) hw

/-- Use of a domain, for the idle policy of 08/R296. -/
def Hw.touchDom (hw : Hw) (d : Nat) : Hw := hw.modDom d fun k => { k with lastUse := hw.elapsed }

/-! ### Interrupt signals (11/R370, R371, R377). -/

/-- A doorbell write for a source is accepted while the control complex is ON: it becomes pending, or AGAIN is set. -/
def Hw.pendSrc (hw : Hw) (n : Nat) : Hw :=
  (hw.modSrc n fun s => if s.pend then { s with again := true } else { s with pend := true }).rise (.again n)
    (if (hw.srcOf n).pend then 2 ^ 7 else 0)

/-- A unit signals source n. While the control complex is not ON, the signal is latched in AON and may wake it. -/
def Hw.irq (hw : Hw) (n : Nat) : Hw :=
  if hw.isOn domCtrl then hw.pendSrc n
  else
    let hw' := { hw with irc := { hw.irc with latch := sins hw.irc.latch n } }
    if (hw.grpOf (n / 16)).wake then hw'.wakeDom domCtrl else hw'

/-! ### Notifications (10/R362, R344). -/

/-- Queue a notification on one port, or drop and count it. One that becomes pending on a suspended port signals remote wake where
the host has enabled it (10/R344). -/
def Hw.notePort (hw : Hw) (p : Bool) (n : Note) : Hw :=
  hw.modPort p fun q =>
    if q.notes.length < 256 then { q with notes := q.notes ++ [n], waking := q.waking || (q.suspended && q.remoteWake) }
    else { q with lost := satAdd 255 q.lost 1 }

def Hw.noteBoth (hw : Hw) (n : Note) : Hw := (hw.notePort false n).notePort true n

/-- On the owner port, or on both when no port owns (10/R362). -/
def Hw.noteOwner (hw : Hw) (n : Note) : Hw :=
  match hw.kz.owner with
  | some p => hw.notePort p n
  | none => hw.noteBoth n

/-! ### Fault records (09/R340 to R342). -/

/-- What a fault record says. -/
structure FaultInfo where
  det    : Nat
  status : Nat := 0
  action : Nat := 0
  job    : Option Nat := none
  sq     : Option Nat := none
  core   : Nat := 31
  slot   : Nat := 31
  detail : Nat := 0
  /-- The link port to which detector 0x02 is charged. -/
  link   : Option Nat := none
  /-- 09/R315 found the fault permanent. -/
  perm   : Bool := false
  /-- The fault was counted against its unit before: one fault of a router or link restarts several jobs. -/
  charged : Bool := false
  /-- An uncorrectable read that its bank repairs; a poisoned word is charged to none (12/R404). -/
  bank   : Bool := false
  /-- The DETECTOR byte where the spec names none (log 28). -/
  shown  : Option Nat := none
  /-- The unit outside the squares whose SRAM it concerns: a unit of `Banks.soft` from 64 on, and for 67 the group. -/
  unit   : Option (Nat × Nat) := none
  deriving DecidableEq, Repr

/-- The 32 bytes of a fault record (09/T9-8). -/
def faultBytes (hw : Hw) (f : FaultInfo) : List Byte :=
  let j := f.job.getD 0
  leBytes 4 hw.flt.nextSeq
  ++ leBytes 1 f.status ++ leBytes 1 (f.shown.getD f.det) ++ leBytes 1 f.action
  ++ leBytes 1 (hw.rt.moduleId + 16 * j + (if f.job.isSome then 64 else 0))
  ++ leBytes 8 hw.tb.now
  ++ leBytes 6 (if f.job.isSome then (hw.jobOf j).tempo else 0)
  ++ leBytes 1 (match f.sq with | some s => s + 64 | none => 0)
  ++ leBytes 1 f.core ++ leBytes 1 f.slot
  ++ leBytes 1 (satAdd 255 (if f.job.isSome then (hw.jobOf j).rstCount else 0) 0)
  ++ leBytes 2 0 ++ leBytes 4 f.detail

/-- The bits of SQF_STICKY that a record of the square sets (09/T9-12). -/
def stickySq (f : FaultInfo) : Nat :=
  let slotBit := if f.slot < 19 then 2 ^ f.slot else 0
  if f.det = 0x01 then 2 ^ 19 ||| 2 ^ 24
  else if f.det = 0x02 ∨ f.det = 0x03 then 2 ^ 24
  else if f.det = 0x04 then 2 ^ 24 ||| slotBit ||| (if f.slot < 19 ∨ f.bank then 0 else 2 ^ 19)
  else if f.det = 0x05 then 2 ^ 22
  else if f.det = 0x06 then 2 ^ 23
  else if f.det = 0x07 ∨ f.det = 0x08 ∨ f.det = 0x09 ∨ f.det = 0x18 then slotBit
  else if f.det = 0x0A then 2 ^ 21
  else if f.det = 0x0F then 2 ^ 20
  else 0

/-- The sticky bits of a unit outside the squares: the I/O hub (64) and the control complex (65) in FLT_STICKY2, and for any other
unit (67) by its group (log 187): a link port, a CSI-2 port, a USB port or the timebase (09/T9-17, T9-18). -/
def unitBits (u g : Nat) : Nat × Nat :=
  if u = 64 then (0, 2) else if u = 65 then (0, 1)
  else if u ≠ 67 then (0, 0)
  else if g < 6 then (2 ^ g, 0) else if g < 16 then (2 ^ (16 + g), 0)
  else if g = 16 then (0, 4) else (0, 0)

/-- The bits of FLT_STICKY1 and FLT_STICKY2 that a record sets (09/R342, T9-17, T9-18): the link port that a fault is charged
to, and the unit outside the squares whose SRAM it concerns. -/
def stickyOut (f : FaultInfo) : Nat × Nat :=
  if f.det = 0x0E then (2 ^ f.detail, 0)
  else if f.det = 0x02 then ((match f.link with | some n => 2 ^ n | none => 0), 0)
  else if f.det = 0x04 ∨ f.det = 0x05 ∨ f.det = 0x06 then (match f.unit with | some x => unitBits x.1 x.2 | none => (0, 0))
  else if f.det = 0x11 then (0, 8)
  else if f.det = 0x12 then (0, 16)
  else if f.det = 0x19 then (0, 32)
  else (0, 0)

/-- Put one record into the ring, the newest last. -/
def Hw.ringPush (hw : Hw) (b : List Byte) : Hw :=
  let r := hw.flt.ring ++ [b]
  { hw with flt := { hw.flt with
      ring := r.drop (r.length - 256)
      ringPos := (hw.flt.ringPos + 1) % 256 } }

def Hw.stick1 (hw : Hw) (m : Nat) : Hw := ({ hw with flt := { hw.flt with sticky1 := hw.flt.sticky1 ||| m } } : Hw).rise .sticky1 m
def Hw.stick2 (hw : Hw) (m : Nat) : Hw := ({ hw with flt := { hw.flt with sticky2 := hw.flt.sticky2 ||| m } } : Hw).rise .sticky2 m

/-- A fault record is written (09/R340): to the ring, or to the FLT buffer while the control complex is not ON; the sticky
bits of its unit are set, sources 224 and 32 + s are signalled and the FAULT notification is sent (10/T10-7). One that the full
buffer drops is not written: source 225 is signalled in place of 224, and no notification is sent (09/R341). -/
def Hw.faultRecord (hw : Hw) (f : FaultInfo) : Hw :=
  let b := faultBytes hw f
  let seq := hw.flt.nextSeq
  let hw := { hw with flt := { hw.flt with nextSeq := (seq + 1) % 2 ^ 32 } }
  let written := hw.isOn domCtrl || decide (hw.flt.buffer.length < 16)
  let hw := if hw.isOn domCtrl then hw.ringPush b
            else if hw.flt.buffer.length < 16 then { hw with flt := { hw.flt with buffer := hw.flt.buffer ++ [b] } }
            else ({ hw with flt := { hw.flt with lost := satAdd 0xFFFF hw.flt.lost 1 } }).irq 225
  let hw := match f.sq with
    | some s => ((hw.modFlt s fun q => { q with sticky := q.sticky ||| stickySq f }).rise (.faults s) (stickySq f)).irq (32 + s)
    | none => hw
  let hw := (hw.stick1 (stickyOut f).1).stick2 (stickyOut f).2
  if written then
    (hw.irq 224).noteBoth ⟨0x01, f.status, f.job.getD 0xFFFF, hw.tb.now, seq, (b.drop 4).take 4 ++ (b.drop 16).take 12⟩
  else hw

/-! ### Small questions that many families ask. -/

/-- The job slot that runs on a square, if any. -/
def Hw.jobOfSq (hw : Hw) (s : Nat) : Option Nat :=
  firstOf [0, 1, 2, 3] fun j => (hw.jobOf j).active && (hw.jobOf j).mask.testBit s

def Hw.anyJob (hw : Hw) : Bool := [0, 1, 2, 3].any fun j => (hw.jobOf j).active

/-- The squares of a job, in ascending order. -/
def Hw.jobSqs (hw : Hw) (j : Nat) : List Nat := ofMask 64 (hw.jobOf j).mask

/-- The running job with a JOB_ID. -/
def Hw.jobById (hw : Hw) (id : Nat) : Option Nat :=
  firstOf [0, 1, 2, 3] fun j => (hw.jobOf j).active && (hw.jobOf j).jobId == id

/-- Physical slot of a logical core, 31 when absent (01/R22 to R24). -/
def Square.slotFor (q : Square) (l : Nat) : Nat := mget (if l < 16 then l else 31) q.lmap l

/-- Logical core that a physical slot carries, if any. -/
def Square.coreFor (q : Square) (p : Nat) : Option Nat := firstOf (List.range 18) fun l => q.slotFor l == p

/-- CORE_ID.ROLE of a slot (03/T3-14): 0 carries a logical number, 1 unused reserve, 2 shadow, 3 fenced. -/
def Square.role (q : Square) (p : Nat) : Nat :=
  if q.slotFence.contains p then 3
  else if (q.coreFor p).isSome then 0
  else if p = q.shadow then 2 else 1

/-- A slot whose neuron-state group the arbiter holds in RETAIN (12/R397). -/
def Square.idleSlot (q : Square) (p : Nat) : Bool := decide (p < 19) && (q.role p == 1 || q.role p == 3)

/-- A bank group of a square: the arbiter holds the neuron state of unused and fenced slots in RETAIN, unless a request set it
ON (12/R397). -/
def Square.bankOf (q : Square) (g : Nat) : BankGroup :=
  let b : BankGroup := mget {} q.banks g
  if q.idleSlot g && !b.reqOn && b.state == .on && b.moving == none then { b with state := .retain } else b

def Square.setBank (q : Square) (g : Nat) (f : BankGroup → BankGroup) : Square :=
  { q with banks := mset q.banks g (f (q.bankOf g)) }

def BankGroup.isOn (b : BankGroup) : Bool := b.state == .on && b.moving == none

/-- A bank group is OFF, and stays so. -/
def BankGroup.isOff (b : BankGroup) : Bool := b.state == .off && b.moving == none

/-- The bank groups of `gs` that are in RETAIN, or on their way from one state to another. -/
def Square.asleep (q : Square) (gs : List Nat) : List Nat :=
  gs.filter fun g => !((q.bankOf g).isOn || (q.bankOf g).isOff)

/-- Square memory is OFF: an access of the core port answers ABSENT (12/R396). -/
def Hw.memOff (hw : Hw) (s : Nat) : Bool := ((hw.sqOf s).bankOf 19).isOff

/-- The clocks of a square run: its domain is ON and throttling does not gate it (08/R287). -/
def Hw.works (hw : Hw) (s : Nat) : Bool := hw.isOn s && !(hw.sqOf s).gated

/-- Logical cores that are present. -/
def Square.cores (q : Square) : List Nat := (List.range 18).filter fun l => q.slotFor l < 19

/-- A logical core's table and counter state. -/
def Hw.lslot (hw : Hw) (s l : Nat) : Slot :=
  if (hw.sqOf s).slotFor l < 19 then hw.slotOf s ((hw.sqOf s).slotFor l) else {}
def Hw.modL (hw : Hw) (s l : Nat) (f : Slot → Slot) : Hw :=
  if (hw.sqOf s).slotFor l < 19 then hw.modSlot s ((hw.sqOf s).slotFor l) f else hw

/-- Address of the state record of neuron N of logical core L (01/T1-8). -/
def Hw.recAddr (hw : Hw) (s l n : Nat) : Nat := slotState s ((hw.sqOf s).slotFor l) + 32 * n

/-- A controller program stops on an error (07/R253, R254, T7-15). -/
def Hw.cpError (hw : Hw) (s l code : Nat) : Hw :=
  ((hw.modCp s l fun p => { p with run := false, wait := none, err := true, errCode := code }).rise (.cp s l) (2 ^ 10)).irq (96 + s)

/-- Whether a square is present and not fenced. -/
def Square.usable (q : Square) : Bool := !q.fused && !q.fenced

/-- Life-cycle codes (10 "Opcodes", 13/R430). -/
def Fuses.lc (f : Fuses) : Nat :=
  let n := popCount 64 f.lcCount.toNat
  if f.retired ≠ 0 then 4 else if n = 0 then 0 else if n = 1 then 1 else if n % 2 = 0 then 2 else 3

/-- S8 is reached (13/R420). -/
def Hw.ready (hw : Hw) : Bool := hw.bring.last == 8

/-! ### Ways out of the module (01/T1-4, 06/R202). -/

/-- The link port behind the square's edge port (01/T1-4). -/
def edgeLink (s : Nat) : Option Nat :=
  if 8 ≤ s ∧ s < 56 then
    if s % 8 = 0 then some ((s / 8 - 1) / 2) else if s % 8 = 7 then some (3 + (s / 8 - 1) / 2) else none
  else none

/-- The attachment squares of a port, the lower first (01/T1-4). -/
def portSquares (n : Nat) : List Nat := (List.range 64).filter fun s => edgeLink s == some n

/-- A module route entry (06/R202). -/
def Hw.modEntry (hw : Hw) (s ver m : Nat) : Nat := mget 0 (hw.rtOf s).modRoute (16 * ver + m)

/-- Link ports that the tables in force name for packets to a module: a port whose attachment router has EDGE in SET or ALT of
its entry for the module (DEDUCED, log 185). -/
def Hw.linksTo (hw : Hw) (m : Nat) : List Nat :=
  (List.range 6).filter fun n => (portSquares n).any fun s =>
    let v := hw.modEntry s hw.rt.cur m
    v.testBit 4 || v.testBit 9

end Sys2Proof.Machine
end

