-- ==== Sys2Proof/Machine/DmaBase.lean ====
section
/-! DEFINITION. Starting and stopping the chain of a DMA channel (07/R256, Table 7-21). -/

namespace Sys2Proof.Machine

/-- Start a chain on a channel. -/
def Hw.dmaStart (hw : Hw) (c : Nat) (task : Option Nat) : Hw :=
  hw.modDma c fun k => { k with run := true, stop := false, cur := k.desc, d := none, reads := [], kmode := 0, kezil := none, task := task }

/-- START of DMA_CTLc (07/R256, T7-21): refused while the chain runs, or on a channel of the sequencer's side. -/
def Hw.dmaCtlStart (hw : Hw) (c : Nat) : Hw × Nat :=
  if 12 ≤ c ∨ (hw.dmaOf c).run then (hw, stBUSY) else (hw.dmaStart c none, stOK)

/-- STOP of DMA_CTLc (07/R256, T7-21). -/
def Hw.dmaCtlStop (hw : Hw) (c : Nat) : Hw × Nat :=
  if 12 ≤ c then (hw, stBUSY) else (hw.modDma c fun k => { k with stop := k.run }, stOK)

/-- DMA_STATUSc (07/T7-22). -/
def Dma.status (k : Dma) : Nat := b2n k.run + 2 * b2n k.done + 4 * b2n k.err + k.code % 256 * 256

end Sys2Proof.Machine
end

