-- ==== Sys2Proof/Machine/KzReply.lean ====
section
/-! DEFINITION. Replies and completions of the Kezil engine, which other families cause when a chain, a task or a firmware
activation ends (10/R347, R350, Table 10-7). -/

namespace Sys2Proof.Machine

/-- The bytes of a reply (10/T10-3). Data goes out only as given here; it is followed by its CRC-32. -/
def replyBytes (opcode tag : Nat) (async : Bool) (status detail : Nat) (data : List Byte) : List Byte :=
  let h := leBytes 2 0x4B5A ++ leBytes 1 1 ++ leBytes 1 (128 + b2n async) ++ leBytes 2 opcode ++ leBytes 2 tag
    ++ leBytes 4 data.length ++ leBytes 1 status ++ leBytes 1 detail
  h ++ leBytes 2 (crc16 h) ++ data ++ (if data = [] then [] else leBytes 4 (crc32 data))

/-- Queue a reply on a port (10/R347, R349). -/
def Hw.reply (hw : Hw) (p : Bool) (c : Cmd) (status detail : Nat) (data : List Byte) : Hw :=
  hw.modPort p fun q => { q with replies := q.replies ++ [replyBytes c.opcode c.tag c.async status detail data] }

/-- The COMPLETE notification of an asynchronous command (10/R350). -/
def Hw.complete (hw : Hw) (p : Bool) (c : Cmd) (status : Nat) : Hw :=
  hw.notePort p ⟨8, status, c.tag, hw.tb.now, c.opcode, []⟩

/-- What a command waits for has ended: the command in progress of a port gets its reply, and every asynchronous one its
COMPLETE notification. -/
def Hw.waitOver (hw : Hw) (w : KWait) (status : Nat) (data : List Byte) : Hw :=
  let one : Bool → Hw → Hw := fun p h =>
    match (h.portOf p).current with
    | some (c, w') =>
      if w' = w then (h.reply p c status 0 data).modPort p fun q => { q with current := none } else h
    | none => h
  let hw := one true (one false hw)
  let finished := hw.kz.running.filter fun r => r.wait == w
  let hw := { hw with kz := { hw.kz with running := hw.kz.running.filter fun r => r.wait != w } }
  finished.foldl (fun h r => h.complete r.port r.cmd status) hw

end Sys2Proof.Machine
end

