-- ==== Sys2Proof/Machine/Banks.lean ====
section
/-! DEFINITION. The geometry of the SRAM banks: groups, banks, rows and spares, where a row's words lie, and how a record names
them (12/R394, T12-1, R402 to R405, 09/T9-8). -/

namespace Sys2Proof.Machine

/-- Units with SRAM: squares 0 to 63, 64 the I/O hub, 65 the control complex, 66 the security engine, 67 any other unit
outside the squares. Group 31 of a square stands for its unit SRAM, which has no bank state and no spare rows. -/
def unitHub : Nat := 64
def unitCtrl : Nat := 65
def unitSec : Nat := 66
def groupUnit : Nat := 31

/-- The group number that DETAIL shows: Table 12-1, or 28 to 30 outside the squares, 31 for any other unit (12/R403). -/
def groupCode (u g : Nat) : Nat := if u < 64 then g else Nat.min (28 + (u - 64)) 31

/-- The bank belongs to a group of Table 12-1. -/
def isBank (u g b : Nat) : Bool := decide (u < 64 ∧ g < 28 ∧ b < 16)

/-- First byte and length of what a bank group holds (12/T12-1). -/
def bankRange (s g : Nat) : Nat × Nat :=
  if g < 19 then (slotState s g, 0x80000) else if g = 19 then (sqMem s, 0x200000)
  else if g < 24 then (synTier s + 0x400000 * (g - 20), 0x400000) else (mirTier s + 0x400000 * (g - 24), 0x400000)

/-- Bytes of a row, and of a bank (12/T12-1). -/
def rowLen (g : Nat) : Nat := if g < 20 then 64 else 128
def bankLen (g : Nat) : Nat := if g < 19 then 0x8000 else if g = 19 then 0x20000 else 0x40000

/-- Key of a row in `Banks.corr`. -/
def rowKey (u g b r : Nat) : Nat := ((u * 32 + g % 32) * 16 + b % 16) * 2048 + r % 2048

/-- Where the words of rows that no address names stand in `Banks.poison`: above the 40-bit local address space. -/
def hiddenRow (u g b r : Nat) : Nat := 2 ^ 41 + 128 * rowKey u g b r

/-- A unit outside the squares is wiped with its domain: its SRAM stores no word that an address names, so what goes is the poison of
its rows (12/R406, T12-3). `g` is one group of the unit; none stands for all. -/
def Hw.wipeUnit (hw : Hw) (u : Nat) : Option Nat → Hw
  | none => hw.unpoison (hiddenRow u 0 0 0) 0x8000000
  | some g => hw.unpoison (hiddenRow u g 0 0) 0x400000

/-- Address of row r of bank b of a group: rows lie one after another in a bank, banks one after another in the group
(log 27). -/
def rowAddr (u g b r : Nat) : Nat :=
  if isBank u g b then (bankRange u g).1 + bankLen g * b + rowLen g * r else hiddenRow u g b r

/-- DETAIL of a record that names a row (12/R403). -/
def repairDetail (u g b r : Nat) : Nat := r % 2048 + b % 16 * 2 ^ 11 + groupCode u g % 32 * 2 ^ 15

/-- The bank group that holds a storage address of a square. -/
def bankGroup (a : Nat) : Option Nat :=
  (List.range 28).find? fun g => let r := bankRange (a / 0x4000000) g; decide (r.1 ≤ a ∧ a < r.1 + r.2)

/-- Unit, group, bank and row of a storage address, of a square's banks or of a row that no address names. -/
def rowOf (a : Nat) : Option (Nat × Nat × Nat × Nat) :=
  if 2 ^ 41 ≤ a then
    let k := (a - 2 ^ 41) / 128
    some (k / 2048 / 16 / 32, k / 2048 / 16 % 32, k / 2048 % 16, k % 2048)
  else (bankGroup a).map fun g =>
    let o := a - (bankRange (a / 0x4000000) g).1
    (a / 0x4000000, g, o / bankLen g, o % bankLen g / rowLen g)

/-- DETAIL of a record for the row that holds a storage address; 0 outside the banks (09/T9-8). -/
def addrDetail (a : Nat) : Nat := match rowOf a with | some (u, g, b, r) => repairDetail u g b r | none => 0

/-- A fault that work has met; none when it ran. The one who starts the work names its square and job. -/
abbrev Found := Option FaultInfo

/-- The fault of an uncorrectable word whose row DETAIL names (12/R404, 09/T9-1). -/
def eccFind (detail : Nat) : FaultInfo := { det := 0x06, status := stECC, detail := detail }

/-- The snapshot unit that a row of unit SRAM holds, if any: bank 0 holds the due bitmaps, bank 1 the fire records and bank 2 the
values of the control block (log 159). -/
def unitOfRow (b r : Nat) : Option SnapUnit :=
  match b with
  | 0 => if r < 576 then some (.due (r / 32) (r / 4 % 8) (r % 4)) else none
  | 1 => if r < 648 then some (.fire (r / 36) (r % 36)) else none
  | 2 => if r = 0 then some .control else none
  | _ => none

/-- The physical slot that owns an SRAM row: its neuron-state group, or the core whose unit SRAM it is; 31 for none. -/
def rowSlot (q : Square) (g b r : Nat) : Nat :=
  if g < 19 then g
  else if g = groupUnit then
    match unitOfRow b r with
    | some (.due l _ _) => q.slotFor l
    | some (.fire l _) => q.slotFor l
    | some (.row _ _) | some (.plastic _) | some .control | none => 31
  else 31

/-- The fault of a word of a row of square s whose path parity fails: charged to the slot, the square or the router that owns the
bank (09/R306, T9-1 0x04, log 161). -/
def Hw.pathFind (hw : Hw) (s g b r : Nat) : FaultInfo :=
  { det := 0x04, status := stPARITY, slot := rowSlot (hw.sqOf s) g b r, bank := isBank s g b, detail := repairDetail s g b r }

/-- What keeps the words of `[a, a + n)` from being used: a poisoned word, else one whose path parity fails (09/R306, R307,
12/R401, R404). -/
def Hw.eccAt (hw : Hw) (a n : Nat) : Found :=
  let meets : Nat → Bool := fun w => decide (w * 8 < a + n ∧ a < w * 8 + 8)
  match hw.banks.poison.find? meets, hw.banks.path.find? meets with
  | some w, _ => some (eccFind (addrDetail (w * 8)))
  | none, some w => match rowOf (w * 8) with
    | some (u, g, b, r) => some (hw.pathFind u g b r)
    | none => some { det := 0x04, status := stPARITY }
  | none, none => none

/-- The same as square s meets it in its job. -/
def Hw.eccInfo (hw : Hw) (s a n : Nat) : FaultInfo :=
  { (hw.eccAt a n).getD (eccFind 0) with job := hw.jobOfSq s, sq := some s }

/-- The status of an access that meets such a word. -/
def Hw.badStatus (hw : Hw) (a n : Nat) : Nat := ((hw.eccAt a n).map (·.status)).getD stECC

/-- A word was handed over once with bad path parity; the fault has been raised. -/
def Hw.pathDrop (hw : Hw) (f : FaultInfo) : Hw :=
  if f.det = 0x04 then
    { hw with banks := { hw.banks with path := hw.banks.path.filter fun w =>
        !(match rowOf (w * 8) with | some (u, g, b, r) => f.sq == some u && repairDetail u g b r == f.detail | none => false) } }
  else hw

/-- The core port uses bank groups: one in RETAIN, or entering it, returns to ON by itself before the access is served, within
the command (12/R396, log 152). One on its way into OFF or out of it is wiped and ON before the access is served (12/R395). -/
def Hw.useBanks (hw : Hw) (s : Nat) (gs : List Nat) : Hw :=
  match (hw.sqOf s).asleep gs with
  | [] => hw
  | down =>
    let lost := down.filter fun g => let b := (hw.sqOf s).bankOf g; b.state == .off || b.moving == some .off
    let hw := lost.foldl (fun (h : Hw) g => let r := bankRange s g; h.wipe r.1 r.2) hw
    hw.modSq s fun q => down.foldl (fun (q : Square) g =>
      q.setBank g fun b => { b with state := .on, moving := none, wake := false }) q

/-- The core port uses the bank groups that hold these addresses (12/R396). -/
def Hw.useAt (hw : Hw) (s : Nat) (as : List Nat) : Hw := hw.useBanks s (as.filterMap bankGroup)

/-- The row of a square's unit SRAM that a snapshot unit stands in: bank 0 holds the due bitmaps, bank 1 the fire records and
bank 2 the values of the control block (log 159). None for what lies in a bank group. -/
def SnapUnit.sramRow : SnapUnit → Option (Nat × Nat)
  | .due l b q => some (0, 32 * l + 4 * b + q)
  | .fire l p => some (1, 36 * l + p)
  | .control => some (2, 0)
  | .row _ _ | .plastic _ => none

/-- The row that a unit of unit SRAM stands in cannot be read, or written in part (12/R404). -/
def Hw.sramAt (hw : Hw) (s : Nat) (u : SnapUnit) : Found :=
  match u.sramRow with
  | some (b, r) => hw.eccAt (hiddenRow s groupUnit b r) 128
  | none => none

/-- The row is written whole. -/
def Hw.sramWhole (hw : Hw) (s : Nat) (u : SnapUnit) : Hw :=
  match u.sramRow with
  | some (b, r) => hw.unpoison (hiddenRow s groupUnit b r) 128
  | none => hw

/-- Spare rows and column selects of a bank (12/T12-1). The spec gives none for an SRAM of the I/O hub, the control complex and
the security engine, so their numbers are free constants, and unit SRAM has none (log 160). -/
def spareRows (u g : Nat) : Nat :=
  if 64 ≤ u then Config.outsideSpares u
  else if g < 19 then 4 else if g = 19 then 8 else if g < 28 then 16 else 0
def spareCols (u g : Nat) : Nat :=
  if 64 ≤ u then Config.outsideSelects u else if g < 20 then 2 else if g < 28 then 4 else 0

/-- Key of a bank in `Banks.spare`. -/
def bankKey (u g b : Nat) : Nat := ((if u < 64 then u else 0) * 32 + groupCode u g) * 16 + b

/-- Spare rows that a bank has left. -/
def Hw.spareIn (hw : Hw) (u g b : Nat) : Nat := spareRows u g - mget 0 hw.banks.spare (bankKey u g b)

end Sys2Proof.Machine
end

