-- ==== Sys2Proof/Machine/Packets.lean ====
section
/-! DEFINITION. Packet fields, parity and the packets that units build (06/R192 to R198, Tables 6-1 to 6-7). -/

namespace Sys2Proof.Machine

/-- Packet types (06/T6-4). -/
def tyEVENT : Nat := 0
def tyWRITE : Nat := 2
def tyREAD : Nat := 3
def tyFENCE : Nat := 4
def tyRESP : Nat := 5
def tyQUEUE : Nat := 6
def tyQSTAT : Nat := 7

/-- Field `[hi:lo]` of the header. -/
def Packet.h (p : Packet) (hi lo : Nat) : Nat := fld p.hdr.toNat hi lo

/-- Field `[hi:lo]` of the payload. -/
def Packet.y (p : Packet) (hi lo : Nat) : Nat := fld p.pay.toNat hi lo

def Packet.ty (p : Packet) : Nat := p.h 3 0
def Packet.epoch (p : Packet) : Nat := p.h 4 4
def Packet.mc (p : Packet) : Bool := p.h 5 5 == 1
def Packet.last (p : Packet) : Bool := p.h 6 6 == 1
def Packet.dmod (p : Packet) : Nat := p.h 10 7
def Packet.dsq (p : Packet) : Nat := p.h 16 11
def Packet.addr (p : Packet) : Nat := p.h 38 17
def Packet.tag (p : Packet) : Nat := p.h 40 39
def Packet.src (p : Packet) : Nat := p.h 45 41

/-- The write identifier of WRITE and FENCE: LAST, TAG, SRC (06/T6-4). -/
def Packet.wid (p : Packet) : Nat := p.h 6 6 * 128 + p.tag * 32 + p.src

/-- The generation of a QUEUE packet: LAST and ADDR[21:15]. -/
def Packet.qgen (p : Packet) : Nat := p.h 6 6 * 128 + fld p.addr 21 15

/-- GROUP and ORD of a multicast packet; PSLOT of a unicast EVENT. -/
def Packet.group (p : Packet) : Nat := fld p.addr 13 0
def Packet.ord (p : Packet) : Nat := fld p.addr 21 14
def Packet.pslot (p : Packet) : Nat := fld p.addr 11 0

/-- The events of an EVENT packet with LAST = 0: COUNT, and value and neuron of event i (06/T6-5). -/
def Packet.count (p : Packet) : Nat := p.y 127 120
def Packet.evNeuron (p : Packet) (i : Nat) : Nat := fld p.pay.toNat (24 * i + 13) (24 * i)
def Packet.evValue (p : Packet) (i : Nat) : Nat := fld p.pay.toNat (24 * i + 23) (24 * i + 16)

/-- Content bits [175:0]: header, then payload (06/R192). -/
def contentOf (hdr : BitVec 48) (pay : BitVec 128) : Nat := hdr.toNat + pay.toNat * 2 ^ 48

/-- The odd parity bit of 16-bit group i of the content (06/R193). -/
def parBit (c i : Nat) : Nat := if xorBits 16 (fld c (16 * i + 15) (16 * i)) then 0 else 1

/-- All 11 parity bits (06/R193). -/
def parityOf (hdr : BitVec 48) (pay : BitVec 128) : BitVec 11 :=
  let c := contentOf hdr pay
  BitVec.ofNat 11 ((List.range 11).foldl (fun a i => a + parBit c i * 2 ^ i) 0)

/-- P[0] to P[2] hold, the TYPE is not reserved, and only an EVENT is multicast (06/R194, R196). -/
def Packet.hdrOk (p : Packet) : Bool :=
  ((parityOf p.hdr p.pay).toNat % 8 == p.par.toNat % 8)
  && (p.ty == 0 || (2 ≤ p.ty && p.ty ≤ 7))
  && (!p.mc || p.ty == 0)

/-- All 11 parity bits hold (06/R194). -/
def Packet.parOk (p : Packet) : Bool := parityOf p.hdr p.pay == p.par

/-- Parity of the payload groups P[3] to P[10] holds. -/
def Packet.payOk (p : Packet) : Bool := (parityOf p.hdr p.pay).toNat / 8 == p.par.toNat / 8

/-- The header word with its fields (06/T6-2). -/
def mkHdr (ty epoch mc last dmod dsq addr tag src : Nat) : BitVec 48 :=
  BitVec.ofNat 48 (ty % 16 + epoch % 2 * 2 ^ 4 + mc % 2 * 2 ^ 5 + last % 2 * 2 ^ 6 + dmod % 16 * 2 ^ 7 + dsq % 64 * 2 ^ 11
    + addr % 2 ^ 22 * 2 ^ 17 + tag % 4 * 2 ^ 39 + src % 32 * 2 ^ 41)

/-- A packet as its source injects it: parity computed, AGE 0 (06/R193, R204). -/
def mkPacket (hdr : BitVec 48) (pay : Nat) : Packet :=
  let y := BitVec.ofNat 128 pay
  { hdr := hdr, pay := y, par := parityOf hdr y }

/-- Rewrite header fields: the three header parity bits are computed again (06/R193). -/
def Packet.withHdr (p : Packet) (h : BitVec 48) : Packet :=
  { p with hdr := h, par := BitVec.ofNat 11 ((parityOf h p.pay).toNat % 8 + p.par.toNat / 8 * 8) }

/-- The same packet with another tree node or target. -/
def Packet.retarget (p : Packet) (dmod dsq : Nat) : Packet :=
  p.withHdr (mkHdr p.ty p.epoch (b2n p.mc) (b2n p.last) dmod dsq p.addr p.tag p.src)

/-- A multicast packet put in unicast form for a pair slot (06/R209). -/
def Packet.toUnicast (p : Packet) (slot : Nat) : Packet :=
  p.withHdr (mkHdr p.ty p.epoch 0 (b2n p.last) p.dmod p.dsq (slot % 4096) p.tag p.src)

/-- AGE raised by one, up to 31 (06/R201). -/
def Packet.older (p : Packet) : Packet := { p with age := if p.age < 31 then p.age + 1 else 31 }

/-- The version that sources inject under (06/R213). -/
def Hw.cur (hw : Hw) : Nat := hw.rt.cur

def mkRespStatus (hw : Hw) (rmod rsq raddr rtag st : Nat) : Packet :=
  mkPacket (mkHdr tyRESP hw.cur 0 1 rmod rsq raddr 0 0) (st % 256 + rtag % 256 * 256)

def mkRespData (hw : Hw) (rmod rsq raddr : Nat) (bs : List Byte) : Packet :=
  mkPacket (mkHdr tyRESP hw.cur 0 0 rmod rsq raddr 0 0) (ofLe bs)

/-- A QSTAT to a sending core (06/T6-7). -/
def mkQstat (hw : Hw) (dmod dsq score rcore st qix gen freed : Nat) : Packet :=
  mkPacket (mkHdr tyQSTAT hw.cur 0 0 dmod dsq score 0 rcore)
    (st % 256 + qix % 128 * 2 ^ 8 + gen % 256 * 2 ^ 16 + freed % 256 * 2 ^ 24)

def mkQueue (hw : Hw) (dmod dsq qix slot gen src : Nat) (msg : Nat) : Packet :=
  mkPacket (mkHdr tyQUEUE hw.cur 0 (gen / 128) dmod dsq (slot % 256 + qix % 128 * 2 ^ 8 + gen % 128 * 2 ^ 15) 0 src) msg

def mkWrite (hw : Hw) (dmod dsq unit wid : Nat) (bs : List Byte) : Packet :=
  mkPacket (mkHdr tyWRITE hw.cur 0 (wid / 128) dmod dsq unit (wid / 32) wid) (ofLe bs)

def mkRead (hw : Hw) (dmod dsq unit rmod rsq raddr rtag : Nat) : Packet :=
  mkPacket (mkHdr tyREAD hw.cur 0 0 dmod dsq unit 0 0)
    (rmod % 16 * 2 ^ 16 + rsq % 64 * 2 ^ 20 + raddr % 2 ^ 22 * 2 ^ 26 + rtag % 256 * 2 ^ 48)

def mkFence (hw : Hw) (dmod dsq wid count rmod rsq raddr rtag : Nat) : Packet :=
  mkPacket (mkHdr tyFENCE hw.cur 0 (wid / 128) dmod dsq 0 (wid / 32) wid)
    (count % 65536 + rmod % 16 * 2 ^ 16 + rsq % 64 * 2 ^ 20 + raddr % 2 ^ 22 * 2 ^ 26 + rtag % 256 * 2 ^ 48)

/-- An event word of Table 6-5: neuron and value. -/
def evWord (e : Nat × Nat) : Nat := e.1 % 16384 + e.2 % 256 * 2 ^ 16

/-- The payload of an event packet with up to five events. -/
def evPayload (es : List (Nat × Nat)) : Nat :=
  ofLe ((es.map fun e => leBytes 3 (evWord e)).flatten) + es.length % 256 * 2 ^ 120

/-- Split a list into runs of five, as the packer does (06/R221). -/
def packFive {α : Type} : Nat → List α → List (List α)
  | 0, _ => []
  | _, [] => []
  | n + 1, l => l.take 5 :: packFive n (l.drop 5)

/-- The packets of one source under one group or destination in one tempo: every event packet, then the close packet that
carries their number (06/R221, 02/R64). -/
def eventPackets (epoch mc dmod dsq addr tag src : Nat) (es : List (Nat × Nat)) : List Packet :=
  (packFive es.length es).map (fun g => mkPacket (mkHdr tyEVENT epoch mc 0 dmod dsq addr tag src) (evPayload g))
  ++ [mkPacket (mkHdr tyEVENT epoch mc 1 dmod dsq addr tag src) (es.length % 65536)]

/-- Put packets into a square's injection queue of 32, the rest into the packers that feed it (06/R204, R221). -/
def Hw.injectAt (hw : Hw) (s : Nat) (ps : List Packet) : Hw :=
  hw.modRt s fun r =>
    let all := r.inject ++ r.packer ++ ps
    { r with inject := all.take 32, packer := all.drop 32 }

/-- The attachment square through which the DMA engine sends (07/R262): a1. -/
def hubSquare : Nat := 0

end Sys2Proof.Machine
end

