-- ==== Sys2Proof/Machine/Protect.lean ====
section
/-! DEFINITION. Which writes a running job's square ignores (03/R90, 04/R134, 09/R325), and the DIRTY and PEND bits that a
write to live state sets (09/R324). -/

namespace Sys2Proof.Machine

/-- The synapse root in force: as read at the job's start, else as square memory holds it (04/R133). -/
def Hw.rootOf (hw : Hw) (s : Nat) : List Byte :=
  match (hw.sqOf s).root with
  | some r => r
  | none => hw.rd (sqMem s + 0x1FFFC0) 64

/-- Where the synapse control image of a square begins (04/R134). -/
def Hw.imgLo (hw : Hw) (s : Nat) : Nat := leAt (hw.rootOf s) 28 4

/-- A host write at a window offset takes effect: outside a running job always; in one, only below the synapse control
image of square memory, aliases alike (03/R90, 04/R134, 09/R325). -/
def Hw.hostWriteOk (hw : Hw) (s off : Nat) : Bool :=
  match hw.jobOfSq s with
  | none => true
  | some _ =>
    if off < 0x3000000 then false
    else if off < 0x3600000 then decide ((off - 0x3000000) % 0x200000 < hw.imgLo s)
    else true

/-- Put a unit in the DIRTY set (09/R324). -/
def SqFault.mark (f : SqFault) (u : SnapUnit) : SqFault := if f.dirty.contains u then f else { f with dirty := u :: f.dirty }

/-- NSNAP_L of a square (09/T9-15). -/
def SqFault.nsnapOf (f : SqFault) (l : Nat) : Nat := mget (if l < 16 then 16384 else 0) f.nsnap l

/-- Index in the Mirror tier of the first neuron of logical core L (09/T9-2). -/
def SqFault.nsnapBase (f : SqFault) (l : Nat) : Nat := (List.range l).foldl (fun a i => a + f.nsnapOf i) 0

end Sys2Proof.Machine
end

