-- ==== Sys2Proof/Machine/Plastic.lean ====
section
/-! DEFINITION. Plastic records in the synapse tier, and the weights of their blocks (05/R166, R167, R188, 09/R321). -/

namespace Sys2Proof.Machine

/-- Where the live copy of record i of square s lies (05/R166). -/
def recordAt (s i : Nat) : Nat := synTier s + 0xA00000 + 256 * i

/-- The word with its parity bit [0] set so that it holds an odd number of ones (04/R141). -/
def oddBit0 (n w : Nat) : Nat := let x := w / 2 * 2; if xorBits n x then x else x + 1

/-- Set the W field of entry k of the narrow block at a line, with fresh parity (04/T4-5, 05/R187). A write narrower than the
word does not change a poisoned one (12/R401). -/
def Hw.setWeight (hw : Hw) (s line k : Nat) (w : Nat) : Hw :=
  let a := synTier s + 128 * line + 4 * k
  let old := hw.rdN a 4
  if hw.poisoned a 4 then hw else hw.wr a (leBytes 4 (oddBit0 32 (old % 0x1000000 + w % 256 * 0x1000000)))

def Hw.weightAt (hw : Hw) (s line k : Nat) : Nat := hw.rdN (synTier s + 128 * line + 4 * k + 3) 1

/-- LINE, COMMIT and the used slots of a record. -/
def Hw.recLine (hw : Hw) (s i : Nat) : Nat := fld (hw.rdN (recordAt s i + 180) 4) 16 0
def Hw.recCommit (hw : Hw) (s i : Nat) : Nat := fld (hw.rdN (recordAt s i + 176) 1) 4 3
def Hw.setCommit (hw : Hw) (s i c : Nat) : Hw :=
  let f := hw.rdN (recordAt s i + 176) 1
  if hw.poisoned (recordAt s i + 176) 1 then hw
  else hw.wr (recordAt s i + 176) (leBytes 1 (f % 8 + c % 4 * 8 + f / 32 * 32))
def Square.used (q : Square) (i : Nat) : Nat := mget 0 q.usedSlots i

/-- Write WN[k] into entry k of the record's block for every used slot (05/R188). -/
def Hw.wnBack (hw : Hw) (s i : Nat) : Hw :=
  let line := hw.recLine s i
  forAll (List.range ((hw.sqOf s).used i)) (fun k h => h.setWeight s line k (h.rdN (recordAt s i + 128 + k) 1)) hw

/-- What keeps record i from giving its weights back: its COMMIT cannot be read, or with COMMIT = 2 a word of the record or of the
entries (09/R307, 12/R401, R404). -/
def Hw.wnRecBad (hw : Hw) (s i : Nat) : Found :=
  match hw.eccAt (recordAt s i + 176) 1 with
  | some f => some f
  | none =>
    if hw.recCommit s i = 2 then (hw.eccAt (recordAt s i) 256).or (hw.eccAt (synTier s + 128 * hw.recLine s i) (4 * (hw.sqOf s).used i))
    else none

/-- The first of a square's records that cannot give its weights back. -/
def Hw.wnBad (hw : Hw) (s : Nat) : Found := (hw.sqOf s).usedSlots.findSome? fun p => hw.wnRecBad s p.1

/-- A consolidation of square s belongs to the running tempo of job j: only then does a live record have COMMIT = 2 (05/R187). -/
def Hw.consolidates (hw : Hw) (j s : Nat) : Bool :=
  (hw.jobOf j).bindings.any fun b => b.ts == (hw.jobOf j).tempo && b.mask.testBit s

/-- Every live record with COMMIT = 2 gets its weights back, but one that cannot be read (05/R188, 09/R307, R321). -/
def Hw.wnBackAll (hw : Hw) (s : Nat) : Hw :=
  (hw.sqOf s).usedSlots.foldl (fun h p =>
    if (h.wnRecBad s p.1).isNone && h.recCommit s p.1 == 2 then h.wnBack s p.1 else h) hw

end Sys2Proof.Machine
end

