-- ==== Sys2Proof/Machine/SeqOps.lean ====
section
/-! DEFINITION. Task descriptors, the end of a task, readiness, waking ahead of work and DVFS points (08/R268 to R281, R293,
R294, R302). -/

namespace Sys2Proof.Machine

/-! ### Fields of a task descriptor (08/T8-1). -/

def Task.ty (k : Task) : Nat := leAt k.desc 0 1
def Task.cls (k : Task) : Nat := fld (leAt k.desc 1 1) 1 0
def Task.anyway (k : Task) : Bool := (leAt k.desc 1 1).testBit 2
def Task.notify (k : Task) : Bool := (leAt k.desc 1 1).testBit 3
def Task.irq (k : Task) : Bool := (leAt k.desc 1 1).testBit 4
def Task.mask (k : Task) : Nat := leAt k.desc 4 8
def Task.preds (k : Task) : List Nat :=
  ([0, 1, 2, 3].map fun i => leAt k.desc (12 + 2 * i) 2).filterMap fun v => if v.testBit 15 then some (fld v 11 0) else none
def Task.energy (k : Task) : Nat := leAt k.desc 20 2
def Task.deadline (k : Task) : Nat := leAt k.desc 24 4
/-- Parameter bytes: offset from byte 32. -/
def Task.param (k : Task) (off n : Nat) : Nat := leAt k.desc (32 + off) n
def Task.sqs (k : Task) : List Nat := ofMask 64 k.mask

/-- Codes of the types (08/T8-2). -/
def tyTempoRun : Nat := 1
def tySnapshot : Nat := 2
def tyConsolidate : Nat := 3
def tyDmaTask : Nat := 4
def tyLoad : Nat := 5
def tyDrain : Nat := 6
def tyResume : Nat := 7
def tyCheck : Nat := 8
def tySweep : Nat := 9
def tyFlush : Nat := 10
def tyWaitTime : Nat := 11
def tyDoorbell : Nat := 12
def tyReport : Nat := 13

/-- TIME of a WAIT_TIME task, timebase ns (08/T8-2). -/
def Task.waitUntil (k : Task) : Nat := k.param 0 8 + (if (k.param 8 1).testBit 0 then k.readyAt else 0)

def TaskState.code : TaskState → Nat
  | .waiting => 1 | .ready => 2 | .running => 3 | .done => 4 | .failed => 5

/-- The status record of a task (08/T8-5). -/
def Task.record (k : Task) : Nat :=
  k.state.code + b2n k.deferred * 8 + b2n k.late * 16 + (if k.ty = tyTempoRun then k.jslot % 4 * 32 else 0) + k.status % 256 * 256 + k.time % 2 ^ 48 * 2 ^ 16

def TaskState.ended : TaskState → Bool
  | .done | .failed => true
  | .waiting | .ready | .running => false

/-! ### DVFS points (08/R292 to R294). -/

/-- Frequency of a point in units of 10 MHz (08/T8-7). -/
def freqOf (p : Nat) : Nat := [180, 160, 140, 120, 100, 80, 60, 45].getD p 45

/-- Cycles of an interval of ns at a point; the frequency is in units of 10 MHz. -/
def cyclesOf (ns p : Nat) : Nat := ns * freqOf p / 100

/-- Count the compute cycles up to now, at the point in force; a gated clock and one of a domain that is not ON give none
(08 SQ_BUSY, R287). -/
def Square.account (q : Square) (now : Nat) : Square :=
  { q with
    cycles := if q.counting && !q.gated && !q.clkOff then q.cycles + cyclesOf (now - q.countAt) q.dvfsCur else q.cycles
    clock := if q.gated || q.clkOff then q.clock else q.clock + (now - q.countAt) * freqOf q.dvfsCur
    countAt := now }

/-- The square switches its frequency, with the pause of 64 cycles at the new one (08/R294). -/
def Square.switchTo (q : Square) (p now : Nat) : Square :=
  { q.account now with dvfsCur := p, pauses := q.pauses + 64, raising := none, volt := none }

/-- Voltage steps of a square wait for 08/R303; a raise that had not begun gives its place up. -/
def Hw.askVolt (hw : Hw) (s steps : Nat) (up : Bool) : Hw :=
  let keep := hw.power.waiting.filter fun t => match t with | .dvfs x _ u => !(x == s && u) | .domain _ _ => true
  { hw with power := { hw.power with waiting := if steps = 0 then keep else keep ++ [.dvfs s steps up] } }

/-- A raise of a square is no longer wanted. -/
def Hw.dropRaise (hw : Hw) (s : Nat) : Hw := (hw.modSq s fun q => { q with raising := none, volt := none }).askVolt s 0 true

/-- Lower the point of a square: the frequency switches at once, and the voltage falls step by step (08/R294, R295). -/
def Hw.lowerPoint (hw : Hw) (s p : Nat) : Hw :=
  let cur := (hw.sqOf s).dvfsCur
  (hw.modSq s fun q => q.switchTo p hw.elapsed).askVolt s (p - cur) false

/-- The voltage change of a raise is requested (08/R294, R303). -/
def Hw.askRaise (hw : Hw) (s p : Nat) : Hw :=
  let q := hw.sqOf s
  if q.raising = some p ∨ q.volt = some p then hw
  else (hw.modSq s fun q => { q with raising := some p, volt := none }).askVolt s (q.dvfsCur - p) true

/-- Change the point of a square outside a job (08/R293, R294). -/
def Hw.setPoint (hw : Hw) (s p : Nat) : Hw :=
  let cur := (hw.sqOf s).dvfsCur
  if p = cur then hw.dropRaise s
  else if cur < p then hw.lowerPoint s p
  else hw.askRaise s p

/-- The point of a job's square in the next tempo: a raise begins its voltage change at the done, and a lower point takes effect at the start
(08/R294). -/
def Hw.nextPoint (hw : Hw) (s p : Nat) : Hw :=
  let hw := hw.modSq s fun q => { q with dvfsNext := p }
  if p < (hw.sqOf s).dvfsCur then hw.askRaise s p else hw

/-- The square waits for a tempo of its job to start: a change of point takes effect there (08/R294). -/
def Hw.awaitsStart (hw : Hw) (s : Nat) : Bool :=
  match hw.jobOfSq s with
  | some j => !(hw.jobOf j).started || (hw.jobOf j).restart.isSome
  | none => false

/-- A type that holds the squares of its mask (08/T8-6). -/
def Task.takesSquares (k : Task) : Bool := k.ty == tyTempoRun || (5 ≤ k.ty && k.ty ≤ 8)

/-- A running class-1 or class-2 task that holds a square (08/R282, R287). -/
def Task.holds (k : Task) (s : Nat) : Bool :=
  k.state == .running && k.mask.testBit s && (k.ty == tyTempoRun || (5 ≤ k.ty && k.ty ≤ 8))

def Hw.heldBy (hw : Hw) (s : Nat) : Option Task := (hw.seq.tasks.find? fun p => p.2.holds s).map (·.2)

/-! ### Base draw, headroom and throttling (08/R286, R287). -/

/-- ns of the window that are left, of 10^6. -/
def Hw.windowLeft (hw : Hw) : Nat := 1000000 - (hw.tb.now - hw.bud.winStart)

/-- B of 08/R286: the base draw. -/
def Hw.baseDraw (hw : Hw) : Int :=
  let held := ((List.range 64).filter fun s => (hw.heldBy s).isSome).map fun s => mget 0 hw.bud.sqPrev s
  (hw.bud.hist.headD 0 : Int) - (held.sum : Nat)

/-- Tempos of a job whose nominal end lies in `[a, b)` (08/R286). -/
def Job.endsIn (k : Job) (a b : Nat) : Nat :=
  let upto : Nat → Nat := fun x =>
    if (x : Int) ≤ k.origin then 0 else (fdiv ((x : Int) - k.origin + (k.period : Int) - 1) (k.period : Int)).toNat
  let last := if k.ntempo = 0 then upto b else Nat.min (upto b) (k.t0 + k.ntempo + 1)
  if k.released then last - Nat.max (upto a) (k.t0 + 1) else 0

/-- R0 of 08/R286. -/
def Hw.headroom (hw : Hw) : Nat :=
  let wend := hw.bud.winStart + 1000000
  ((hw.seq.tasks.filter fun p => p.2.state == .running && p.2.cls == 0 && p.2.ty == tyTempoRun).map fun p =>
    p.2.energy * (hw.jobOf p.2.jslot).endsIn hw.tb.now wend).sum

/-- ENERGY of the running tasks that C of 08/R286 counts. -/
def Hw.otherEnergy (hw : Hw) : Nat :=
  ((hw.seq.tasks.filter fun p => p.2.state == .running && !(p.2.cls == 0 && p.2.ty == tyTempoRun)).map fun p => p.2.energy).sum

/-- avail of 08/R286, in 10^-6 µJ. -/
def Hw.availMicro (hw : Hw) : Int :=
  let m : Int := 1000000
  let left : Int := hw.windowLeft
  hw.bud.winLimit * m - (hw.bud.emNow : Int) * m - hw.baseDraw * left - (hw.headroom : Int) * m - (hw.otherEnergy : Int) * left

/-- The energy test of 08/R286. -/
def Hw.passes (hw : Hw) (k : Task) : Bool := decide ((k.energy : Int) * hw.windowLeft ≤ hw.availMicro)

/-- The compute clocks of the squares held by class-1 and class-2 tasks are gated while throttling is in force, and DMA channels
12 to 15 pause (08/R287). -/
def Hw.regate (hw : Hw) : Hw :=
  let hw := forAll (List.range 64) (fun s h =>
    let g := h.bud.throttle && (h.heldBy s).any fun k => k.cls != 0
    if (h.sqOf s).gated = g then h else h.modSq s fun q => { q.account h.elapsed with gated := g }) hw
  forAll [12, 13, 14, 15] (fun c h =>
    if (h.dmaOf c).paused = h.bud.throttle then h else h.modDma c fun k => { k with paused := h.bud.throttle }) hw

/-- Throttling begins, or its cause has come again: it lifts no earlier than the window after this one (08/R287). -/
def Hw.throttleOn (hw : Hw) : Hw :=
  let on := hw.bud.throttle
  let hw := { hw with bud := { hw.bud with throttle := true, throttleAt := hw.tb.now } }
  if on then hw else hw.irq 3

/-- Em + B × (1 − f) + R0 reaches L (08/R287). -/
def Hw.overLimit (hw : Hw) : Bool :=
  let m : Int := 1000000
  decide (hw.bud.winLimit * m ≤ (hw.bud.emNow : Int) * m + hw.baseDraw * hw.windowLeft + (hw.headroom : Int) * m)

/-- The condition of 08/R287, wherever one of its terms has changed; what is gated follows the squares that tasks hold. -/
def Hw.throttleTest (hw : Hw) : Hw := (if hw.overLimit then hw.throttleOn else hw).regate

/-! ### Points outside class-0 jobs. -/

/-- The point of a square outside class-0 jobs: P0 held by class-1 and class-2 work, P7 when hot or held by nothing
(08/R290, R293). -/
def Hw.idlePoint (hw : Hw) (s : Nat) : Nat :=
  match hw.heldBy s with
  | some _ => if hw.bud.hot.contains s then 7 else 0
  | none => 7

def Hw.repoint (hw : Hw) (m : Nat) : Hw :=
  forAll (ofMask 64 m) (fun s h =>
    let h := h.touchDom s
    match h.jobOfSq s with
    | some _ => h
    | none => h.setPoint s (h.idlePoint s)) hw

/-! ### Waking ahead of work (08/R302). -/

/-- PSRAM pairs of `n` bytes from a local address: all pairs from 16 KiB on, as channels interleave (12/R408). -/
def psramPairs (a n : Nat) : List Nat :=
  if n ≥ 16384 then List.range 8
  else (List.range 8).filter fun k => (List.range (n / 1024 + 2)).any fun i =>
    fld (a - 0x100000000 + Nat.min (i * 1024) (n - 1)) 13 10 / 2 == k

/-- Domains that a DMA chain's descriptor names: PSRAM pairs and, for another module, link ports (08/R302). -/
def Hw.descDomains (hw : Hw) (a : Nat) : List Nat :=
  let side : Nat → Nat → List Nat := fun v n =>
    let loc := v % 2 ^ 40
    if v / 2 ^ 40 ≠ hw.rt.moduleId then ((hw.linksTo (v / 2 ^ 40)).filter fun n => (hw.linkOf n).en).map domLink
    else if 0x100000000 ≤ loc ∧ loc < 0x180000000 then (psramPairs loc n).map domPsc
    else []
  let n := hw.rdN (a + 16) 4
  side (fld (hw.rdN a 8) 43 0) n ++ side (fld (hw.rdN (a + 8) 8) 43 0) n

/-- Domains of a chain's descriptors, following NEXT. -/
def Hw.chainDomains (hw : Hw) (a : Nat) : Nat → List Nat
  | 0 => []
  | n + 1 =>
    hw.descDomains a
    ++ (if (hw.rdN (a + 16) 8).testBit 35 then hw.chainDomains (fld (hw.rdN (a + 24) 8) 39 0) n else [])

/-- No chain has more descriptors than memory lists bytes: one that has a successor has a byte that is not zero. -/
def Hw.chainLook (hw : Hw) : Nat := hw.banks.mem.length + 1

/-- An access to PSRAM counts as use of the pairs that hold its bytes (08/R296). -/
def Hw.touchPsram (hw : Hw) (a n : Nat) : Hw :=
  forAll ((psramPairs a n).map domPsc) (fun d h => h.touchDom d) hw

/-- The PSRAM address range (12/R407, 01/T1-7). -/
def psramLo : Nat := 0x100000000
def psramHi : Nat := 0x180000000

def inPsram (a n : Nat) : Bool := decide (psramLo ≤ a ∧ a + n ≤ psramHi)

/-- The channels that hold bytes of a range of PSRAM (12/R408). -/
def psramChans (a n : Nat) : List Nat :=
  (List.range (Nat.min (n / 1024 + 2) 16)).map fun i => fld (a - psramLo + Nat.min (1024 * i) (n - 1)) 13 10

/-- A channel that holds bytes of the range has failed, or its pair is OFF: the access answers ABSENT (12/R412, 01/R36). -/
def Hw.psramAbsent (hw : Hw) (a n : Nat) : Bool :=
  (psramChans a n).any fun k =>
    (hw.chanOf k).state == 3 || ((hw.domOf (domPsc (k / 2))).state == .off && (hw.domOf (domPsc (k / 2))).moving == none)

/-- An access to the range is held: a channel trains, or its pair is not ON (12/R411, 01/R36). -/
def Hw.psramHeld (hw : Hw) (a n : Nat) : Bool :=
  !(hw.psramAbsent a n) && (psramChans a n).any fun k =>
    (hw.chanOf k).state == 1 || (hw.chanOf k).state == 2 || !(hw.isOn (domPsc (k / 2)))

/-- The pairs that a held access needs are woken (01/R36). -/
def Hw.wakePsram (hw : Hw) (a n : Nat) : Hw :=
  forAll ((psramPairs a n).map domPsc) (fun d h => if h.isOn d then h else h.wakeDom d) hw

/-- The lowest-numbered free job slot. -/
def Hw.freeSlot (hw : Hw) : Option Nat := firstOf [0, 1, 2, 3] fun j => !(hw.jobOf j).active

/-- The job slot of a TEMPO_RUN task: the one it has, or the one it will get. -/
def Hw.slotOfTask (hw : Hw) (k : Task) : Option Nat :=
  match k.state with
  | .waiting | .ready => hw.freeSlot
  | .running | .done | .failed => some k.jslot

/-- Bytes of the envelope before the body. -/
def envLen : Nat := 7424

/-- The fields of Table 13-8 hold, and the image lies in PSRAM. -/
def envelopeOk (addr : Nat) (env : List Byte) : Bool :=
  leAt env 0 2 == 0x4E45 && leAt env 2 1 == 1 && decide (leAt env 3 1 ≤ 1) && allZero ((env.drop 72).take 56)
    && allZero ((env.drop 7347).take 77) && inPsram addr (envLen + leAt env 4 4)

/-- The range that the envelope checks read: the envelope, and its body where check 1 passes. -/
def Hw.envRange (hw : Hw) (addr : Nat) (len : Option Nat) : Nat :=
  let env := hw.rd addr envLen
  let n := envLen + leAt env 4 4
  if envelopeOk addr env && !(len.any (· != n)) then n else envLen

/-- Where the spill image of a square lies: those of several squares follow one another (log 26). -/
def spillAt (k : Task) (s : Nat) : Nat := k.param 16 5 + (k.sqs.filter (· < s)).length * 0x1000100

/-- Size of the synapse tier region, and of a spill image (12/R418). -/
def tierSize : Nat := 0x1000000
def spillLen : Nat := 128 + tierSize

/-- The PSRAM pairs of a range that lies in PSRAM. -/
def pairsOf (r : Nat × Nat) : List Nat := if inPsram r.1 r.2 then (psramPairs r.1 r.2).map domPsc else []

/-- The PSRAM pairs of the images of a LOAD_SQUARE or DRAIN_SQUARE task (08/R302): its network image and its spill images. -/
def Hw.imageDomains (hw : Hw) (k : Task) : List Nat :=
  let spill := (k.param 13 1).testBit 0
  ((if k.ty = tyLoad then pairsOf (k.param 8 5, hw.envRange (k.param 8 5) none) else [])
    ++ (if spill && k.ty == tyLoad then pairsOf (k.param 16 5, spillLen) else [])
    ++ (if spill && k.ty == tyDrain then k.sqs.flatMap fun s => pairsOf (spillAt k s, spillLen) else [])).eraseDups

/-- The domains that a task's type needs besides its squares (08/R302). -/
def Hw.needs (hw : Hw) (k : Task) : List Nat :=
  if k.ty = tyDmaTask then domHub :: hw.chainDomains (k.param 8 5) hw.chainLook
  else if k.ty = tyLoad ∨ k.ty = tyDrain then hw.imageDomains k
  else if k.ty = tyTempoRun then
    domHub :: (if (k.param 14 1).testBit 1 then
      ((List.range 6).filter fun n => (hw.slotOfTask k).any fun j => (hw.linkOf n).jobs.testBit j).map domLink else [])
  else []

/-- Every domain a task needs: its squares, unless they are fused off, and its type's (08/R271, R302). -/
def Hw.taskDomains (hw : Hw) (k : Task) : List Nat :=
  (k.sqs.filter fun s => !(hw.sqOf s).fused) ++ hw.needs k

/-- Bring a task's domains ON. -/
def Hw.wakeFor (hw : Hw) (k : Task) : Hw :=
  forAll (hw.taskDomains k) (fun d h => if h.isOn d then h else h.wakeDom d) hw

/-- A WAITING task is imminent (08/R302). -/
def Hw.imminent (hw : Hw) (k : Task) : Bool :=
  k.preds.all fun p => match hw.taskOf p with
    | none => true
    | some q => q.state == .done
      || (q.state == .running && (q.ty != tyWaitTime && q.ty != tyDoorbell
          || (q.ty == tyWaitTime && decide (q.waitUntil ≤ hw.tb.now + 1000 * hw.bud.leadUs))))

/-- The place of a waiting task in the order of 08/R283: class, the energy test, deadline, TID. Its deadline is reckoned as if it
became READY now (log 183). -/
def Hw.wakeKey (hw : Hw) (t : Nat) (k : Task) : Nat :=
  let fails := (k.cls == 1 || k.cls == 2) && !(hw.passes k)
  let due := if k.deadline = 0 ∨ k.ty = tyTempoRun then 2 ^ 32 else k.deadline
  ((k.cls * 2 + b2n fails) * 2 ^ 33 + due) * 4096 + t

/-- Insert a task by its key, after those with the same key. -/
def insertKey (x : Nat × Nat) : List (Nat × Nat) → List (Nat × Nat)
  | [] => [x]
  | a :: r => if x.1 < a.1 then x :: a :: r else a :: insertKey x r

/-- Waiting tasks in the order of 08/R283. -/
def Hw.inOrder (hw : Hw) (l : List (Nat × Task)) : List Nat :=
  (l.foldl (fun a p => insertKey (hw.wakeKey p.1 p.2, p.1) a) []).map (·.2)

/-- Tasks that have just become imminent have their domains brought ON. -/
def Hw.wakeAhead (hw : Hw) : Hw :=
  let due := hw.seq.tasks.filter fun p => p.2.state == .waiting && !p.2.imminent && hw.imminent p.2
  (hw.inOrder due).foldl (fun h t =>
    match h.taskOf t with
    | some k => (h.modTask t fun k => { k with imminent := true }).wakeFor k
    | none => h) hw

/-! ### The end of a task (08/R274 to R276). -/

/-- The job of slot j is over: its squares leave it, and the slot's registers keep their last values (08/R273, 09/R321). -/
def Hw.jobOver (hw : Hw) (j : Nat) : Hw :=
  let job := hw.jobOf j
  let hw := forAll (hw.jobSqs j) (fun s h => h.modSq s fun q =>
    { q with
      root := none, ledgerT := none, closed := false, reported := false, inUpdate := false
      inbox := q.inbox.filter fun e => e.pkt.hdr.toNat % 16 != 0
      flt := { q.flt with waiting := [] } }) hw
  let hw := { hw with
    journal := hw.journal.filter fun e => e.slot != j
    kz := { hw.kz with streams := hw.kz.streams.map fun (p : Nat × Stream) =>
      (p.1, if p.2.joined = some j then { p.2 with joined := none } else p.2) }
    csi := hw.csi.map fun (p : Nat × CsiPort) => (p.1, if p.2.joined = some j then { p.2 with joined := none } else p.2) }
  let hw := hw.modJob j fun k => { k with
    active := false, phase := 0, released := false, restart := none, stopReq := false, initCopy := false
    late := false, held := false, recovery := false, bindings := []
    outTempo := if k.pendHdr.isSome then k.outTempo else none, cause := none }
  hw.repoint job.mask

/-- A TEMPO_RUN task runs the job of its slot: one that was refused at its start never took the slot (08/R278). -/
def Hw.holdsSlot (hw : Hw) (t : Nat) (k : Task) : Bool := (hw.jobOf k.jslot).active && (hw.jobOf k.jslot).tid == t

/-- A task ends: status record, notification and interrupts (08/R274, R281, 10/T10-7, 11/T11-1). -/
def Hw.taskEndOne (hw : Hw) (t st : Nat) : Hw :=
  match hw.taskOf t with
  | none => hw
  | some k =>
    if k.state.ended then hw
    else
      let was := k.state
      let hw := hw.modTask t fun k => { k with
        state := if st = stOK then .done else .failed, status := st, time := hw.tb.now, episode := false }
      let hw := if k.ty = tyTempoRun ∧ was = .running ∧ hw.holdsSlot t k then
          (hw.jobOver k.jslot).irq (7 + k.jslot)
        else hw
      -- every end of a TEMPO_RUN task ends the sweep enable of its JOB_ID (08/R277)
      let hw := if k.ty = tyTempoRun then
          { hw with seq := { hw.seq with sweeps := hw.seq.sweeps.filter (· != k.param 0 4) } } else hw
      let hw := if was = .running ∧ k.takesSquares = true ∧ k.ty ≠ tyTempoRun then hw.repoint k.mask else hw
      let hw := hw.throttleTest
      let hw := match hw.taskOf t with
        | some k => if k.notify then hw.noteOwner ⟨2, st, t, hw.tb.now, k.record, []⟩ else hw
        | none => hw
      let hw := if k.irq then hw.irq 0 else hw
      hw.waitOver (.task t) st []

/-! ### The input journal (09/R330, R331). -/

/-- An event entry (09/T9-4). -/
def jEvent (src group neuron value : Nat) : Nat :=
  neuron % 16384 * 4 + value % 256 * 2 ^ 16 + group % 16384 * 2 ^ 24 + src % 32 * 2 ^ 38

/-- A marker entry. -/
def jMarker (t : Nat) : Nat := 1 + t % 2 ^ 48 * 4

/-- The first entry of a consolidation binding; the second is its MASK. -/
def jBinding (t tid : Nat) : Nat := 2 + t % 2 ^ 48 * 4 + tid % 4096 * 2 ^ 50

/-- The journal without its first n released entries, whose room is needed. -/
def dropFree : Nat → List JEntry → List JEntry
  | 0, l => l
  | _, [] => []
  | n + 1, e :: r => if e.free then dropFree n r else e :: dropFree (n + 1) r

/-- Room of the input journal (09/R330). -/
def journalMax : Nat := 1048576

/-- Entries that are not released. -/
def Hw.journalUsed (hw : Hw) : Nat := (hw.journal.filter fun e => !e.free).length

/-- Add entries of tempo t of job slot j, the tempo's marker first. A full journal is noted, with a record, and the job
cannot be restarted until its next snapshot point (09/R331). -/
def Hw.journalAdd (hw : Hw) (j t : Nat) (ws : List Nat) : Hw :=
  let ws := if hw.journal.any fun e => e.slot == j && e.tempo == t && !e.free then ws else jMarker t :: ws
  let full := decide (journalMax ≤ hw.journalUsed + ws.length)
  let kept := dropFree (hw.journal.length + ws.length - journalMax) hw.journal
  let hw := { hw with journal := kept ++ ws.map fun w => JEntry.mk j t w false }
  if full && !(hw.jobOf j).jfull then
    ((hw.modJob j fun k => { k with jfull := true }).faultRecord { det := 0x12, job := some j }).irq 226
  else hw

/-! ### The binding of a CONSOLIDATE task (05/R184). -/

/-- The first snapshot tempo from `t` on to which no task with an overlapping mask is bound. -/
def bindFrom (iv : Nat) (bs : List Binding) (mask : Nat) : Nat → Nat → Nat
  | 0, t => t
  | n + 1, t =>
    if (t + 1) % iv = 0 ∧ !(bs.any fun b => b.ts == t && (b.mask &&& mask) != 0) then t else bindFrom iv bs mask n (t + 1)

/-- The tempo to which a CONSOLIDATE task that becomes READY now is bound: its update phase has not started. -/
def Job.bindTempo (k : Job) (mask : Nat) : Nat :=
  bindFrom k.snapIv k.bindings mask ((k.bindings.length + 2) * k.snapIv) (if k.phase = 3 then k.tempo + 1 else k.tempo)

/-- The running job that a CONSOLIDATE task is for: its mask lies within the job's squares (08/R278). -/
def Hw.bindJob (hw : Hw) (k : Task) : Option Nat :=
  match hw.jobById (k.param 0 4) with
  | some j => if (hw.jobOf j).mask &&& k.mask = k.mask then some j else none
  | none => none

/-- A CONSOLIDATE task is bound, and the binding is journalled. Bound to the tempo that runs already, it raises the job's
squares to P0 at once (05/R184, R189). -/
def Hw.bind (hw : Hw) (t : Nat) (k : Task) : Hw :=
  match hw.bindJob k with
  | none => hw
  | some j =>
    let job := hw.jobOf j
    let ts := job.bindTempo k.mask
    let hw := (hw.modTask t fun k => { k with jslot := j, snapT := some ts }).modJob j fun x =>
      { x with bindings := x.bindings ++ [⟨ts, t, k.mask⟩] }
    let hw := hw.journalAdd j ts [jBinding ts t, k.mask]
    if job.released && ts == job.tempo then forAll (hw.jobSqs j) (fun s h => h.nextPoint s 0) hw else hw

/-- A CONSOLIDATE task that ends before its tempo is bound no more; a phase that runs already goes on. -/
def Hw.unbind (hw : Hw) (t : Nat) : Hw :=
  forAll [0, 1, 2, 3] (fun j h => h.modJob j fun k => { k with
    bindings := k.bindings.filter fun b => b.tid != t || (k.phase == 3 && b.ts == k.tempo) }) hw

/-! ### Readiness (08/R274, R275). -/

/-- A task becomes READY; a CONSOLIDATE task is bound then. -/
def Hw.becomeReady (hw : Hw) (t : Nat) (k : Task) : Hw :=
  let hw := hw.modTask t fun k => { k with state := .ready, readyAt := hw.tb.now }
  if k.ty = tyConsolidate then hw.bind t k else hw

/-- What becomes of a WAITING task as its predecessors stand (08/R274, R275): none, READY, or the status it fails with. -/
def Hw.resolve (hw : Hw) (k : Task) : Option (Option Nat) :=
  let ps := k.preds.filterMap hw.taskOf
  match ps.find? fun q => q.state == .failed && !k.anyway with
  | some q => some (some q.status)
  | none => if ps.all fun q => q.state.ended then some none else none

/-- One pass over the waiting tasks: READY, or FAILED with the status of a predecessor. -/
def Hw.settleOnce (hw : Hw) : Hw :=
  hw.seq.tasks.foldl (fun h p =>
    match h.taskOf p.1 with
    | some k =>
      if k.state = .waiting then
        match h.resolve k with
        | some none => h.becomeReady p.1 k
        | some (some st) => h.taskEndOne p.1 st
        | none => h
      else h
    | none => h) hw

/-- Failures pass on along the graph (08/R275): as many passes as there are tasks. -/
def Hw.settleN (hw : Hw) : Nat → Hw
  | 0 => hw
  | n + 1 => hw.settleOnce.settleN n

def Hw.settle (hw : Hw) : Hw := (hw.settleN hw.seq.tasks.length).wakeAhead

/-- Tasks that wait for a job's snapshot end with the job, with the status of 08/R278 (log 17). -/
def Hw.orphans (hw : Hw) (j : Nat) (id : Nat) : List Nat :=
  (hw.seq.tasks.filter fun p => p.2.state == .running && (p.2.ty == tySnapshot || p.2.ty == tyConsolidate)
    && p.2.param 0 4 == id && p.2.jslot == j).map (·.1)

/-- TASK_END (08/R274): a task ends, what waits for it is settled. -/
def Hw.taskEnd (hw : Hw) (t st : Nat) : Hw :=
  let job := (hw.taskOf t).bind fun k => if k.ty = tyTempoRun ∧ k.state = .running ∧ hw.holdsSlot t k then some (k.jslot, k.param 0 4) else none
  let hw := hw.taskEndOne t st
  let hw : Hw := match job with
    | some (j, id) => (hw.orphans j id).foldl (fun (h : Hw) x => h.taskEndOne x stBADPARAM) hw
    | none => hw
  hw.settle

/-- A chain of a DMA channel has ended: the DMA task and the Kezil command that wait for it end with its status
(07/R264, 08/T8-2, 10/R364). -/
def Hw.chainEnded (hw : Hw) (c st : Nat) : Hw :=
  let k := hw.dmaOf c
  let hw := hw.modDma c fun k => { k with task := none, kmode := 0, kezil := none }
  let hw := hw.waitOver (.chain c) st (if k.kmode = 1 ∧ st = stOK then k.kezil.getD [] else [])
  match k.task with
  | some t => hw.taskEnd t st
  | none => hw

end Sys2Proof.Machine
end

