-- ==== Sys2Proof/Machine/FaultOps.lean ====
section
/-! DEFINITION. Faults of a job: charging, transients, recurrence, the start of a restart, the stop of a job, link loss, fences
and remaps (01/R22 to R27, 06/R233, R237, 09/R304 to R321, R332, R336). -/

namespace Sys2Proof.Machine

/-! ### Messages of the tempo tree (06/R235). -/

/-- A CTRL message (06/T6-14). -/
def ctrlWord (kind jslot tlow : Nat) : Nat := kind + 8 * jslot + 32 * (tlow % 65536)

/-- Put a CTRL message on a link port. -/
def Hw.sendCtrl (hw : Hw) (port w : Nat) : Hw := hw.modLink port fun l => { l with ctrlQ := l.ctrlQ ++ [w] }

def Hw.parentOf (hw : Hw) (j : Nat) : Nat := (mget 7 hw.rt.tree j) % 8
def Hw.childrenOf (hw : Hw) (j : Nat) : List Nat := ofMask 6 ((mget 7 hw.rt.tree j) / 8)


/-! ### Table versions (06/R213 to R216). -/

/-- The version in force changes at once: CUR, OLD_BUSY and ARMED (06/R215, T6-16). -/
def Hw.flipNow (hw : Hw) : Hw :=
  { hw with rt := { hw.rt with cur := 1 - hw.rt.cur, oldBusy := true, armed := false, wait := false } }

/-- The idle version is put in force if it is armed (06/R228, R237), also while OLD_BUSY = 1 or a FLIP waits, which R215 ignores
of a written FLIP: the waiting FLIP is then dropped (DESIGN CHOICE, log 191). -/
def Hw.flipArmed (hw : Hw) : Hw := if hw.rt.armed then hw.flipNow else hw

/-- FLIP of RT_EPOCH (06/R215): the new state and whether it reports BUSY. -/
def Hw.flipWrite (hw : Hw) : Hw × Nat :=
  if hw.rt.oldBusy || hw.rt.wait then (hw, stBUSY)
  else if (hw.jobOf (fld hw.rt.flipAt 49 48)).active then ({ hw with rt := { hw.rt with wait := true } }, stOK)
  else (hw.flipNow, stOK)


/-! ### Router states, fences and remaps (01/R22 to R27, 06/R226). -/

/-- RTR_STATE changes signal source 32 + s (11/T11-1). -/
def Hw.setRtState (hw : Hw) (s : Nat) (st : RtState) : Hw :=
  if (hw.rtOf s).state = st then hw else (hw.modRt s fun r => { r with state := st }).irq (32 + s)


/-- A square begins to drain; one that is absent already stays so (06/R228). -/
def Hw.drain (hw : Hw) (s : Nat) : Hw := if (hw.rtOf s).state = .absent then hw else hw.setRtState s .draining

/-- The router has taken every reply to the requests that have reached the square, also to those held at its bank groups. -/
def Hw.repliesOut (hw : Hw) (s : Nat) : Bool :=
  let q := hw.sqOf s
  q.rt.inject.isEmpty && q.rt.packer.isEmpty && q.fences.isEmpty && q.inbox.isEmpty
    && !(hw.heldAcc.any fun h => h.square == s && h.group.isSome)

/-- The shadow role moves to an unused, unfenced reserve core, or goes nowhere (01/R25). -/
def Hw.shadowMove (hw : Hw) (s : Nat) : Hw :=
  let q := hw.sqOf s
  let free := fun p => !(q.slotFence.contains p) && (q.coreFor p).isNone && p != q.shadow
  let shadow := if q.policy then 31 else (firstOf [16, 17] free).getD 31
  let hw := hw.modSq s fun q => { q with shadow := shadow }
  if shadow = 31 then hw.faultRecord { det := 0x15, sq := some s } else hw

/-- Every job with the square ends with FENCED (01/R23, R24, 09/R317). -/
def Hw.endFenced (hw : Hw) (s : Nat) : Hw :=
  match hw.jobOfSq s with
  | some j => hw.taskEnd (hw.jobOf j).tid stFENCED
  | none => hw

/-- Fence a square: its router goes to ABSENT (01/R23, 06/R226). -/
def Hw.fenceSquare (hw : Hw) (s : Nat) : Hw :=
  ((hw.modSq s fun q => { q with fenced := true }).setRtState s .absent).endFenced s

/-- A fenced router, and its square with it (06/R226, 09/R317). -/
def Hw.fenceRouter (hw : Hw) (s : Nat) : Hw := (hw.modRt s fun r => { r with fenced := true }).fenceSquare s

/-- The program under a fenced slot stops with FENCED (07/R254). -/
def Hw.progFenced (hw : Hw) (s l : Nat) : Hw := if (hw.cpOf s l).run then hw.cpError s l stFENCED else hw

/-- The mapping of logical cores under a policy with a set of fenced slots (01/R22, R24), and whether every row gets the
reserve core that it needs (01/R23). -/
def mapFor (policy : Bool) (fences : List Nat) : List (Nat × Nat) × Bool :=
  if policy then
    ((List.range 18).filterMap fun l =>
      if fences.contains l then some (l, 31) else if l < 16 then none else some (l, l), true)
  else
    let row : Nat → List (Nat × Nat) × Bool := fun r =>
      let bad := (List.range 8).filter fun i => fences.contains (8 * r + i)
      match bad with
      | [] => ([], true)
      | [i] => if fences.contains (16 + r) then ([(8 * r + i, 31)], false) else ([(8 * r + i, 16 + r)], true)
      | i :: _ => (bad.map fun k => (8 * r + k, if k = i ∧ !(fences.contains (16 + r)) then 16 + r else 31), false)
    let a := row 0
    let b := row 1
    (a.1 ++ b.1, a.2 && b.2)

/-- The slot of the shadow role for a mapping: p18, else under REMAP the lower unused unfenced reserve core (01/R25). -/
def shadowFor (policy : Bool) (fences : List Nat) (lmap : List (Nat × Nat)) : Nat :=
  if !(fences.contains 18) then 18
  else if policy then 31
  else (firstOf [16, 17] fun p => !(fences.contains p) && !(lmap.any fun x => x.2 == p)).getD 31

/-- The mapping of a square under a policy, with the shadow role; a role that goes nowhere is recorded (01/R22, R24, R25). -/
def Hw.mapSquare (hw : Hw) (s : Nat) (p : Bool) : Hw :=
  let q := hw.sqOf s
  let m := mapFor p q.slotFence
  let shadow := shadowFor p q.slotFence m.1
  let hw := hw.modSq s fun q => { q with policy := p, lmap := m.1, shadow := shadow }
  if shadow = 31 ∧ q.shadow ≠ 31 then hw.faultRecord { det := 0x15, sq := some s } else hw

/-- Set the policy of a square and compute its mapping again (01/R21 to R25); a row that cannot get its reserve core fences
the square. -/
def Hw.setPolicy (hw : Hw) (s : Nat) (p : Bool) : Hw :=
  let ok := (mapFor p (hw.sqOf s).slotFence).2
  let hw := hw.mapSquare s p
  if ok then hw else hw.fenceSquare s

/-- Fence a physical slot: the logical number it carries moves to the row's reserve core, becomes absent, or the square is
fenced; the shadow role moves (01/R22 to R25, R27). -/
def Hw.fenceSlot (hw : Hw) (s p : Nat) : Hw :=
  let q := hw.sqOf s
  if q.slotFence.contains p then hw
  else
    let l := q.coreFor p
    let hw := if l.isSome then hw.modSlot s p fun k => { k with heldInJob := (hw.jobOfSq s).isSome } else hw
    let hw := hw.modSq s fun q => { q with slotFence := sins q.slotFence p }
    let hw := match l with | some l => hw.progFenced s l | none => hw
    if p = q.shadow then hw.shadowMove s
    else match l with
      | none => hw
      | some l =>
        if q.policy then (hw.modSq s fun q => { q with lmap := mset q.lmap l 31 }).endFenced s
        else
          let r := if l < 8 then 16 else 17
          if p ≠ l ∨ q.slotFence.contains r ∨ (q.coreFor r).isSome then hw.fenceSquare s
          else
            let hw := hw.modSq s fun q => { q with lmap := mset q.lmap l r }
            if q.shadow = r then hw.shadowMove s else hw

/-! ### Transients (09/R316, R319). -/

/-- The unit that a detector charges (09/T9-1). A bank (0x06) is repaired and never fenced, and a unit outside the squares that is no
link port has no count and no fence either (09/R316, R317, log 161). -/
inductive Charge where
  | none | slot (p : Nat) | router | square | link (n : Nat) | bank | unit
  deriving DecidableEq, Repr

/-- Path parity outside the squares charges the link port whose SRAM it is, or the unit (09/T9-1, log 187). -/
def outCharge : Option (Nat × Nat) → Charge
  | none => .none
  | some (u, g) => if u = 67 ∧ g < 6 then .link g else .unit

/-- The unit that a fault charges (09/T9-1). -/
def FaultInfo.charge (f : FaultInfo) : Charge :=
  if f.det = 0x01 then .router
  else if f.det = 0x02 then (match f.link with | some n => .link n | none => .none)
  else if f.det = 0x04 then
    (if f.sq.isNone then outCharge f.unit else if f.slot < 19 then .slot f.slot else if f.bank then .square else .router)
  else if f.det = 0x06 then (if f.bank then .bank else .none)
  else if f.det = 0x07 ∨ f.det = 0x08 ∨ f.det = 0x09 then .slot f.slot
  else if f.det = 0x0A ∨ f.det = 0x0F then .square
  else if f.det = 0x0E then .link f.detail
  else .none

/-- Transients within 10 s, with the new one; permanent when it is the fourth (09/R316). -/
def addTransient (l : List Nat) (now : Nat) : List Nat × Bool :=
  let l' := (l.filter fun t => decide (now ≤ t + 10000000000)) ++ [now]
  (l', decide (4 ≤ l'.length))

/-- Count a fault against a unit; the Bool says that it is permanent. -/
def Hw.countFault (hw : Hw) (f : FaultInfo) : Hw × Bool :=
  let now := hw.tb.now
  let inSq : Nat → Hw × Bool := fun i => match f.sq with
    | some s =>
      let r := addTransient (mget [] (hw.sqOf s).flt.trans i) now
      (hw.modFlt s fun q => { q with trans := mset q.trans i r.1 }, r.2)
    | none => (hw, false)
  if f.perm then (hw, true)
  else if f.charged then (hw, false)
  else match f.charge with
    | .none | .bank | .unit => (hw, false)
    | .slot p => inSq p
    | .router => inSq 19
    | .square => inSq 20
    | .link n =>
      let r := addTransient (hw.linkOf n).trans now
      (hw.modLink n fun l => { l with trans := r.1 }, r.2)

/-- The transient and permanent bits of ACTION (09/T9-8): a bank is never a counted transient (09/R316). -/
def Charge.action (c : Charge) (perm : Bool) : Nat :=
  match c, perm with
  | .none, _ => 0
  | _, true => 32
  | .bank, false | .unit, false => 0
  | .slot _, false | .router, false | .square, false | .link _, false => 16

/-- A unit is permanent: what is fenced, and when (09/R317). A link port is taken down by `jobFault`. -/
def Hw.markPermanent (hw : Hw) (f : FaultInfo) : Hw :=
  match f.sq, f.charge with
  | some s, .slot p =>
    if (hw.sqOf s).shadow = p then hw.modFlt s fun q => { q with shadowOut := true }
    else hw.modFlt s fun q => { q with fenceAt2 := sins q.fenceAt2 p }
  | some s, .router => hw.modFlt s fun q => { q with fenceRt := true }
  | some s, .square => hw.modFlt s fun q => { q with fenceSq := true }
  | _, _ => hw

/-! ### Restart and stop (09/R320, R321, R332, R336). -/

/-- The weights of a square's consolidation go back at the stop of its job; a record of it that cannot be read is a detector firing,
which stops nothing more (09/R307, R321). -/
def Hw.weightsBack (hw : Hw) (j s : Nat) : Hw :=
  let hw := match (if hw.consolidates j s then hw.wnBad s else none) with
    | some f => (hw.pathDrop { f with sq := some s }).faultRecord { f with job := some j, sq := some s, action := 8 }
    | none => hw
  hw.wnBackAll s

/-- A job stops without restart: the weights go back, a record says so, and its task ends FAILED (09/R321). -/
def Hw.stopJob (hw : Hw) (j st det : Nat) : Hw :=
  let hw := forAll (hw.jobSqs j) (fun s h => h.weightsBack j s) hw
  let hw := if det = 0 then hw else hw.faultRecord { det := det, status := st, action := 8, job := some j }
  hw.taskEnd (hw.jobOf j).tid st

/-- The ports of a job's tree. -/
def Hw.treePorts (hw : Hw) (j : Nat) : List Nat :=
  (if hw.parentOf j < 6 then [hw.parentOf j] else []) ++ hw.childrenOf j

/-- Step 1 of a restart (09/T9-5, R336): the squares stop, what the tree has reported is void, and RESTART names the point that the
module will restore on every tree port but `except`. -/
def Hw.beginRestart (hw : Hw) (j st : Nat) (cause : Option Cause) (except : Option Nat) (link : Bool) : Hw :=
  let job := hw.jobOf j
  let flip := link || (job.restart.any fun r => r.flip)
  let named := match job.restart with | some r => r.named | none => none
  let hw := hw.modJob j fun k => { k with
    restart := some { step := 1, at_ := hw.elapsed, named := named, flip := flip }
    rstCount := satAdd 0xFFFF k.rstCount 1, rstLast := st, noSnap := satAdd 15 k.noSnap 1, recovery := true
    cause := cause, injected := false
    closedSq := [], doneSq := [], closedCh := [], doneCh := [], sentUp := false, sentDone := false, gClosed := false, gNext := false
    gDone := false }
  let hw := { hw with bring := { hw.bring with pass := sdel hw.bring.pass j } }
  let hw := forAll (hw.jobSqs j) (fun s h => h.setPoint s 0) hw
  if job.fabric then
    ((hw.treePorts j).filter fun p => some p != except).foldl (fun h p => h.sendCtrl p (ctrlWord 5 j (named.getD job.snapT))) hw
  else hw

/-- A detector fires (09/R304): outside a running job a record; in one, the restart path or the stop of the job. -/
def Hw.jobFaultCore (hw : Hw) (f : FaultInfo) (link : Bool := false) : Hw × Bool :=
  match f.job with
  | none => (hw.faultRecord f, false)
  | some j =>
    let job := hw.jobOf j
    if !job.active then (hw.faultRecord { f with job := none }, false)
    else if f.det = 0x11 ∨ f.det = 0x19 then ((hw.faultRecord { f with action := 8 }).stopJob j f.status 0, false)
    else
      let c := hw.countFault f
      let here : Cause := ⟨f.status, f.sq, job.tempo⟩
      let again := job.cause == some here
      let perm := c.2 || (again && f.charge != .none)
      let acts := f.charge.action perm
      let hw := if perm then c.1.markPermanent f else c.1
      let stop := (again && f.charge == .none) || decide (hw.flt.maxRst ≤ job.noSnap) || job.jfull
      if f.det = 0x09 then (hw.faultRecord { f with action := acts }, perm)
      else
        let fence := match f.charge with
          | .slot _ => if perm then 2 else 0
          | .router | .square => if perm then 4 else 0
          | _ => 0
        let hw := hw.faultRecord { f with action := acts + fence + (if stop then 8 else 1) }
        if stop then (hw.stopJob j f.status 0x1A, perm) else (hw.beginRestart j f.status (some here) none link, perm)

/-- FL_STATUSn (06/T6-28). -/
def Link.status (l : Link) : Nat :=
  b2n l.up + 2 * b2n l.spareUsed + 4 * b2n l.downEvt + l.cause % 8 * 8 + l.credits % 1024 * 2 ^ 16

/-- A link port goes down (06/R233): the replay buffer is discarded and the change is signalled. -/
def Hw.linkOff (hw : Hw) (n cause : Nat) : Hw :=
  let was := (hw.linkOf n).up
  let hw := hw.modLink n fun l => { l with
    up := false, downEvt := l.downEvt || l.up, cause := if l.up then cause else l.cause, credits := 0, replay := []
    resendAt := none, resends := [], nakOwed := false, ackOwed := false, lastSent := none, training := false }
  if was then
    ((hw.rise (.link n) 4).irq (192 + n)).noteBoth ⟨0x0B, 0, n, hw.tb.now, (hw.linkOf n).status, []⟩
  else hw

/-- LINK_DOWN (06/R237): every marked running job takes the restart path, an armed version flips in at its fence step; without
one the detector writes a record (09/R304). A port that this makes permanent is down with CAUSE 3 (09/R317). -/
def Hw.linkDown (hw : Hw) (n cause : Nat) (quiet : Option Nat := none) : Hw :=
  let was := (hw.linkOf n).up
  let hw := hw.linkOff n cause
  if was then
    let hit : Nat → Hw → Bool := fun j h => (h.jobOf j).active && (hw.linkOf n).jobs.testBit j && quiet != some j
    let f : FaultInfo := { det := 0x0E, status := stCLOSEMM, detail := n }
    match firstOf [0, 1, 2, 3] fun j => hit j hw with
    | none => hw.faultRecord { f with job := quiet }
    | some _ =>
      let c := hw.countFault f
      let r := [0, 1, 2, 3].foldl (fun (x : Hw × Bool) j =>
        if hit j x.1 then
          let y := x.1.jobFaultCore { f with job := some j, charged := true, perm := c.2 } true
          (y.1, x.2 || y.2)
        else x) c
      if r.2 then r.1.modLink n fun l => { l with cause := 3 } else r.1
  else hw

/-- FL_CTL.EN of a port becomes 0: a link that is up goes down with CAUSE 4, and no attempt to train goes on (06/R233, 13/R438). -/
def Hw.linkDisable (hw : Hw) (n : Nat) : Hw := (hw.linkDown n 4).modLink n fun l => { l with en := false, training := false }

/-- A link port found permanent is taken down with CAUSE 3 (09/R317). -/
def Hw.portOut (hw : Hw) (c : Charge) (perm : Bool) : Hw :=
  match c with
  | .link n => if perm then hw.linkDown n 3 else hw
  | .none | .slot _ | .router | .square | .bank | .unit => hw

/-- A detector fires. -/
def Hw.jobFault (hw : Hw) (f : FaultInfo) : Hw :=
  let r := (hw.pathDrop f).jobFaultCore f
  r.1.portOut f.charge r.2

/-- A detector fires whose outcome is that of the request it answers (06/T6-3): the fault is counted in a running job, and a
record is written; nothing restarts. -/
def Hw.requestFault (hw : Hw) (f : FaultInfo) : Hw :=
  let c := if f.job.isSome then hw.countFault f else (hw, false)
  let hw := if c.2 then c.1.markPermanent f else c.1
  (hw.faultRecord { f with action := if f.job.isSome then f.charge.action c.2 else 0 }).portOut f.charge c.2

/-- A packet fails its parity at the memory agent or the proxy of square s, a request of R194 (06/T6-3, 09/T9-1 0x02). -/
def Hw.packetFault (hw : Hw) (s : Nat) (p : Packet) : Hw :=
  hw.requestFault { det := 0x02, status := stPARITY, job := hw.jobOfSq s, sq := some s, link := p.link }

/-- A fault found while a square works on tempo t takes the restart path (04/R156, 09/R304). -/
def Hw.found (hw : Hw) (s : Nat) (f : FaultInfo) : Hw := hw.jobFault { f with job := hw.jobOfSq s, sq := some s }

/-! ### Reads of a check or an engine, each an address and a length. -/

/-- The bank groups of square s that reads meet. -/
def groupsRead (s : Nat) (rs : List (Nat × Nat)) : List Nat :=
  (List.range 28).filter fun g =>
    let b := bankRange s g
    rs.any fun r => decide (0 < r.2 ∧ r.1 < b.1 + b.2 ∧ b.1 < r.1 + r.2)

/-- What keeps a reader from its words: a bank group that is OFF (12/R396), or an uncorrectable word (12/R404). -/
def Hw.readStatus (hw : Hw) (s : Nat) (rs : List (Nat × Nat)) : Nat :=
  let q := hw.sqOf s
  if (List.range 28).any (fun g => (q.bankOf g).isOff) && (groupsRead s rs).any fun g => (q.bankOf g).isOff then stABSENT
  else if !hw.banks.poison.isEmpty && rs.any fun r => hw.hasPoison r.1 r.2 then stECC
  else stOK

/-- The bank groups that reads meet come ON first (12/R396). -/
def Hw.readBanks (hw : Hw) (s : Nat) (rs : List (Nat × Nat)) : Hw :=
  if (hw.sqOf s).asleep (List.range 28) = [] then hw else hw.useBanks s (groupsRead s rs)

/-- A reader in square s, other than the work of a tempo, makes its reads: bank groups come ON, and each word that is handed over with bad
path parity fires the detector (09/R304, R306). Such a word is not uncorrectable, and the reader's own status names no path parity:
it reads the word again (DESIGN CHOICE, log 197). -/
def Hw.checkReads (hw : Hw) (s : Nat) (rs : List (Nat × Nat)) : Hw :=
  let hw := hw.readBanks s rs
  let met := hw.banks.path.filter fun w => rs.any fun r => decide (w * 8 < r.1 + r.2 ∧ r.1 < w * 8 + 8)
  met.foldl (fun (h : Hw) w => match h.eccAt (w * 8) 8 with
    | some f => if f.det = 0x04 then h.found s f else h
    | none => h) hw

end Sys2Proof.Machine
end

