-- ==== Sys2Proof/Machine/LaneOps.lean ====
section
/-! DEFINITION. Lanes of a link port: the spare, failures and retraining in service; enabling a port and its training
(06/R230, R233, 13/R437 to R440). -/

namespace Sys2Proof.Machine

/-- Physical lane of logical lane i (06/T6-30). -/
def Link.laneOf (l : Link) (i : Nat) : Nat := mget i l.lane i

/-- The physical lane that is spare: not failed, and carrying no logical lane. While a lane retrains it is none (13/R439). -/
def Link.spare (l : Link) : Option Nat :=
  if l.rtRun then none
  else firstOf [0, 1, 2, 3, 4] fun p => !l.failed.contains p && !([0, 1, 2, 3].any fun i => l.laneOf i == p)

/-- Logical lanes that failed lanes carry move to the spare while there is one (06/R230, 13/R437 step 4). -/
def Link.cover (l : Link) : Link :=
  (List.range 4).foldl (fun (l : Link) i =>
    if l.failed.contains (l.laneOf i) then
      match l.spare with
      | some p => { l with lane := mset l.lane i p, spareUsed := true }
      | none => l
    else l) l

/-- Lanes of a port are found bad (13/R427, R437). -/
def Link.found (l : Link) (bad : List Nat) : Link := { l with failed := bad.foldl sins l.failed }.cover

/-- Steps 1 and 2 of 13/R439: logical lane i moves to the spare, and the freed lane retrains. -/
def Hw.laneRetrain (hw : Hw) (n i : Nat) : Hw :=
  match (hw.linkOf n).spare with
  | none => hw
  | some p => hw.modLink n fun l => { l with
      rtRun := true, rtLane := i, rtPhys := l.laneOf i, rtAt := hw.elapsed, lane := mset l.lane i p, spareUsed := true }

/-- GO (13/R439, R440): refused while a retrain runs, no spare is left or the link is not up. -/
def Hw.laneGo (hw : Hw) (n i : Nat) : Hw × Nat :=
  let l := hw.linkOf n
  if l.rtRun || l.spare.isNone || !l.up then (hw, stBUSY) else (hw.laneRetrain n i, stOK)

/-- The retrain of a port ends: passed, or failed (13/R439 steps 3 and 4). Automatic triggers that waited
run next, one by one; without a spare lane they change nothing (13/R440). -/
def Hw.laneRetrainEnd (hw : Hw) (n : Nat) (ok : Bool) : Hw :=
  let l := hw.linkOf n
  if !l.rtRun then hw
  else
    let hw := hw.modLink n fun l =>
      if ok then { l with rtRun := false, rtOk := true, spareUsed := false }
      else { l with rtRun := false, rtFail := true, failed := sins l.failed l.rtPhys, spareUsed := true }
    let hw := hw.rise (.retrain n) (if ok then 16 else 32)
    let hw := if ok then hw else (hw.stick1 (2 ^ n)).irq (192 + n)
    match (hw.linkOf n).rtWait with
    | i :: rest =>
      let go := (hw.linkOf n).up && (hw.linkOf n).spare.isSome
      let hw := hw.modLink n fun l => { l with rtWait := if go then rest else [] }
      if go then hw.laneRetrain n i else hw
    | [] => hw

/-- Lane errors over a window of 1 ms (13/R439, R440): a trigger during a retrain waits; without a spare it changes nothing. -/
def Hw.laneErrors (hw : Hw) (n i errs : Nat) : Hw :=
  let l := hw.linkOf n
  if errs < hw.fitLane ∨ !l.up then hw
  else if l.rtRun then hw.modLink n fun l => { l with rtWait := if l.rtWait.contains i then l.rtWait else l.rtWait ++ [i] }
  else hw.laneRetrain n i

/-- An active lane fails (06/R230): its traffic moves to the spare, or the link goes down with cause 3. -/
def Hw.laneFail (hw : Hw) (n phys : Nat) : Hw :=
  let l := hw.linkOf n
  match firstOf [0, 1, 2, 3] fun i => l.laneOf i == phys with
  | none => hw.modLink n fun l => { l with failed := sins l.failed phys }
  | some i =>
    match l.spare with
    | some p => (hw.modLink n fun l =>
        { l with failed := sins l.failed phys, lane := mset l.lane i p, spareUsed := true }).stick1 (2 ^ n)
    | none => ((hw.modLink n fun l => { l with failed := sins l.failed phys }).stick1 (2 ^ n)).linkDown n 3

/-- FL_CTL_WRITE (06/R233, T6-27, 13/R437, R438): EN = 1 trains the port; a port found unusable ends with cause 3,
and one in RETAIN or OFF trains once its domain is ON. -/
def Hw.linkCtl (hw : Hw) (n v : Nat) : Hw :=
  let hw := hw.modLink n fun l => { l with jobs := fld v 7 4 }
  if v.testBit 0 then
    let l := hw.linkOf n
    if l.failed.length ≥ 2 then hw.modLink n fun l => { l with en := true, cause := 3 }
    else if l.up || l.training then hw.modLink n fun l => { l with en := true }
    else if hw.isOn (domLink n) then hw.modLink n fun l => { l with en := true, training := true }
    else (hw.modLink n fun l => { l with en := true }).wakeDom (domLink n)
  else hw.linkDisable n

/-- FL_LANEn (06/T6-30). -/
def Link.laneWord (l : Link) : Nat :=
  l.laneOf 0 + l.laneOf 1 * 8 + l.laneOf 2 * 64 + l.laneOf 3 * 512 + maskOf 5 l.failed * 2 ^ 12

/-- FL_LCTLn (13/T13-18). -/
def Link.lctlWord (l : Link) : Nat := 8 * b2n l.rtRun + 16 * b2n l.rtOk + 32 * b2n l.rtFail

/-- WORST of FL_FITn: the most CRC failures in any of the last 10 windows (13/T13-19). -/
def Link.worst (l : Link) : Nat := Nat.min (l.fitHist.foldl Nat.max 0) 65535

/-- The port is fit (13/R441). -/
def Hw.linkFit (hw : Hw) (n : Nat) : Bool := (hw.linkOf n).up && decide ((hw.linkOf n).worst < hw.fitCrc)

end Sys2Proof.Machine
end

