-- ==== Sys2Proof/Machine/SeqRegs.lean ====
section
/-! DEFINITION. Tempo times of a job, doorbells of the sequencer, and the SEQ block's registers (02/R68 to R70, R86, R87,
08/R281, R301, Table 8-11). -/

namespace Sys2Proof.Machine

/-- A value of the 64-bit timebase. -/
def asTime (x : Int) : Nat := toField 64 x

/-- E_T, the nominal end of tempo T (02/R68). -/
def Job.nominalEnd (k : Job) (t : Nat) : Int := k.origin + ((t + 1) * k.period : Nat)

/-- C_T, the input cutoff of tempo T (02/R49, R68): A + T × P. -/
def Job.cutoff (k : Job) (t : Nat) : Int := k.origin + (t * k.period : Nat)

/-- Lateness at a moment d of tempo T: max(0, d − E_T) (02/R69). -/
def Job.lateAt (k : Job) (t d : Nat) : Nat := ((d : Int) - k.nominalEnd t).toNat

/-- Lateness above the job's bound, which is in units of P / 16 (02/R70). -/
def Job.isLate (k : Job) (n : Nat) : Bool := decide (k.bound * k.period < 16 * n)

/-- The lateness of the running tempo (02/R69). -/
def Hw.lateness (hw : Hw) (j : Nat) : Nat :=
  let k := hw.jobOf j
  if k.active ∧ k.released then k.lateAt k.tempo hw.tb.now else 0

/-! ### Doorbells (08/R301). -/

/-- The running DOORBELL task that waits on doorbell n, the lowest TID first. -/
def Hw.dbTask (hw : Hw) (n : Nat) : Option Nat :=
  (hw.seq.tasks.find? fun p => p.2.state == .running && p.2.ty == tyDoorbell && p.2.param 0 1 == n).map (·.1)

/-- A pending doorbell is consumed by the DOORBELL task that waits on it. One that was rung again in the same cycle stays pending
(00/R15). -/
def Hw.dbConsume (hw : Hw) (n : Nat) : Hw :=
  if hw.seq.dbPend.testBit n then
    match hw.dbTask n with
    | some t =>
      let hw := if (hw.rose .ring).testBit n then hw else { hw with seq := { hw.seq with dbPend := hw.seq.dbPend - 2 ^ n } }
      hw.taskEnd t stOK
    | none => hw
  else hw

/-- Ring doorbells, as SEQ_RING and DOORBELL_RING do; a new ring is the doorbell wake of 08/R298. -/
def Hw.ring (hw : Hw) (m : Nat) : Hw :=
  let m := m % 2 ^ 32
  let fresh := m - (m &&& hw.seq.dbPend)
  let hw := (({ hw with seq := { hw.seq with dbPend := hw.seq.dbPend ||| m } } : Hw).rise .dbPend m).rise .ring (m &&& hw.seq.dbPend)
  let hw := if fresh = 0 then hw else hw.wakeSet 1
  (ofMask 32 m).foldl (fun h n => h.dbConsume n) hw

/-! ### Registers (02/T2-8 to T2-13, 08/T8-11). -/

def Job.statusWord (k : Job) (late : Bool) : Nat :=
  k.phase % 4 + 4 * b2n k.recovery + 8 * b2n late + 16 * b2n k.held + 32 * b2n k.overrun

def Job.idWord (k : Job) : Nat := k.jobId + k.tid * 2 ^ 32 + b2n k.active * 2 ^ 44

/-- The 64-bit registers of the block. -/
def Hw.seqReg64 (hw : Hw) (off : Nat) : Option Nat :=
  if 0x40 ≤ off ∧ off < 0x60 ∧ off % 8 = 0 then some (hw.jobOf ((off - 0x40) / 8)).idWord
  else if 0x100 ≤ off ∧ off < 0x180 ∧ off % 0x20 = 0x10 then some (hw.jobOf ((off - 0x100) / 0x20)).tempo
  else if 0x100 ≤ off ∧ off < 0x180 ∧ off % 0x20 = 0x18 then some (asTime (hw.jobOf ((off - 0x100) / 0x20)).origin)
  else if 0x8000 ≤ off ∧ off < 0x10000 ∧ off % 8 = 0 then
    some (match hw.taskOf ((off - 0x8000) / 8) with | some k => k.record | none => 0)
  else none

def Hw.seqRead (hw : Hw) (off : Nat) : Nat :=
  if 0x100 ≤ off ∧ off < 0x180 then
    let j := (off - 0x100) / 0x20
    let k := hw.jobOf j
    match off % 0x20 with
    | 0x00 => k.period
    | 0x04 => k.boundNext
    | 0x08 => k.statusWord (k.isLate (hw.lateness j))
    | 0x0C => Nat.min (hw.lateness j) 0xFFFFFFFF
    | _ => 0
  else match off with
    | 0x00 => b2n hw.seq.run
    | 0x04 =>
      hw.seq.tasks.length + (hw.seq.tasks.filter fun p => p.2.state == .ready).length * 2 ^ 13
        + maskOf 4 ([0, 1, 2, 3].filter fun j => (hw.jobOf j).active) * 2 ^ 26
    | 0x08 => hw.seq.dbPend
    | 0x0C => hw.seq.dbPend
    | _ => 0

def Hw.seqWrite (hw : Hw) (off v : Nat) : Hw :=
  if 0x100 ≤ off ∧ off < 0x180 then
    let j := (off - 0x100) / 0x20
    let k := hw.jobOf j
    match off % 0x20 with
    | 0x00 =>
      let p := fld v 26 0
      if k.active ∨ p < 25000 ∨ 100000000 < p then hw else hw.modJob j fun k => { k with period := p }
    | 0x04 =>
      let b := fld v 15 0
      if b = 0 then hw
      else hw.modJob j fun k => { k with boundNext := b, bound := if k.active then k.bound else b }
    | 0x08 => let v := hw.clears (.tempo j) v; hw.modJob j fun k => { k with overrun := k.overrun && !(v.testBit 5) }
    | _ => hw
  else match off with
    | 0x00 => { hw with seq := { hw.seq with run := v.testBit 0 } }
    | 0x08 => hw.ring v
    | 0x0C => { hw with seq := { hw.seq with dbPend := hw.seq.dbPend - (hw.seq.dbPend &&& (hw.clears .dbPend v % 2 ^ 32)) } }
    | _ => hw

end Sys2Proof.Machine
end

