-- ==== Sys2Proof/Machine/Queues.lean ====
section
/-! DEFINITION. Hardware queues and send channels: the reader and sender operations, QUEUE and QSTAT packets (07/R239 to
R251, Tables 7-1 and 7-2). -/

namespace Sys2Proof.Machine

/-- QIX of a queue (07/R239). -/
def qixOf (l q : Nat) : Nat := 4 * l + q

/-- FILL of a queue. -/
def Queue.fill (q : Queue) : Nat := q.valid.length

/-- Send a QSTAT for queue q of core L to its bound sender (07/R244). -/
def Hw.qstat (hw : Hw) (s l q st freed : Nat) : Hw :=
  let k := hw.queueOf s l q
  hw.injectAt s [mkQstat hw k.smod k.ssq k.score l st (qixOf l q) k.gen freed]

/-- ROPEN (07/T7-1): a new generation, every slot invalid, and the announcement to the bound sender. -/
def Hw.ropen (hw : Hw) (s l q : Nat) : Hw :=
  let hw := hw.modQueue s l q fun k =>
    { k with gen := (k.gen + 1) % 256, valid := [], rptr := 0, freed := 0, open_ := true }
  if (hw.queueOf s l q).bound then hw.qstat s l q stOK 0 else hw

/-- Write D of a waiting or finished SEND or RECV and go on to the next word (07/T7-4, R252). -/
def Hw.cpDone (hw : Hw) (s l d st : Nat) : Hw :=
  let p := hw.cpOf s l
  let p' := { p with w := mset p.w d (st : Int), f := st == 0, wait := none }
  if p.pc + 1 < p.len then hw.modCp s l fun _ => { p' with pc := p.pc + 1 }
  else (hw.modCp s l fun _ => { p' with run := false }).irq (96 + s)

/-- The credit QSTAT of 07/R246 after a RECV; `was` is FILL before it. With BOUND = 0, which ROPEN announces to none, it goes to the
sender that the fields name all the same, as a rejection does: DESIGN CHOICE, log 203. -/
def Hw.credit (hw : Hw) (s l q was : Nat) : Hw :=
  let k := hw.queueOf s l q
  if k.freed = 16 ∨ k.fill = 0 ∨ was = 256 then
    (hw.qstat s l q stOK k.freed).modQueue s l q fun k => { k with freed := 0 }
  else hw

/-- A SEND or RECV that reads an uncorrectable word: the word is never used, so nothing is sent or stored, and the operation ends
with ECC_UNCORR (09/R307, 12/R404, log 70). -/
def Hw.cpUnread (hw : Hw) (s l d a : Nat) : Hw := (hw.jobFault (hw.eccInfo s a 16)).cpDone s l d (hw.badStatus a 16)

/-- RECV takes the slot at RPTR (07/R251, R254): the copy follows the rules of host writes. Square memory that is OFF answers
ABSENT (12/R396, log 196). -/
def Hw.recvTake (hw : Hw) (s l q d off : Nat) : Hw :=
  let k := hw.queueOf s l q
  let a := sqMem s + k.buf * 4096 + 16 * k.rptr
  let gone := hw.memOff s
  let hw := hw.useBanks s [19]
  if gone then hw.cpDone s l d stABSENT
  else if !(hw.hostWriteOk s (0x3000000 + off)) then hw.cpError s l stBUSY
  else if hw.poisoned a 16 then hw.cpUnread s l d a
  else
    let hw := hw.wrWhole (sqMem s + off) (hw.rd a 16)
    let hw := hw.modQueue s l q fun k =>
      { k with valid := sdel k.valid k.rptr, rptr := (k.rptr + 1) % 256, freed := k.freed + 1 }
    (hw.credit s l q k.fill).cpDone s l d stOK

/-- The operation waits from now on, for at most CP_TMO compute cycles (07/R250). -/
def Hw.cpWait (hw : Hw) (s l : Nat) (w : CpWait) : Hw :=
  let now := ((hw.sqOf s).account hw.elapsed).clock
  hw.modCp s l fun p => { p with wait := some w, waitAt := now, waitN := p.tmo }

/-- RECV resolves or waits (07/R251). -/
def Hw.recvTry (hw : Hw) (s l q d off : Nat) : Hw :=
  let k := hw.queueOf s l q
  if k.valid.contains k.rptr then hw.recvTake s l q d off
  else if !k.open_ then hw.cpDone s l d stCLOSED
  else hw.cpWait s l (.recv q d off)

/-- A waiting RECV on queue q of core L looks again (07/R251). -/
def Hw.recvWake (hw : Hw) (s l q : Nat) : Hw :=
  match (hw.cpOf s l).wait with
  | some (.recv q' d off) =>
    if q' = q then
      let k := hw.queueOf s l q
      if k.valid.contains k.rptr then hw.recvTake s l q d off
      else if !k.open_ then hw.cpDone s l d stCLOSED else hw
    else hw
  | _ => hw

/-- RCLOSE (07/T7-1): a waiting RECV ends with CLOSED; valid slots stay readable. -/
def Hw.rclose (hw : Hw) (s l q : Nat) : Hw :=
  (hw.modQueue s l q fun k => { k with open_ := false }).recvWake s l q

/-- SOPEN (07/R248): the channel and the status returned. -/
def SendCh.sopen (c : SendCh) : SendCh × Nat :=
  if c.rvalid then
    ({ c with gen := c.rgen, wptr := 0, credits := 256, rej := 0, rvalid := false, open_ := true }, stOK)
  else (c, stCLOSED)

def Hw.sopen (hw : Hw) (s l c : Nat) : Hw := hw.modSend s l c fun k => k.sopen.1

/-- SCLOSE (07/R248). -/
def Hw.sclose (hw : Hw) (s l c : Nat) : Hw := hw.modSend s l c fun k => { k with open_ := false }

/-- Issue the message of a SEND that has a credit (07/R249 step 3). Square memory that is OFF answers ABSENT (12/R396, log 196). -/
def Hw.sendIssue (hw : Hw) (s l c d off : Nat) : Hw :=
  let k := hw.sendOf s l c
  let a := sqMem s + off
  let gone := hw.memOff s
  let hw := hw.useBanks s [19]
  if gone then hw.cpDone s l d stABSENT
  else if hw.poisoned a 16 then hw.cpUnread s l d a
  else
    let p := mkQueue hw k.dmod k.dsq (qixOf k.dcore k.dq) k.wptr k.gen l (hw.rdN a 16)
    let hw := hw.injectAt s [{ p with home := some s }]
    (hw.modSend s l c fun k => { k with credits := k.credits - 1, wptr := (k.wptr + 1) % 256 }).cpDone s l d stOK

/-- The square may issue new requests: not while it drains or is absent (06/R228). -/
def Hw.mayIssue (hw : Hw) (s : Nat) : Bool := (hw.rtOf s).state == .normal || (hw.rtOf s).state == .sink

/-- SEND resolves or waits (07/R249). -/
def Hw.sendTry (hw : Hw) (s l c d off : Nat) : Hw :=
  let k := hw.sendOf s l c
  if !k.open_ then hw.cpDone s l d stCLOSED
  else if k.rej ≠ 0 then hw.cpDone s l d k.rej
  else if hw.mayIssue s && decide (0 < k.credits) then hw.sendIssue s l c d off
  else hw.cpWait s l (.send c d off)

/-- A waiting SEND looks again, by steps 2 and 3 of 07/R249. -/
def Hw.sendWake (hw : Hw) (s l c : Nat) : Hw :=
  match (hw.cpOf s l).wait with
  | some (.send c' d off) =>
    if c' = c then
      let k := hw.sendOf s l c
      if k.rej ≠ 0 then hw.cpDone s l d k.rej
      else if hw.mayIssue s && decide (0 < k.credits) then hw.sendIssue s l c d off else hw
    else hw
  | _ => hw

/-- RXERR of a queue is set (07/T7-2). -/
def Hw.queueErr (hw : Hw) (s l q : Nat) : Hw := (hw.modQueue s l q fun k => { k with rxerr := true }).rise (.queue s l q) (2 ^ 26)

/-- The sticky bit that a rejection sets (07/R247, T7-11), and its place. -/
def stickBit (st : Nat) : Nat :=
  if st = stCLOSED then 2 ^ 16 else if st = stSTALE then 2 ^ 17 else if st = stABSENT then 2 ^ 18
  else if st = stPARITY then 2 ^ 19 else if st = stBADPARAM then 2 ^ 20 else 0

def SendCh.stick (c : SendCh) (st : Nat) : SendCh :=
  if st = stCLOSED then { c with sClosed := true }
  else if st = stSTALE then { c with sStale := true }
  else if st = stABSENT then { c with sAbsent := true }
  else if st = stPARITY then { c with sParity := true }
  else if st = stBADPARAM then { c with sBadp := true }
  else c

/-- A send channel handles a QSTAT: status, generation, FREED (07/R247). -/
def SendCh.onQstat (c : SendCh) (st gen freed : Nat) : SendCh :=
  let c := { c with rgen := gen }
  if st ≠ stOK then
    let c := c.stick st
    if c.rej = 0 then { c with rej := st } else c
  else if freed = 0 then
    let c := { c with rvalid := true }
    if c.open_ ∧ c.gen ≠ gen ∧ c.rej = 0 then { c with rej := stSTALE, sStale := true } else c
  else if c.open_ ∧ c.gen = gen then
    { c with credits := if c.credits + freed < 256 then c.credits + freed else 256 }
  else c

/-- The sticky bit that a QSTAT sets. -/
def SendCh.qstatBit (c : SendCh) (st gen freed : Nat) : Nat :=
  if st ≠ stOK then stickBit st else if freed = 0 ∧ c.open_ ∧ c.gen ≠ gen ∧ c.rej = 0 then 2 ^ 17 else 0

/-- The sticky bits of a channel, S_CLOSED in bit 0 (07/T7-11). -/
def SendCh.stickyBits (c : SendCh) : Nat :=
  b2n c.sClosed + 2 * b2n c.sStale + 4 * b2n c.sAbsent + 8 * b2n c.sParity + 16 * b2n c.sBadp

/-- The channels of core L of square s that name a queue (07/R247): DCORE and QIX, QIX = 4 × core + q. -/
def Hw.chansFor (hw : Hw) (s l rcore qix : Nat) : List Nat :=
  [0, 1, 2, 3].filter fun c =>
    let k := hw.sendOf s l c
    qixOf k.dcore k.dq == qix && k.dcore == rcore

/-- Send channel c of core L takes a QSTAT, whose parity `ok` says (07/R247). -/
def Hw.chanQstat (hw : Hw) (s l : Nat) (p : Packet) (ok : Bool) (c : Nat) : Hw :=
  let k := hw.sendOf s l c
  let st := if ok then p.y 7 0 else stPARITY
  let gen := if ok then p.y 23 16 else k.rgen
  let u := k.onQstat st gen (p.y 31 24)
  let hw := (hw.modSend s l c fun _ => u).rise (.send s l c) (k.qstatBit st gen (p.y 31 24))
  (if u.stickyBits ≠ k.stickyBits then hw.irq (96 + s) else hw).sendWake s l c

/-- A QSTAT reaches the sending core (07/R247); with a parity failure the request completes with PARITY (06/T6-3). It changes
every channel of the core that it names; one that names no core of the square changes none. -/
def Hw.takeQstat (hw : Hw) (s : Nat) (p : Packet) : Hw :=
  let l := p.addr % 32
  let hw := if p.parOk then hw else hw.packetFault s p
  if l < 18 then (hw.chansFor s l p.src (p.y 14 8)).foldl (fun (h : Hw) c => h.chanQstat s l p p.parOk c) hw else hw

/-- The QSTAT that answers a QUEUE packet away from its receiving square goes to the sending square (06/T6-4). A packet from
another module does not say which that is: it is the sender that the queue is bound to (`bound`), where the answering unit still
holds it, else a free value; so is a GEN that the unit does not hold (`gen`; log 14). -/
def Hw.queueBack (hw : Hw) (s : Nat) (p : Packet) (st : Nat) (gen : Option Nat := none) (bound : Option (Nat × Nat) := none) : Hw :=
  let v := Config.freeValue hw.fresh
  let hw := { hw with fresh := hw.fresh + 1 }
  let qix := fld p.addr 14 8
  let dst : Nat × Nat := match p.home with
    | some h => (hw.rt.moduleId, h)
    | none => bound.getD (fld v 11 8, fld v 17 12)
  hw.injectAt s [mkQstat hw dst.1 dst.2 p.src (qix / 4) st qix (gen.getD (v % 256)) 0]

/-- ABSENT for a QUEUE packet that names a queue of square s, from the square or its proxy (06/R227, 07/R239, R245). The router
holds the GEN of each queue there is (07/R243). -/
def Hw.queueAbsent (hw : Hw) (s : Nat) (p : Packet) : Hw :=
  let qix := fld p.addr 14 8
  if qix / 4 < 18 then
    let k := hw.queueOf s (qix / 4) (qix % 4)
    hw.queueBack s p stABSENT (some k.gen) (if k.bound then some (k.smod, k.ssq) else none)
  else hw.queueBack s p stABSENT

/-- A rejection QSTAT of the receiving square answers a QUEUE packet, to the bound sender of Q_CFGq (07/R244). -/
def Hw.rejectQueue (hw : Hw) (s : Nat) (p : Packet) (st : Nat) : Hw :=
  let qix := fld p.addr 14 8
  let k := hw.queueOf s (qix / 4) (qix % 4)
  hw.injectAt s [mkQstat hw k.smod k.ssq k.score (qix / 4) st qix k.gen 0]

/-- A square takes a QUEUE packet: the checks of Table 7-2 in order (07/R245). Its rejections go to the bound sender (R244); where
there is none, or the router is ABSENT or in SINK, the ABSENT goes to the sender of the packet (06/T6-4). A message that passes and
whose place in square memory is OFF is rejected with ABSENT (12/R396). -/
def Hw.takeQueue (hw : Hw) (s : Nat) (p : Packet) : Hw :=
  let qix := fld p.addr 14 8
  let l := qix / 4
  let q := qix % 4
  let sqr := hw.sqOf s
  let k := hw.queueOf s l q
  let rec_ : Hw → Hw := fun h => h.faultRecord { det := 0x16, sq := some s, core := l }
  if 18 ≤ l ∨ 19 ≤ sqr.slotFor l ∨ sqr.rt.state = .absent ∨ sqr.rt.state = .sink then hw.queueAbsent s p
  else if sqr.rt.state = .draining then (if k.bound then hw.rejectQueue s p stABSENT else hw.queueAbsent s p)
  else if !p.parOk then
    rec_ ((hw.rejectQueue s p stPARITY).rclose s l q)
  else if !k.bound ∨ p.src ≠ k.score then
    rec_ ((hw.queueErr s l q).irq (96 + s))
  else if !k.open_ then hw.rejectQueue s p stCLOSED
  else if p.qgen ≠ k.gen then hw.rejectQueue s p stSTALE
  else
    let slot := fld p.addr 7 0
    if k.valid.contains slot then
      ((hw.rejectQueue s p stBADPARAM).queueErr s l q).irq (96 + s)
    else if hw.memOff s then hw.rejectQueue s p stABSENT
    else
      let a := sqMem s + k.buf * 4096 + 16 * slot
      let hw := hw.wrWhole a (leBytes 16 p.pay.toNat)
      (hw.modQueue s l q fun k => { k with valid := sins k.valid slot }).recvWake s l q

/-- A square reset, LOAD_SQUARE or DRAIN_SQUARE closes every queue; generations stay (07/T7-1, R243). -/
def Queue.closeAll (k : Queue) : Queue := { k with open_ := false, valid := [] }

def Hw.closeQueues (hw : Hw) (s : Nat) : Hw :=
  forAll (List.range 18) (fun l h => forAll [0, 1, 2, 3] (fun q h =>
    (h.modQueue s l q Queue.closeAll).recvWake s l q) h) hw

end Sys2Proof.Machine
end

