-- ==== Sys2Proof/Machine/Irc.lean ====
section
/-! DEFINITION. The interrupt controller: doorbells, acceptance, end of interrupt, hold-off, and its registers
(11/R368 to R377, Table 11-3). -/

namespace Sys2Proof.Machine

/-- Source numbers that Table 11-1 reserves. -/
def srcReserved (n : Nat) : Bool :=
  n == 15 || (decide (22 ≤ n ∧ n ≤ 31)) || (decide (236 ≤ n ∧ n ≤ 479))

/-- An initiator that is itself a unit of Table 11-1; the control cores and the DEBUG domain are not (11/R370). -/
def isUnit : Initiator → Bool
  | .core _ => false
  | .debug => false
  | .dma _ => true
  | .security => true
  | .other => true

/-- A doorbell write is refused: BAD_DB shows its number. -/
def Hw.badDoorbell (hw : Hw) (n : Nat) : Hw := ({ hw with irc := { hw.irc with badDb := true, lastBad := n } } : Hw).rise .badDb 1

/-- IRC_DOORBELL (11/R370, R371, R377): the target's doorbell makes no difference. -/
def Hw.doorbell (hw : Hw) (ini : Initiator) (n : Nat) : Hw × Nat :=
  if !isUnit ini && decide (n < 480) then (hw.badDoorbell n, stBADPARAM)
  else if srcReserved n then (hw.badDoorbell n, stOK)
  else (hw.irq n, stOK)

def Irc.stack (i : Irc) (t : Nat) : List (Nat × Nat) := mget [] i.accepts t

/-- The running priority of a target (11/R372). -/
def Irc.running (i : Irc) (t : Nat) : Nat := match i.stack t with | [] => 16 | e :: _ => e.2

/-- The hold-off of a group runs; it never does while the timebase domain is not ON, and it is over in the cycle in which it
ends (11/R376). -/
def Hw.groupHeld (hw : Hw) (g : Nat) : Bool :=
  match (hw.grpOf g).heldUntil with
  | some u => hw.isOn domTb && decide (hw.tb.now < u)
  | none => false

/-- A source is presentable to a target (11/R372). -/
def Hw.presentable (hw : Hw) (t n : Nat) : Bool :=
  let s := hw.srcOf n
  s.pend && s.en && (hw.grpOf (n / 16)).target == t && !(hw.groupHeld (n / 16)) && decide (s.pri < hw.irc.running t)

/-- The presentable source with the lowest priority number, the lowest source among equals (11/R373). -/
def Hw.ircBest (hw : Hw) (t : Nat) : Option Nat :=
  (hw.irc.src.map (·.1)).foldl (fun b n =>
    if hw.presentable t n then
      match b with
      | none => some n
      | some m =>
        if (hw.srcOf n).pri < (hw.srcOf m).pri ∨ ((hw.srcOf n).pri = (hw.srcOf m).pri ∧ n < m) then some n else b
    else b) none

/-- IRC_ACK (11/R373): accept a source; the value read. -/
def Hw.ircAck (hw : Hw) (t : Nat) : Hw × Nat :=
  match hw.ircBest t with
  | none => (hw, 2 ^ 9)
  | some n =>
    let p := (hw.srcOf n).pri
    let g := n / 16
    let hw := hw.modSrc n fun s => { s with pend := false, act := true, atgt := t }
    let hw := { hw with irc := { hw.irc with accepts := mset hw.irc.accepts t ((n, p) :: hw.irc.stack t) } }
    let h := (hw.grpOf g).holdoff
    let hw := if h = 0 ∨ !(hw.isOn domTb) then hw else hw.modGrp g fun k => { k with heldUntil := some (hw.tb.now + 1000 * h) }
    (hw, n + p * 2 ^ 10)

/-- An end-of-interrupt write is ignored. -/
def Hw.eoiIgnored (hw : Hw) (t : Nat) : Hw :=
  ({ hw with irc := { hw.irc with eoiErr := sins hw.irc.eoiErr t } } : Hw).rise (.eoi t) (2 ^ 20)

/-- IRC_EOI (11/R374). -/
def Hw.ircEoi (hw : Hw) (t n : Nat) : Hw :=
  match hw.irc.stack t with
  | (m, _) :: rest =>
    if m = n then
      let hw := { hw with irc := { hw.irc with accepts := mset hw.irc.accepts t rest } }
      hw.modSrc n fun s => { s with act := false }
    else hw.eoiIgnored t
  | [] => hw.eoiIgnored t

/-- CLRP (11/R371). -/
def Hw.ircClrp (hw : Hw) (n : Nat) : Hw := hw.modSrc n fun s => { s with pend := false }

/-- IRC_HOLDOFF_END (11/R376). -/
def Hw.holdoffEnd (hw : Hw) (g : Nat) : Hw :=
  if hw.groupHeld g then hw else hw.modGrp g fun k => { k with heldUntil := none }

/-- Hold-offs end at once as the timebase domain leaves ON (11/R376). -/
def Hw.holdoffsEnd (hw : Hw) : Hw :=
  { hw with irc := { hw.irc with grp := hw.irc.grp.map fun (p : Nat × IrcGrp) => (p.1, { p.2 with heldUntil := none }) } }

/-- The latched sources become pending once the control complex is ON again (11/R377). -/
def Hw.ircReplay (hw : Hw) : Hw :=
  let l := hw.irc.latch
  l.foldl (fun h n => h.pendSrc n) { hw with irc := { hw.irc with latch := [] } }

/-- IRC_SRCn. -/
def IrcSrc.value (s : IrcSrc) : Nat :=
  s.pri % 16 + 16 * b2n s.en + 32 * b2n s.pend + 64 * b2n s.act + 128 * b2n s.again + s.atgt % 4 * 2 ^ 9

/-- Reads of the IRC block but for IRC_ACKt (11/T11-3). -/
def Hw.ircRead (hw : Hw) (off : Nat) : Nat :=
  if off < 0x4000 then
    let t := off / 0x1000
    let o := off % 0x1000
    let st := hw.irc.stack t
    if o = 0x00C then
      hw.irc.running t + st.length * 32 + (match st with | e :: _ => e.1 | [] => 0) * 2 ^ 10
        + b2n (hw.ircBest t).isSome * 2 ^ 19 + b2n (hw.irc.eoiErr.contains t) * 2 ^ 20
    else if 0x040 ≤ o ∧ o < 0x080 then
      match st.reverse[(o - 0x040) / 4]? with
      | some e => e.1 + e.2 * 2 ^ 9 + 2 ^ 13
      | none => 0
    else 0
  else if off = 0x4000 then b2n hw.irc.badDb + 2 * hw.irc.lastBad
  else if 0x4100 ≤ off ∧ off < 0x4180 then
    let g := (off - 0x4100) / 4
    let k := hw.grpOf g
    k.target + 4 * k.holdoff + b2n k.wake * 2 ^ 14 + b2n (hw.groupHeld g) * 2 ^ 15
  else if 0x4200 ≤ off ∧ off < 0x4280 then
    let g := (off - 0x4200) / 4
    maskOf 16 ((List.range 16).filter fun i => (hw.srcOf (16 * g + i)).pend)
  else if 0x8000 ≤ off ∧ off < 0x8800 then (hw.srcOf ((off - 0x8000) / 4)).value
  else 0

/-- Writes of the IRC block: configuration only from the control cores (11/R368). -/
def Hw.ircWrite (hw : Hw) (ini : Initiator) (off v : Nat) : Hw × Nat :=
  let ctrl := match ini with | .core _ => true | _ => false
  if off < 0x4000 then
    let t := off / 0x1000
    let o := off % 0x1000
    if o = 0x000 then hw.doorbell ini (fld v 8 0)
    else if o = 0x008 then (hw.ircEoi t (fld v 8 0), stOK)
    else if o = 0x00C then
      (if (hw.clears (.eoi t) v).testBit 20 then { hw with irc := { hw.irc with eoiErr := sdel hw.irc.eoiErr t } } else hw, stOK)
    else (hw, stOK)
  else if off = 0x4000 then (if (hw.clears .badDb v).testBit 0 then { hw with irc := { hw.irc with badDb := false } } else hw, stOK)
  else if 0x4100 ≤ off ∧ off < 0x4180 then
    if ctrl then
      (hw.modGrp ((off - 0x4100) / 4) fun k => { k with target := fld v 1 0, holdoff := fld v 13 2, wake := v.testBit 14 }, stOK)
    else (hw, stBADPARAM)
  else if 0x8000 ≤ off ∧ off < 0x8800 then
    if ctrl then
      let n := (off - 0x8000) / 4
      (hw.modSrc n fun s => { s with
        pri := fld v 3 0, en := v.testBit 4, again := s.again && !((hw.clears (.again n) v).testBit 7), pend := s.pend && !(v.testBit 8) }, stOK)
    else (hw, stBADPARAM)
  else (hw, stOK)

end Sys2Proof.Machine
end

