-- ==== Sys2Proof/Machine/Timers.lean ====
section
/-! DEFINITION. Timer/counters, TIO pins and the timebase with its discipline, and their registers (11/R378 to R393). -/

namespace Sys2Proof.Machine

/-! ### Fields of TC_CFGn. -/

def Tc.cf (t : Tc) (hi lo : Nat) : Nat := fld t.cfg.toNat hi lo
def Tc.srcEdges (t : Tc) : Bool := t.cf 0 0 == 1

/-- The gate lets a count event count, at the levels of the pins (11/R380). -/
def Tc.gateOpen (t : Tc) (level : List Nat) : Bool :=
  t.cf 11 11 == 0 || (level.contains (t.cf 15 12) == (t.cf 16 16 == 1))

/-- One step of the count (11/R381, R382, R385): the new TC, and whether MATCH and OVF were set by it. -/
def Tc.step (t : Tc) : Tc × Bool × Bool :=
  let reload := t.cf 23 23 == 1 && t.matched
  let c : Word := if reload then 0 else t.cnt + 1
  let ovf := t.cnt == 0xFFFFFFFF && c == 0
  let zero := (reload || t.cnt == 0xFFFFFFFF) && c == 0
  let m := c == t.cmp
  let out := match t.cf 25 24 with
    | 1 => if m then !t.outLvl else t.outLvl
    | 2 => if m then true else if zero then false else t.outLvl
    | _ => t.outLvl
  ({ t with cnt := c, matched := m, matchF := t.matchF || m, ovf := t.ovf || ovf, outLvl := out }, m, ovf)

/-- An edge that was recorded in the cycle `now` takes the count at the end of that cycle (11/R383): the count has just changed. -/
def Tc.recount (t : Tc) (now : Nat) : Tc :=
  if t.edgeAt ≠ some now then t
  else match t.lastEdge with
    | some (pin, rise, _) => { t with
        lastEdge := some (pin, rise, t.cnt)
        pair := if t.edgePair then t.pair.map (fun x => if rise then (t.cnt, x.2) else (x.1, t.cnt)) else t.pair }
    | none => t

/-- A count event reaches TCn while it is enabled and its gate open, and in no cycle of a write of the count: the step, its
interrupts and its wake (11/R378, R381, R386). -/
def Hw.tcCount (hw : Hw) (n : Nat) : Hw :=
  let t := hw.tcOf n
  if t.en && t.gateOpen hw.tio.level && hw.isOn domTb && t.quietAt != some hw.elapsed then
    let r := t.step
    let hw := (hw.modTc n fun _ => r.1.recount hw.elapsed).rise (.tc n) (b2n r.2.1 + 2 * b2n r.2.2)
    let hw := if (r.2.1 && t.cf 27 27 == 1) || (r.2.2 && t.cf 28 28 == 1) then hw.irq (176 + n) else hw
    if r.2.1 && t.cf 26 26 == 1 then hw.wakeSet 2 else hw
  else hw

/-- Cycles of the timebase clock between two count events with SRC = 0 (11/R378). -/
def Tc.pre (t : Tc) : Nat := 2 ^ t.cf 4 1

/-- A count event of a TC with SRC = 0 is due: it is enabled, and 2^PRE cycles of the clock have passed since the last one.
Phase corrections move the timebase only, so the cycles are those of `elapsed` (11/R378, log 155). -/
def Hw.tickDue (hw : Hw) (n : Nat) : Bool :=
  let t := hw.tcOf n
  t.en && !t.srcEdges && hw.isOn domTb && decide (t.tickAt + t.pre ≤ hw.elapsed)

/-- TC_COUNT_EVENT (11/R378). -/
def Hw.tcTick (hw : Hw) (n : Nat) : Hw :=
  if hw.tickDue n then (hw.modTc n fun t => { t with tickAt := t.tickAt + t.pre }).tcCount n else hw

/-- EDGE names a polarity (TC_CFGn). -/
def edgeSel (sel : Nat) (rise : Bool) : Bool := sel == 2 || (sel == 0 && rise) || (sel == 1 && !rise)

/-- A recognised edge at the capture pin in the cycle `now` (11/R383, R384): it is recorded with the count, and it completes a pair
when the edge recorded before it on that pin is the one that CPOL puts first. -/
def Tc.capture (t : Tc) (now : Nat) (rise : Bool) : Tc × Bool :=
  let pin := t.cf 20 17
  let u := { t with lastEdge := some (pin, rise, t.cnt), edgeAt := some now, edgePair := false }
  let closing := rise == (t.cf 21 21 == 1)
  match t.lastEdge with
  | some (p, r, c) =>
    if closing && p == pin && r != rise then
      ({ u with
          pair := some (if rise then (t.cnt, c) else (c, t.cnt)), edgePair := true
          overrun := t.overrun || t.unread, unread := true, cap := true }, true)
    else (u, false)
  | none => (u, false)

/-- The level that TCn drives on TIO[n]; none where the pin is an input or its output floats (11/R385). -/
def Hw.tioDriven (hw : Hw) (n : Nat) : Option Bool :=
  if hw.tio.dir.testBit n && hw.isOn domTb then some (hw.tcOf n).outLvl else none

/-- The recognised level of a pin becomes `lvl`: the edge counts and captures, or is caught in AON (11/R379, R383, R387). -/
def Hw.recognise (hw : Hw) (pin : Nat) (lvl : Bool) : Hw :=
  if hw.tio.level.contains pin == lvl then hw
  else
    let hw := { hw with tio := { hw.tio with level := sput hw.tio.level pin lvl } }
    if !(hw.isOn domTb) then
      let hw := if lvl then { hw with tio := { hw.tio with latchRise := sins hw.tio.latchRise pin } }
                else { hw with tio := { hw.tio with latchFall := sins hw.tio.latchFall pin } }
      (hw.rise .tioLatch (2 ^ (if lvl then pin else 16 + pin))).irq 230
    else
      let hw := forAll (List.range 16) (fun n h =>
        let t := h.tcOf n
        if t.srcEdges && t.cf 8 5 == pin && edgeSel (t.cf 10 9) lvl then h.tcCount n else h) hw
      forAll (List.range 16) (fun n h =>
        let t := h.tcOf n
        if t.cf 22 22 == 1 && t.cf 20 17 == pin then
          let r := t.capture h.elapsed lvl
          let h := (h.modTc n fun _ => r.1).rise (.tc n) (4 * b2n r.2)
          if r.2 && t.cf 29 29 == 1 then h.irq (176 + n) else h
        else h) hw

/-- TIO_EDGE (11/R379): the sampled level of a pin has held its new value for `samples` samples. An output pin shows only the
level that its TC drives (11/R385). -/
def Hw.tioEdge (hw : Hw) (pin : Nat) (lvl : Bool) (samples : Nat) : Hw :=
  if hw.tio.filt + 1 ≤ samples ∧ (hw.tioDriven pin).all (· == lvl) then hw.recognise pin lvl else hw

/-- One sample of the input path of a driven pin, whose recognised level is `lvl`: the level passes the synchroniser, and the
samples of one level are counted. A pin that has just begun to be driven starts at its recognised level. -/
def PinPath.sample (p : Option PinPath) (lvl drive : Bool) : PinPath :=
  match p with
  | some p => ⟨drive, p.flop, if p.flop = p.lvl then p.held + 1 else 1⟩
  | none => ⟨drive, lvl, 1⟩

/-- Outputs serve as inputs too: the level of a driven pin is recognised 2 + FILT ns after it changed, if it held for FILT + 1
samples (11/R379, R385). -/
def Hw.tioOutputs (hw : Hw) : Hw :=
  let pins := (ofMask 16 hw.tio.dir).filterMap fun n => (hw.tioDriven n).map fun d =>
    (n, PinPath.sample (hw.tio.paths.lookup n) (hw.tio.level.contains n) d)
  pins.foldl (fun (h : Hw) p => if h.tio.filt + 1 ≤ p.2.held then h.recognise p.1 p.2.lvl else h)
    { hw with tio := { hw.tio with paths := pins } }

/-- CLEAR (11/R381, TC_CTLn). -/
def Tc.clear (t : Tc) : Tc :=
  { t with cnt := 0, outLvl := false, matched := false, pair := none, unread := false, overrun := false }

/-- The count is written in the cycle `now`: a count interval that ends in it gives no step, nor does any edge of it (11/R381). -/
def Tc.quiet (t : Tc) (now : Nat) : Tc :=
  ({ t with quietAt := some now, tickAt := if t.tickAt + t.pre = now then now else t.tickAt } : Tc).recount now

/-- The two words of the held pair. -/
def Tc.capWords (t : Tc) : Nat := match t.pair with | some (r, f) => r.toNat + f.toNat * 2 ^ 32 | none => 0

/-- The low-word read of TC_CAPn (11/R384). -/
def Tc.capRead (t : Tc) : Tc := { t with infoNew := t.unread, infoOverrun := t.overrun, unread := false, overrun := false }

/-! ### The timebase. -/

/-- A change of STATE signals source 228 (11/R392). -/
def Hw.setTbState (hw : Hw) (s : TbState) : Hw :=
  if hw.tb.state = s then hw else ({ hw with tb := { hw.tb with state := s } }).irq 228

def TbState.code : TbState → Nat | .free => 0 | .locked => 1 | .disciplined => 2 | .holdover => 3

/-- TIME_REF_PRESENT (11/R389). -/
def Hw.refPresent (hw : Hw) : Hw := { hw with tb := { hw.tb with refPresent := true, locking := true } }

/-- TIME_REF_LOST (11/R389, R392). -/
def Hw.refLost (hw : Hw) : Hw :=
  if !hw.tb.refPresent then hw
  else
    let hw := ({ hw with tb := { hw.tb with refPresent := false, locking := false, lockLost := true, goodEdges := 0 } } : Hw).rise .timebase 16
    if hw.tb.state = .locked ∨ hw.tb.state = .disciplined then hw.setTbState .holdover else hw

/-- TIMEBASE_PLL_LOCK (11/R389). -/
def Hw.pllLock (hw : Hw) : Hw :=
  if hw.tb.locking && hw.tb.refPresent then
    ({ hw with tb := { hw.tb with locking := false } }).setTbState .locked
  else hw

/-- Phase error: the value minus the nearest multiple of 10^9 (11/R390). -/
def phaseErr (t : Nat) : Int := (((t + 500000000) % 1000000000 : Nat) : Int) - 500000000

/-- PPS_EDGE (11/R390 to R392). -/
def Hw.ppsEdge (hw : Hw) : Hw :=
  if !(hw.isOn domTb) then hw
  else
    let b := hw.tb
    let now := b.now
    let soon := b.prevPps.any fun p => decide (now < p + 500000000)
    if soon then (({ hw with tb := { b with ppsBad := true } } : Hw).rise .timebase 32).irq 229
    else
      let e := phaseErr now
      let pair := b.prevPps.any fun p => decide (p + 999000000 ≤ now ∧ now ≤ p + 1001000000)
      let good := decide (e.natAbs ≤ b.tol * 10)
      let n := if good then b.goodEdges + 1 else 0
      let present := b.ppsPresent || pair
      let stepIt := b.stepEn && !hw.anyJob && decide (1000000 < e.natAbs)
      let hw := { hw with tb := { b with
        ppsPresent := present, ppsValue := now, ppsOverrun := b.ppsOverrun || b.ppsUnread, ppsUnread := true, err := e
        goodEdges := n, lastPpsAt := some hw.elapsed
        prevPps := if stepIt then none else some now
        now := if stepIt then toField 64 ((now : Int) - e) else now
        stepped := b.stepped || stepIt
        slewLeft := if stepIt then 0 else e, slewAt := hw.elapsed } }
      let hw := hw.rise .timebase (if stepIt then 64 else 0)
      if b.state = .locked ∧ present ∧ 3 ≤ n then
        -- TIME_REF and PPS_IN have locked the timebase again (01/R35)
        ({ hw with tb := { hw.tb with undisciplined := false } }).setTbState .disciplined
      else if b.state = .disciplined ∧ !good then hw.setTbState .locked
      else hw

/-- PPS_ABSENT (11/R390, R392): 1.5 s have passed since the last accepted edge. -/
def Hw.ppsAbsent (hw : Hw) : Hw :=
  match hw.tb.lastPpsAt with
  | some t =>
    if t + 1500000000 < hw.elapsed then
      let hw := { hw with tb := { hw.tb with ppsPresent := false, prevPps := none, goodEdges := 0, lastPpsAt := none } }
      if hw.tb.state = .disciplined then hw.setTbState .locked else hw
    else hw
  | none => hw

/-- The slew moves the count: a target remains, and 10^6 / SLEW cycles have passed since it was set or the count last moved
(11/R391, log 156). -/
def Hw.slewDue (hw : Hw) : Bool :=
  hw.tb.slewLeft != 0 && hw.isOn domTb && decide (1000000 ≤ (hw.elapsed - hw.tb.slewAt) * hw.tb.slew)

/-- TIMEBASE_SLEW_TICK (11/R391): one cycle in which the count is held or advances by two. The pins are sampled in it as in any other
cycle (11/R379). -/
def Hw.slewTick (hw : Hw) : Hw :=
  if !hw.slewDue then hw
  else
    let b := { hw.tb with slewAt := hw.elapsed }
    let b := if 0 < b.slewLeft then { b with slewLeft := b.slewLeft - 1 }
      else { b with slewLeft := b.slewLeft + 1, now := (b.now + 2) % 2 ^ 64 }
    ({ hw with elapsed := hw.elapsed + 1, tb := b, risen := [] } : Hw).tioOutputs

/-- TB_SET (11/R393). -/
def Hw.tbSet (hw : Hw) (v : Nat) : Hw × Nat :=
  if hw.anyJob || hw.tb.state == .disciplined then (hw, stBUSY)
  else ({ hw with tb := { hw.tb with now := v % 2 ^ 64, setLast := v % 2 ^ 64, prevPps := none } }, stOK)

/-- The low-word read of TB_PPS (11/R384, R390). -/
def Timebase.ppsRead (b : Timebase) : Timebase :=
  { b with infoNew := b.ppsUnread, infoOverrun := b.ppsOverrun, ppsUnread := false, ppsOverrun := false }

/-! ### Registers of the TC block. -/

/-- The 64-bit registers of the block, by the offset of their low word. -/
def Hw.tcReg64 (hw : Hw) (off : Nat) : Option Nat :=
  if off < 0x400 then (if off % 0x40 = 0x18 then some (hw.tcOf (off / 0x40)).capWords else none)
  else if off = 0x800 then some hw.tb.now
  else if off = 0x810 then some hw.tb.ppsValue
  else if off = 0x820 then some hw.tb.setLast
  else none

/-- What a low-word read of a 64-bit register of the block does besides. -/
def Hw.tcLowRead (hw : Hw) (off : Nat) : Hw :=
  if off < 0x400 then (if off % 0x40 = 0x18 then hw.modTc (off / 0x40) Tc.capRead else hw)
  else if off = 0x810 then { hw with tb := hw.tb.ppsRead }
  else hw

def Hw.tcRead (hw : Hw) (off : Nat) : Nat :=
  if off < 0x400 then
    let t := hw.tcOf (off / 0x40)
    match off % 0x40 with
    | 0x00 => t.cfg.toNat
    | 0x04 => b2n t.en
    | 0x08 => b2n t.matchF + 2 * b2n t.ovf + 4 * b2n t.cap + 8 * b2n (!t.gateOpen hw.tio.level) + 16 * b2n t.outLvl
    | 0x0C => t.cnt.toNat
    | 0x10 => t.cmp.toNat
    | 0x20 => b2n t.infoNew + 2 * b2n t.infoOverrun
    | _ => 0
  else match off with
    | 0x400 => hw.tio.dir + hw.tio.filt * 2 ^ 16
    | 0x404 => maskOf 16 hw.tio.level
    | 0x408 => maskOf 16 hw.tio.latchRise + maskOf 16 hw.tio.latchFall * 2 ^ 16
    | 0x808 =>
      hw.tb.state.code + 4 * b2n hw.tb.refPresent + 8 * b2n hw.tb.ppsPresent + 16 * b2n hw.tb.lockLost + 32 * b2n hw.tb.ppsBad
        + 64 * b2n hw.tb.stepped + 128 * b2n (hw.tb.slewLeft != 0)
    | 0x80C => b2n hw.tb.stepEn + 2 * hw.tb.slew + hw.tb.tol * 2 ^ 10
    | 0x818 => b2n hw.tb.infoNew + 2 * b2n hw.tb.infoOverrun
    | 0x828 => toField 32 hw.tb.err
    | _ => 0

def Hw.tcWrite (hw : Hw) (off v : Nat) : Hw × Nat :=
  if off < 0x400 then
    let n := off / 0x40
    match off % 0x40 with
    | 0x00 => (hw.modTc n fun t => { t with cfg := BitVec.ofNat 30 v, tickAt := hw.elapsed }, stOK)
    | 0x04 =>
      (hw.modTc n fun t =>
        let t := { t with en := v.testBit 0, tickAt := if t.en then t.tickAt else hw.elapsed }
        if v.testBit 1 then t.clear.quiet hw.elapsed else t, stOK)
    | 0x08 =>
      let v := hw.clears (.tc n) v
      (hw.modTc n fun t => { t with
        matchF := t.matchF && !(v.testBit 0), ovf := t.ovf && !(v.testBit 1), cap := t.cap && !(v.testBit 2) }, stOK)
    | 0x0C => (hw.modTc n fun t => ({ t with cnt := BitVec.ofNat 32 v, matched := false } : Tc).quiet hw.elapsed, stOK)
    | 0x10 => (hw.modTc n fun t => { t with cmp := BitVec.ofNat 32 v }, stOK)
    | _ => (hw, stOK)
  else match off with
    | 0x400 => ({ hw with tio := { hw.tio with dir := fld v 15 0, filt := fld v 23 16 } }, stOK)
    | 0x408 =>
      let v := hw.clears .tioLatch v
      ({ hw with tio := { hw.tio with
        latchRise := hw.tio.latchRise.filter fun p => !(v.testBit p)
        latchFall := hw.tio.latchFall.filter fun p => !(v.testBit (16 + p)) } }, stOK)
    | 0x808 =>
      let v := hw.clears .timebase v
      ({ hw with tb := { hw.tb with
        lockLost := hw.tb.lockLost && !(v.testBit 4), ppsBad := hw.tb.ppsBad && !(v.testBit 5)
        stepped := hw.tb.stepped && !(v.testBit 6) } }, stOK)
    | 0x80C =>
      let sl := fld v 9 1
      ({ hw with tb := { hw.tb with
        stepEn := v.testBit 0, slew := if 1 ≤ sl ∧ sl ≤ 500 then sl else hw.tb.slew, tol := fld v 25 10 } }, stOK)
    | _ => (hw, stOK)

end Sys2Proof.Machine
end

