-- ==== Sys2Proof/Machine/Power.lean ====
section
/-! DEFINITION. Power domains and their transitions, bank groups, the accounting window, power and temperature samples, and the
BUD and PWR registers (01/R32 to R36, 08/R285 to R303, 12/R395 to R397). -/

namespace Sys2Proof.Machine

/-! ### Transitions (08/R295, R303). -/

/-- Slope in 0.001 A/µs and ramp in ns of a transition of a domain (08/T8-9). -/
def rampOf (d : Nat) : Nat × Nat :=
  if d < 64 then (120, 1000) else if d < 72 then (50, 2000) else if d < 78 then (50, 5000) else if d < 86 then (40, 1000)
  else if d < 88 then (60, 1000) else if d = 88 then (50, 5000) else if d = 89 then (75, 2000) else (20, 1000)

/-- Slope and ramp of a waiting transition: the points of a DVFS change are as many steps in sequence (08/T8-9). -/
def Transition.ramp : Transition → Nat × Nat
  | .domain d _ => rampOf d
  | .dvfs _ n _ => (80, 500 * n)

/-- A waiting transition that nothing but 08/R303 holds back: its own domain is not in transition. -/
def Hw.canBegin (hw : Hw) : Transition → Bool
  | .domain d _ => (hw.domOf d).moving.isNone
  | .dvfs _ _ _ => true

/-- Domains that are never switched OFF (01/R34). -/
def Hw.keepsOn (hw : Hw) (d : Nat) : Bool :=
  if d < 64 then (hw.sqOf d).loaded
  else if d < 72 then hw.psc.inEn || hw.psc.outEn
  else if d = 86 then hw.kz.owner == some false
  else if d = 87 then hw.kz.owner == some true
  else if d = domHub then (List.range 64).any fun s => (hw.sqOf s).loaded
  else false

/-- A transition of a domain that has nothing left to do: the domain is in that state, or 01/R34 keeps it out of OFF. -/
def Hw.moot (hw : Hw) : Transition → Bool
  | .domain d t => (hw.domOf d).state == t || (t == .off && hw.keepsOn d)
  | .dvfs _ _ _ => false

/-- The compute clock of a square stands while its domain is not ON. -/
def Hw.stopClock (hw : Hw) (d : Nat) : Hw :=
  if d < 64 then hw.modSq d fun q => { q.account hw.elapsed with clkOff := true } else hw
def Hw.startClock (hw : Hw) (d : Nat) : Hw :=
  if d < 64 then hw.modSq d fun q => { q.account hw.elapsed with clkOff := false } else hw

/-- What a domain does as its transition begins: the compute clock of a square stands, and a square on its way to OFF drains: what
has reached it is still served (06/R228), and what arrives during the entry is held (08/R300). -/
def Hw.leaves (hw : Hw) (d : Nat) (t : PwrState) : Hw :=
  let hw := hw.stopClock d
  if d < 64 ∧ t = .off then
    let on := (hw.domOf d).state == .on
    (hw.drain d).modSq d fun q => { q with inbox := q.inbox.map fun e => { e with owed := on } }
  else if d = domTb then hw.holdoffsEnd else hw

/-- DOMAIN_TRANSITION_BEGIN (08/R303): the first waiting transition begins if the ramps in progress leave room for its slope. -/
def Hw.transitionBegin (hw : Hw) : Hw :=
  let ramps := hw.power.ramps.filter fun r => decide (hw.elapsed < r.until_)
  match hw.power.waiting.find? hw.canBegin with
  | none => hw
  | some t =>
    let rest := hw.power.waiting.erase t
    if hw.moot t then { hw with power := { hw.power with waiting := rest } }
    else if (ramps.map (·.slope)).sum + t.ramp.1 ≤ hw.bud.didt * 10 then
      let go : Hw := { hw with power := { hw.power with
        waiting := rest, ramps := ramps ++ [{ slope := t.ramp.1, until_ := hw.elapsed + t.ramp.2 }] } }
      match t with
      | .dvfs _ _ _ => go
      | .domain d s =>
        (go.modDom d fun k => { k with moving := some s }).leaves d s
    else hw

/-! ### Entry and exit (01/R33, R35, 06/R228, 12/R395). -/

/-- A square's state after its reset: what the fuses, the router and AON hold stays (06/R227, 07/R243, 09/R342, 12/T12-3). The
registers of the budget arbiter about the square (SQ_DVFS, SQ_BUSY) and its sensor stay too, which 01/R33 does not say:
DESIGN CHOICE (log 89). -/
def Square.afterReset (q : Square) : Square :=
  { fused := q.fused, fenced := q.fenced, policy := q.policy, slotFence := q.slotFence, lmap := q.lmap, shadow := q.shadow
    rt := q.rt, dvfsCur := q.dvfsCur, dvfsFloor := q.dvfsFloor, temp := q.temp, raising := q.raising, volt := q.volt
    flt := { sticky := q.flt.sticky, trans := q.flt.trans, eccCount := q.flt.eccCount }
    busy := q.busy, busyHist := q.busyHist, clock := q.clock, clkOff := q.clkOff, countAt := q.countAt
    wid := q.wid, fences := q.fences }

/-- Square reset: banks wiped, core registers at reset, queues closed with GEN kept, programs stopped. -/
def Hw.squareReset (hw : Hw) (s : Nat) : Hw :=
  let hw := hw.closeQueues s
  let hw := hw.modSq s Square.afterReset
  let hw := { hw with
    slot := hw.slot.filter fun p => p.1 / 19 != s
    core := hw.core.map fun (p : Nat × LCore) => if p.1 / 18 = s then
      (p.1, { queue := p.2.queue.map fun (k : Nat × Queue) => (k.1, { ({} : Queue) with gen := k.2.gen }) }) else p }
  (hw.wipe (winBase s) 0x4000000).wipe (hiddenRow s groupUnit 0 0) 0x400000

/-- The control complex is reset alone and runs S4 again; `c` is 1 after leaving OFF, 2 after a failed activation (13/R435). -/
def Hw.ctrlReset (hw : Hw) (c : Nat) : Hw :=
  let port : Port → Port := fun p => { p with cmds := [], current := none, replies := [] }
  let hw := if c = 1 then hw.wipeUnit unitCtrl none else hw
  -- the cause of this change of owner is none of those that 10/T10-7 lists, so it is a free value (log 30)
  let hw := if hw.kz.owner = none then hw
            else ({ hw with fresh := hw.fresh + 1 }).noteBoth ⟨7, 0, 0xFFFF, hw.tb.now, Config.freeValue hw.fresh % 2 ^ 64, []⟩
  { hw with
    irc := { latch := hw.irc.latch }
    kz := { hw.kz with owner := none, portA := port hw.kz.portA, portB := port hw.kz.portB, running := [] }
    fw := {}
    flt := { hw.flt with ring := [], ringPos := 0 }
    bring := { hw.bring with ctrlS4 := some c, began := hw.elapsed } }

/-- A channel whose pair was OFF: the exit retrains it. Its counts and a failure stay, and the window that the retraining
found is a free value (01/T1-6, 08/T8-9, log 153). -/
def PscChan.lost (c : PscChan) : PscChan := { state := if c.state = 3 then 3 else 1, retrains := c.retrains }

/-- The bytes, the training and the controller state of a PSRAM pair are lost (01/T1-6). -/
def Hw.pairLost (hw : Hw) (k : Nat) : Hw :=
  let hw := { hw with
    banks := { hw.banks with mem := hw.banks.mem.filter fun c =>
      !(decide (0x100000000 ≤ c.1 ∧ c.1 < 0x180000000) && fld (c.1 - 0x100000000) 13 11 == k) }
    psc := { hw.psc with queue := hw.psc.queue.filter fun c => c / 2 != k } }
  (hw.modChan (2 * k) PscChan.lost).modChan (2 * k + 1) PscChan.lost

/-- The channels of a pair that has left OFF are trained: at 200 MHz, with a passing window of at least 0.25 UI. -/
def Hw.pairTrained (hw : Hw) (k : Nat) : Hw :=
  forAll [2 * k, 2 * k + 1] (fun c h => if (h.chanOf c).state = 1 then
    ({ h.modChan c fun x => { x with state := 0, win := 64 + Config.freeValue h.fresh % 192, tcpAt := h.bud.tcp } with
      fresh := h.fresh + 1 }).irq (208 + c) else h) hw

/-- The ON banks of a square enter RETAIN with its domain (01/R33). -/
def Hw.banksRetain (hw : Hw) (s : Nat) : Hw :=
  hw.modSq s fun q => (List.range 28).foldl (fun (q : Square) g =>
    if (q.bankOf g).state = .off then q else q.setBank g fun b => { b with state := .retain, moving := none, wake := false }) q

/-- A square in OFF: its reset, its banks in RETAIN or OFF, and its router in ABSENT (01/R33, 06/R228). -/
def Hw.squareLost (hw : Hw) (s : Nat) : Hw :=
  let hw := hw.banksRetain s
  let bs := (hw.sqOf s).banks
  let hw := (hw.squareReset s).modSq s fun q => { q with banks := bs }
  if (hw.rtOf s).state = .absent then hw else (hw.setRtState s .absent).flipArmed

/-- The I/O hub in OFF: the journal, the output path, the DMA channels and the reference pixels are lost (01/R33, T1-6). A
chain that ran is over for its task and its command, with ABSENT (log 154). -/
def Hw.hubLost (hw : Hw) : Hw :=
  let hw := forAll (List.range 16) (fun c h => if (h.dmaOf c).run then h.chainEnded c stABSENT else h) hw
  let hw := hw.wipeUnit unitHub none
  { hw with
    journal := [], results := [], ol := [], dma := [], dmaTmo := 100000
    csi := hw.csi.map fun (p : Nat × CsiPort) => (p.1, { p.2 with refPix := [], refOk := false, inFrame := false })
    psc := { hw.psc with inWait := [], outWait := [], outPos := 0 } }

/-- A change of a USB port: its sources are signalled as it goes up or down, and as it enters or leaves U3 (11/T11-1). -/
def Hw.setUsb (hw : Hw) (p : Bool) (f : Port → Port) : Hw :=
  let was := hw.portOf p
  let hw := hw.modPort p f
  let hw := if (hw.portOf p).suspended = was.suspended then hw else hw.irq (20 + b2n p)
  if (hw.portOf p).suspended = was.suspended ∧ (hw.portOf p).up = was.up then hw else hw.irq (206 + b2n p)

/-- What a domain loses in OFF (01/R33). The SRAM of a port is wiped with it; its group numbers are those of log 187. -/
def Hw.domainLost (hw : Hw) (d : Nat) : Hw :=
  let hw := if 72 ≤ d ∧ d < 88 then hw.wipeUnit 67 (some (d - 72)) else if d = domTb then hw.wipeUnit 67 (some 16) else hw
  if d < 64 then hw.squareLost d
  else if d < 72 then hw.pairLost (d - 64)
  else if d < 78 then hw.modLink (d - 72) fun l => { en := l.en, jobs := l.jobs, lane := l.lane, failed := l.failed, spareUsed := l.spareUsed, cause := l.cause,
                                                     downEvt := l.downEvt, crcErr := l.crcErr, retry := l.retry, trans := l.trans }
  else if d < 86 then hw.modCsi (d - 78) fun _ => {}
  else if d < 88 then hw.setUsb (d == 87) fun p => { p with up := false, suspended := false, cmds := [], current := none, replies := [] }
  else if d = domHub then hw.hubLost
  else if d = domTb then
    ({ hw with tc := [], tio := { latchRise := hw.tio.latchRise, latchFall := hw.tio.latchFall, level := hw.tio.level }
               tb := { ({} : Timebase) with refPresent := hw.tb.refPresent, state := hw.tb.state } }).setTbState .free
  else hw

/-- The control complex is ON again: latched sources become pending, held fault records reach the ring (09/R341, 11/R377). -/
def Hw.ctrlAwake (hw : Hw) : Hw :=
  let b := hw.flt.buffer
  (b.foldl (fun (h : Hw) r => h.ringPush r) { hw with flt := { hw.flt with buffer := [] } }).ircReplay

/-- What a domain does once it is ON again (01/R35, 08/T8-9). A square that leaves OFF has every bank group ON and wiped, also
one that a command had set OFF before: DESIGN CHOICE, since 01/R33 does not say what becomes of such a group (log 157). -/
def Hw.domainBack (hw : Hw) (d : Nat) (was : PwrState) : Hw :=
  if 72 ≤ d ∧ d < 78 then hw.modLink (d - 72) fun l => 
    -- a port that S7 or a lane fault has made unusable ends its attempt with cause 3 (13/R437)
    if l.en && decide (2 ≤ l.failed.length) then { l with cause := 3 } else { l with training := l.en }
  else if d = domCtrl then (if was = .off then hw.ctrlReset 1 else hw).ctrlAwake
  else if d = domTb then
    ({ hw with
      tc := hw.tc.map fun (p : Nat × Tc) => (p.1, { p.2 with tickAt := hw.elapsed })
      tb := { hw.tb with
        undisciplined := true, locking := hw.tb.refPresent, prevPps := none, goodEdges := 0, ppsPresent := false
        slewAt := hw.elapsed } }).setTbState .free
  else if d < 64 ∧ was = .off then hw.modSq d fun q => { q with banks := [] }
  else if 64 ≤ d ∧ d < 72 ∧ was = .off then hw.pairTrained (d - 64)
  else if d = 86 ∨ d = 87 then
    -- a port whose domain lost its state trains again with VBUS (14/R478)
    hw.setUsb (d == 87) fun p => { p with suspended := false, up := p.up || ((if d = 87 then hw.supply.vbusB else hw.supply.vbusA) && decide (2 ≤ hw.bring.last)) }
  else hw

/-- DOMAIN_TRANSITION_DONE (08/R295, R300): the state changes, and a latched wake takes the domain out again. Accesses that
were held are served by the row's meaning. A domain that 01/R34 has come to keep out of OFF while the entry ran stays as it
was (log 158). In RETAIN a domain keeps all its state, also what Table 1-6 does not list (log 184). A square reaches OFF only once its router has taken every reply that it owes (06/R228). -/
def Hw.transitionDone (hw : Hw) (d : Nat) : Hw :=
  let k := hw.domOf d
  match k.moving with
  | none => hw
  | some t =>
    if d < 64 ∧ t = .off ∧ (hw.rtOf d).state = .draining ∧ !(hw.repliesOut d) then hw
    else
    let hw := hw.modDom d fun k => { k with
      state := if t == .off && hw.keepsOn d then k.state else t, moving := none, wake := false, lastUse := hw.elapsed
      wokeAt := if t == .on then some hw.elapsed else k.wokeAt }
    if t == .off && hw.keepsOn d then
      (if k.state == .on then hw.startClock d else if k.wake then hw.askDomain d .on else hw)
    else match t with
    | .on => (hw.domainBack d k.state).startClock d
    | .retain =>
      let hw := if d < 64 then hw.banksRetain d else if 72 ≤ d ∧ d < 78 then hw.linkDown (d - 72) 4
        else if d = 86 ∨ d = 87 then hw.setUsb (d == 87) fun p => { p with suspended := p.up } else hw
      if k.wake then hw.askDomain d .on else hw
    | .off =>
      let hw := if 72 ≤ d ∧ d < 78 then hw.linkDown (d - 72) 4 else hw
      let hw := hw.domainLost d
      if k.wake then hw.askDomain d .on else hw

/-! ### Idle policy and requests (01/R34, 08/R296, R297). -/

def Hw.pinned (hw : Hw) (d : Nat) : Bool := (mget 0 hw.power.pin (d / 32)).testBit (d % 32)

/-- The times that the idle policy waits for have passed: BUD_IDLE since the last wake for every entry, and since the last use
for one to RETAIN of a domain that no host suspends (08/R296, R300). -/
def Domain.idleFor (k : Domain) (usb : Bool) (t : PwrState) (now us : Nat) : Bool :=
  k.wokeAt.all (fun w => decide (w + 1000 * us ≤ now)) && (usb || t == .off || decide (k.lastUse + 1000 * us ≤ now))

/-- Where the idle policy takes a domain, if anywhere (08/R296, R300). -/
def Hw.idleTarget (hw : Hw) (d : Nat) : Option PwrState :=
  let k := hw.domOf d
  let t : Option PwrState :=
    if d < 64 then
      let q := hw.sqOf d
      let named := hw.seq.tasks.any fun p => !p.2.state.ended && p.2.mask.testBit d
      if (hw.jobOfSq d).isSome || (hw.heldBy d).isSome then none
      else if !q.loaded && !named then some .off
      else if k.state = .on then some .retain else none
    else if d < 72 then (if k.state = .on then some .retain else none)
    else if d < 78 then (if (hw.linkOf (d - 72)).en then none else some .off)
    else if d < 86 then (if (hw.csiOf (d - 78)).en then none else some .off)
    else if d < 88 then (if (hw.portOf (d == 87)).suspended && k.state == .on then some .retain else none)
    else none
  match t with
  | none => none
  | some t =>
    if hw.pinned d || k.moving.isSome || k.held.isSome || waitsFor hw.power.waiting d || k.state == t
        || (t == .off && hw.keepsOn d) || !(k.idleFor (d == 86 || d == 87) t hw.elapsed hw.bud.idleUs) then none
    else some t

/-- DOMAIN_IDLE_ENTRY (08/R296). -/
def Hw.idleEntry (hw : Hw) (d : Nat) : Hw :=
  match hw.idleTarget d with
  | some t => hw.askDomain d t
  | none => hw

/-- No transition of the domain waits any more. -/
def Hw.dropAsk (hw : Hw) (d : Nat) : Hw := { hw with power := { hw.power with waiting := dropWait hw.power.waiting d } }

/-- PWR_REQ (08/R297): an accepted request takes the place of one that waits. -/
def Hw.pwrReq (hw : Hw) (d tgt : Nat) : Hw × Nat :=
  if 90 < d ∨ tgt = 3 then (hw, stOK)
  else if tgt = 0 then
    if d < 64 ∧ (hw.sqOf d).fused then (hw, stBUSY)
    else (((hw.dropAsk d).wakeDom d).modDom d fun k => { k with held := some .on }, stOK)
  else
    let t : PwrState := if tgt = 1 then .retain else .off
    if hw.pinned d || (t == .off && hw.keepsOn d) then (hw, stBUSY)
    else
      let hw := hw.modDom d fun k => { k with held := some t }
      if (hw.domOf d).moving.getD (hw.domOf d).state = t then (hw.dropAsk d, stOK) else (hw.askDomain d t, stOK)

/-- A write of PWR_PINk: a domain that becomes pinned is no longer held, and is kept ON (08/R297, PWR_PINk). -/
def Hw.pinWrite (hw : Hw) (k v : Nat) : Hw :=
  let v := if k = 2 then v % 2 ^ 27 else v % 2 ^ 32
  let hw := { hw with power := { hw.power with pin := mset hw.power.pin k v } }
  forAll (ofMask 32 v) (fun i h => if h.isOn (32 * k + i) then (h.modDom (32 * k + i) fun x => { x with held := none }).dropAsk (32 * k + i)
    else (h.dropAsk (32 * k + i)).wakeDom (32 * k + i)) hw

/-! ### Bank groups (12/R395 to R397). -/

/-- A bank group as SQ_BANKSTATE shows it (12/T12-9). -/
def Square.bankCode (q : Square) (g : Nat) : Nat :=
  let b := q.bankOf g
  match b.moving with
  | some _ => 3
  | none => match b.state with | .on => 0 | .retain => 1 | .off => 2

/-- SQ_BANKREQ (12/R397). -/
def Hw.bankReq (hw : Hw) (s g tgt : Nat) : Hw × Nat :=
  if 27 < g ∨ tgt = 3 then (hw, stOK)
  else
    let q := hw.sqOf s
    if !(hw.isOn s) then (hw, stBUSY)
    else if tgt = 2 ∧ q.loaded ∧ !(q.idleSlot g) then (hw, stBUSY)
    else if tgt ≠ 0 ∧ (hw.jobOfSq s).isSome ∧ !(q.idleSlot g) then (hw, stBUSY)
    else
      let t : PwrState := if tgt = 0 then .on else if tgt = 1 then .retain else .off
      (hw.modSq s fun q => q.setBank g fun b =>
        if b.state = t ∧ b.moving = none then { b with reqOn := tgt == 0 } else { b with moving := some t, reqOn := tgt == 0 }, stOK)

/-- BANK_GROUP_TRANSITION_DONE (12/R395, R396): a group that leaves OFF is wiped. It is ON only while its domain is
(01/R33). -/
def Hw.bankDone (hw : Hw) (s g : Nat) : Hw :=
  let b := (hw.sqOf s).bankOf g
  match b.moving with
  | none => hw
  | some t =>
    if t = .on ∧ (hw.domOf s).state ≠ .on then hw
    else
      let r := bankRange s g
      let hw := if b.state = .off ∨ t = .off then hw.wipe r.1 r.2 else hw
      hw.modSq s fun q => q.setBank g fun b =>
        { b with state := t, moving := if b.wake && t != .on then some .on else none, wake := false }

/-! ### The accounting window (08/R285 to R289). -/

/-- BUD_AVAIL.A: µJ, rounded down, 20-bit signed, saturating. -/
def Hw.avail (hw : Hw) : Int := clampInt (-524288) 524287 (fdiv hw.availMicro 1000000)

def Hw.noteAvail (hw : Hw) : Hw := { hw with bud := { hw.bud with avail := hw.avail } }

/-- BUD_STATUS. -/
def Budget.status (b : Budget) : Nat :=
  b2n b.defer + 2 * b2n b.c0Over + 4 * b2n b.throttle + 8 * b2n (b.hot != []) + 16 * b2n b.trip + 32 * b2n b.heatBind

/-- T_CP in units of 1/5,120,000 °C (08/R289): 64 readings summed, R_TH in 1/256 K/W, input energy of 20 windows in µJ. -/
def tcpScaled (sum : Int) (rth e20 : Nat) : Int := sum * 80000 - ((rth * e20 : Nat) : Int)

/-- WINDOW_START (08/R285, R287, R289), with the readings of the 64 sensors. L is taken at the start of a window: a write of
BUD_WINDOW.LIMIT or BUD_THERM counts from the next one (DESIGN CHOICE, log 207). -/
def Hw.windowStart (hw : Hw) (temps : List Int) : Hw :=
  let b := hw.bud
  let hist := (b.emNow :: b.hist).take 20
  let sum := temps.foldl (· + ·) 0
  let est := tcpScaled sum b.rth hist.sum
  let scaled := if b.tcpExt = 0x80 then est else (let x := sext 8 b.tcpExt * 5120000; if est < x then x else est)
  let h : Int := let x := fdiv ((b.tlim : Int) * 5120000 - scaled) ((20 * b.rth : Nat) : Int); if x < 0 then 0 else x
  let third : Int := 1200000 - ((hist.take 19).sum : Nat)
  let rest := if (b.limit : Int) < third then (b.limit : Int) else third
  let hotIdx := (List.range 64).foldl (fun best i => if temps.getD best 0 < temps.getD i 0 then i else best) 0
  let lift := b.over72.all fun t => decide (t + 100000 ≤ hw.elapsed)
  let hw := { hw with
    link := hw.link.map fun (p : Nat × Link) => (p.1, { p.2 with fitHist := (p.2.fitNow :: p.2.fitHist).take 10, fitNow := 0 })
    bud := { b with
    hist := hist, emPrev := b.emNow, emNow := 0, sqPrev := b.sqNow, sqNow := [], c0Now := 0
    winStart := hw.tb.now / 1000000 * 1000000, winLimit := if h < rest then h else rest, heatBind := decide (h < rest)
    tcp := clampInt (-128) 127 (fdiv scaled 5120000), thot := temps.getD hotIdx 0, hotSq := hotIdx
    throttle := b.throttle && !lift } }
  (hw.throttleTest.noteAvail).irq 234

/-- POWER_SAMPLE (08/R287, R288): the energy of 10 µs at the inputs, of each square, and of the work that is never throttled. -/
def Hw.powerSample (hw : Hw) (e : Nat) (sqs : List (Nat × Nat)) (c0 : Nat) : Hw :=
  let b := hw.bud
  let was := b.c0Now
  let hw := { hw with bud := { b with
    emNow := b.emNow + e, sqNow := sqs.foldl (fun m p => mupd 0 m p.1 (· + p.2)) b.sqNow, c0Now := was + c0
    over72 := if 720 < e then some hw.elapsed else b.over72 } }
  let hw : Hw := if was ≤ 60000 ∧ 60000 < was + c0 then
      let hw := ({ hw with bud := { hw.bud with c0Over := true } } : Hw).rise .budget 2
      let hw := (hw.faultRecord { det := 0x14 }).irq 6
      hw.noteBoth ⟨9, 0, 0, hw.tb.now, hw.bud.status, []⟩
    else hw
  if hw.overLimit || decide (720 < e) then hw.throttleOn.regate
  else
    let b := hw.bud
    let calm := b.over72.all fun t => decide (t + 100000 ≤ hw.elapsed)
    if b.throttle && decide (b.throttleAt < b.winStart) && calm then ({ hw with bud := { b with throttle := false } }).regate else hw.regate

/-- The thermal trip (08/R291). A square that is ON, or on its way there, enters RETAIN; one in OFF no longer waits to leave it. -/
def Hw.trip (hw : Hw) : Hw :=
  if hw.bud.trip then hw
  else
    let f : FaultInfo := { det := 0x11, status := stSTALL }
    let hw := ({ hw with bud := { hw.bud with trip := true } } : Hw).rise .budget 16
    let hw := if hw.anyJob then
        forAll [0, 1, 2, 3] (fun j h => if (h.jobOf j).active then h.jobFault { f with job := some j } else h) hw
      else hw.faultRecord f
    let hw := forAll (List.range 64) (fun s h =>
      match (h.domOf s).moving, (h.domOf s).state with
      | some .on, _ => h.askDomain s .retain
      | none, .on => h.askDomain s .retain
      | _, _ => h.dropAsk s) hw
    (hw.irq 5).noteBoth ⟨9, 0, 0, hw.tb.now, hw.bud.status, []⟩

/-- TEMP_SAMPLE (08/R290, R291). -/
def Hw.tempSample (hw : Hw) (s : Nat) (t : Int) : Hw :=
  let hot := decide ((hw.bud.tlim : Int) - 3 ≤ t)
  let was := hw.bud.hot.contains s
  let hw := hw.modSq s fun q => { q with temp := t }
  let hw := { hw with bud := { hw.bud with hot := sput hw.bud.hot s hot } }
  let hw := if hot && !was then hw.irq 4 else hw
  let hw := if hot != was && (hw.heldBy s).isSome && (hw.jobOfSq s).isNone then hw.setPoint s (hw.idlePoint s) else hw
  if 125 ≤ t then hw.trip else hw

/-- A hot square of a class-1 or class-2 job, which runs at P7 (08/R290) except in a consolidation tempo (05/R189, log 163). -/
def Hw.heldLow (hw : Hw) (s : Nat) : Bool :=
  match hw.jobOfSq s with
  | some j =>
    let k := hw.jobOf j
    (hw.taskOf k.tid).any (·.cls != 0) && hw.bud.hot.contains s && !(k.bindings.any fun b => b.ts == k.tempo)
  | none => false

/-- DVFS_RAISE_COMPLETE (08/R294): the square switches now, or at the tempo start that it still waits for. One that has become hot
during the raise stays at its point (08/R290). -/
def Hw.raiseDone (hw : Hw) (s : Nat) : Hw :=
  let begun := !(hw.power.waiting.any fun t => match t with | .dvfs x _ up => x == s && up | .domain _ _ => false)
  match (hw.sqOf s).raising with
  | some p =>
    if !begun then hw
    else if hw.awaitsStart s then hw.modSq s fun q => { q with raising := none, volt := some p }
    else if hw.heldLow s then hw.modSq s fun q => { q with raising := none }
    else hw.modSq s fun q => q.switchTo p hw.elapsed
  | none => hw

/-! ### Registers: BUD, PWR, and the square's power block. -/

def Hw.budReg64 (hw : Hw) (off : Nat) : Option Nat :=
  if 0x40 ≤ off ∧ off < 0x58 ∧ off % 8 = 0 then some (mget 0 hw.bud.wakeSq ((off - 0x40) / 8)) else none

def Hw.budRead (hw : Hw) (off : Nat) : Nat :=
  let b := hw.bud
  match off with
  | 0x00 => b.slack + b.didt * 256
  | 0x04 => b.limit
  | 0x08 => b.tlim + b.rth * 256 + b.tcpExt * 2 ^ 16
  | 0x0C => toField 8 b.tcp + toField 8 b.thot * 256 + b.hotSq * 2 ^ 16
  | 0x10 => toField 20 b.avail
  | 0x14 => Nat.min b.emNow 0x1FFFF + Nat.min (b.emPrev / 8) 0x7FFF * 2 ^ 17
  | 0x18 => b.status
  | 0x1C => b.idleUs
  | 0x20 => b.leadUs
  | 0x60 => mget 0x3000000 b.wakeDom 0
  | 0x64 => mget 0x3000000 b.wakeDom 1
  | 0x68 => mget 0x3000000 b.wakeDom 2
  | _ => 0

/-- `v` if it lies in the range, else the old value: "other values are ignored". -/
def within (lo hi v old : Nat) : Nat := if lo ≤ v ∧ v ≤ hi then v else old

/-- TRIP is cleared, unless a square is hot (08/R291, 10 TRIP_CLEAR). -/
def Hw.budWrite (hw : Hw) (off v : Nat) : Hw × Nat :=
  let b := hw.bud
  let set : Budget → Hw × Nat := fun b => ({ hw with bud := b }, stOK)
  match off with
  | 0x00 => set { b with slack := within 64 255 (fld v 7 0) b.slack, didt := within 10 50 (fld v 15 8) b.didt }
  | 0x04 => set { b with limit := within 1000 60000 (fld v 16 0) b.limit }
  | 0x08 => set { b with tlim := within 60 115 (fld v 7 0) b.tlim, rth := within 32 255 (fld v 15 8) b.rth, tcpExt := fld v 23 16 }
  | 0x18 => let v := hw.clears .budget v; set { b with defer := b.defer && !(v.testBit 0), c0Over := b.c0Over && !(v.testBit 1), trip := b.trip && !(v.testBit 4) }
  | 0x1C => set { b with idleUs := within 10 65535 (fld v 15 0) b.idleUs }
  | 0x20 => set { b with leadUs := fld v 15 0 }
  | 0x60 => set { b with wakeDom := mset b.wakeDom 0 (fld v 26 0) }
  | 0x64 => set { b with wakeDom := mset b.wakeDom 1 (fld v 26 0) }
  | 0x68 => set { b with wakeDom := mset b.wakeDom 2 (fld v 26 0) }
  | _ => (hw, stOK)

/-- The state of a domain as PWR_STATEk shows it. -/
def Domain.code (k : Domain) : Nat :=
  match k.moving with
  | some _ => 3
  | none => match k.state with | .on => 0 | .retain => 1 | .off => 2

def good (mv : Nat) : Bool := decide (9000 ≤ mv ∧ mv ≤ 16000)

/-- PWR_SUPPLY (14/T14-5). -/
def Supply.status (s : Supply) : Nat :=
  b2n s.inUse + 2 * b2n (good s.vinA) + 4 * b2n (good s.vinB) + 8 * b2n s.aOv + 16 * b2n s.bOv + 32 * b2n s.switched
    + 64 * b2n s.range + 128 * b2n s.brownout + s.switches * 2 ^ 16

def Hw.pwrRead (hw : Hw) (off : Nat) : Nat :=
  if off < 0x18 then
    (List.range 16).foldl (fun a i => if 4 * off + i < 91 then a + (hw.domOf (4 * off + i)).code * 4 ^ i else a) 0
  else if 0x40 ≤ off ∧ off < 0x4C then mget 0 hw.power.pin ((off - 0x40) / 4)
  else if off = 0x100 then hw.supply.status
  else if off = 0x104 then hw.supply.vinA % 65536 + hw.supply.vinB % 65536 * 65536
  else 0

def Hw.pwrWrite (hw : Hw) (off v : Nat) : Hw × Nat :=
  if off = 0x20 then hw.pwrReq (fld v 6 0) (fld v 9 8)
  else if 0x40 ≤ off ∧ off < 0x4C ∧ off % 4 = 0 then (hw.pinWrite ((off - 0x40) / 4) v, stOK)
  else if off = 0x100 then
    let v := hw.clears .supply v
    ({ hw with supply := { hw.supply with
      switched := hw.supply.switched && !(v.testBit 5), range := hw.supply.range && !(v.testBit 6)
      brownout := hw.supply.brownout && !(v.testBit 7) } }, stOK)
  else (hw, stOK)

end Sys2Proof.Machine
end

