-- ==== Sys2Proof/Machine/Float32.lean ====
section
/-! DEFINITION. binary32 arithmetic and bf16 rounding for consolidation: each operation is formed exactly and rounded once
(05/R185, R186). -/

namespace Sys2Proof.Machine

/-- A binary32 value: a finite one is ± m × 2^e. -/
inductive F32 where
  | nan
  | inf (neg : Bool)
  | fin (neg : Bool) (m : Nat) (e : Int)
  deriving DecidableEq, Repr

/-- How an exact value is rounded: to nearest with ties to even, toward minus infinity, toward plus infinity. -/
inductive RMode where
  | near | down | up
  deriving DecidableEq, Repr

/-- Bits of a number. -/
def bitLen (m : Nat) : Nat := if m = 0 then 0 else Nat.log2 m + 1

/-- Round ± m × 2^e, with `sticky` for a further fraction below m's last bit, to `p` bits with no unit below 2^emin. -/
def roundTo (p : Nat) (emin : Int) (mode : RMode) (neg : Bool) (m : Nat) (e : Int) (sticky : Bool) : F32 :=
  if m = 0 ∧ !sticky then .fin neg 0 0
  else
    let q : Int := max (e + (bitLen m : Int) - (p : Int)) emin
    if q ≤ e then .fin neg m e
    else
      let s := (q - e).toNat
      let n := m / 2 ^ s
      let r := m % 2 ^ s
      let half := 2 ^ (s - 1)
      let inexact := decide (0 < r) || sticky
      let up := match mode with
        | .near => decide (half < r) || (decide (r = half) && (sticky || n % 2 == 1))
        | .down => neg && inexact
        | .up => !neg && inexact
      .fin neg (if up then n + 1 else n) q

/-- Whether ± m × 2^e reaches 2^128. -/
def tooBig (m : Nat) (e : Int) : Bool := decide (128 < e + (bitLen m : Int))

/-- A binary32 operation's exact result, rounded to nearest with subnormals kept. -/
def round32 (neg : Bool) (m : Nat) (e : Int) (sticky : Bool := false) : F32 :=
  match roundTo 24 (-149) .near neg m e sticky with
  | .fin n m e => if tooBig m e then .inf n else .fin n m e
  | x => x

/-- The signed mantissa of a finite value at exponent `e0`, which is at most its own. -/
def alignTo (neg : Bool) (m : Nat) (e e0 : Int) : Int :=
  let x : Int := ((m * 2 ^ (e - e0).toNat : Nat) : Int)
  if neg then -x else x

def F32.add (a b : F32) : F32 :=
  match a, b with
  | .nan, _ | _, .nan => .nan
  | .inf x, .inf y => if x = y then .inf x else .nan
  | .inf x, _ => .inf x
  | _, .inf y => .inf y
  | .fin n m e, .fin n' m' e' =>
    let e0 := min e e'
    let s := alignTo n m e e0 + alignTo n' m' e' e0
    if s = 0 then .fin (n && n') 0 0 else round32 (decide (s < 0)) s.natAbs e0

def F32.neg : F32 → F32
  | .nan => .nan
  | .inf x => .inf (!x)
  | .fin n m e => .fin (!n) m e

def F32.sub (a b : F32) : F32 := a.add b.neg

def F32.mul (a b : F32) : F32 :=
  match a, b with
  | .nan, _ | _, .nan => .nan
  | .inf x, .inf y => .inf (x != y)
  | .inf x, .fin y m _ => if m = 0 then .nan else .inf (x != y)
  | .fin x m _, .inf y => if m = 0 then .nan else .inf (x != y)
  | .fin x m e, .fin y m' e' => round32 (x != y) (m * m') (e + e')

def F32.div (a b : F32) : F32 :=
  match a, b with
  | .nan, _ | _, .nan => .nan
  | .inf _, .inf _ => .nan
  | .inf x, .fin y _ _ => .inf (x != y)
  | .fin x _ _, .inf y => .fin (x != y) 0 0
  | .fin x m e, .fin y m' e' =>
    if m' = 0 then (if m = 0 then .nan else .inf (x != y))
    else
      let k := 32 + bitLen m'
      round32 (x != y) (m * 2 ^ k / m') (e - e' - (k : Int)) (decide (m * 2 ^ k % m' ≠ 0))

/-- The integer square root, bit by bit from bit `n`. -/
def isqrtFrom (x : Nat) : Nat → Nat → Nat
  | 0, r => if (r + 1) * (r + 1) ≤ x then r + 1 else r
  | n + 1, r => let t := r + 2 ^ (n + 1); isqrtFrom x n (if t * t ≤ x then t else r)

def isqrt (x : Nat) : Nat := isqrtFrom x (bitLen x) 0

def F32.sqrt : F32 → F32
  | .nan => .nan
  | .inf x => if x then .nan else .inf false
  | .fin n m e =>
    if m = 0 then .fin n 0 0
    else if n then .nan
    else
      -- an even exponent, with at least 60 bits below the point
      let k : Int := if (e - 60) % 2 = 0 then e - 60 else e - 61
      let x := m * 2 ^ (e - k).toNat
      let r := isqrt x
      round32 false r (k / 2) (decide (r * r ≠ x))

def F32.ofInt (x : Int) : F32 := .fin (decide (x < 0)) x.natAbs 0

/-- `a` is less than `b`; false when either is not a number. -/
def F32.lt (a b : F32) : Bool :=
  match a, b with
  | .nan, _ | _, .nan => false
  | .inf x, .inf y => x && !y
  | .inf x, .fin _ _ _ => x
  | .fin _ _ _, .inf y => !y
  | .fin n m e, .fin n' m' e' => let e0 := min e e'; decide (alignTo n m e e0 < alignTo n' m' e' e0)

/-- Equal as numbers. -/
def F32.eqv (a b : F32) : Bool :=
  match a, b with
  | .nan, _ | _, .nan => false
  | a, b => !(a.lt b) && !(b.lt a)

def F32.isNan : F32 → Bool | .nan => true | _ => false
def F32.isInf : F32 → Bool | .inf _ => true | _ => false
def F32.negative : F32 → Bool | .nan => false | .inf n => n | .fin n _ _ => n
def F32.finite : F32 → Bool | .fin _ _ _ => true | _ => false

/-- The floor of a finite value. -/
def F32.floor : F32 → Int
  | .fin n m e =>
    if 0 ≤ e then (let x : Int := ((m * 2 ^ e.toNat : Nat) : Int); if n then -x else x)
    else asr (if n then -(m : Int) else (m : Int)) (-e).toNat
  | _ => 0

/-- A finite value rounded to an integer, to nearest with ties to even. -/
def F32.rint : F32 → Int
  | .fin n m e =>
    if 0 ≤ e then (let x : Int := ((m * 2 ^ e.toNat : Nat) : Int); if n then -x else x)
    else
      let s := (-e).toNat
      let q := m / 2 ^ s
      let r := m % 2 ^ s
      let up := decide (2 ^ (s - 1) < r) || (decide (r = 2 ^ (s - 1)) && q % 2 == 1)
      let v : Int := ((if up then q + 1 else q : Nat) : Int)
      if n then -v else v
  | _ => 0

/-- The value of a binary32 pattern. -/
def F32.ofBits (b : Nat) : F32 :=
  let n := b.testBit 31
  let x := fld b 30 23
  let f := fld b 22 0
  if x = 255 then (if f = 0 then .inf n else .nan)
  else if x = 0 then .fin n f (-149)
  else .fin n (f + 2 ^ 23) ((x : Int) - 150)

/-- The value of a bf16 pattern: the upper 16 bits of a binary32 value (05/R167). -/
def F32.ofBf (h : Nat) : F32 := F32.ofBits (h * 65536)

/-- The largest finite bf16 value, 0x7F7F. -/
def bfMax : F32 := F32.ofBf 0x7F7F

/-- The bf16 pattern of a finite value rounded in one direction (05/R186). -/
def bf16Of (x : F32) (mode : RMode) : Nat :=
  match x with
  | .fin n m e =>
    match roundTo 8 (-133) mode n m e false with
    | .fin n m e =>
      let sign := b2n n * 2 ^ 15
      if m = 0 then sign
      else
        -- bring the mantissa to 8 bits, or to the subnormal unit
        let l := (bitLen m : Int)
        let q := max (e + l - 8) (-133)
        let k := if q ≤ e then m * 2 ^ (e - q).toNat else m / 2 ^ (q - e).toNat
        if k < 2 ^ 7 then sign + k else sign + (q + 134).toNat * 2 ^ 7 + (k - 2 ^ 7)
    | _ => 0
  | _ => 0

end Sys2Proof.Machine
end

