-- ==== Sys2Proof/Machine/Operands.lean ====
section
/-! DEFINITION. Micro-ops: their encoding, their fields, their operands and the arithmetic that neuron programs, event programs
and controller programs share (03/R100 to R109, 07/T7-4). -/

namespace Sys2Proof.Machine

/-- The opcodes of Tables 3-8 and 7-4. -/
inductive Op where
  | nop | add | sub | mul | shr | shl | min | max | abs | neg | mov | ldi
  | cmpge | cmplt | cmpeq | cmpnz | thr | lut | fire | rst | prt | trc
  | send | recv | jmp | ldw | stw | qop | fin
  deriving DecidableEq, Repr

/-- OP of an opcode. -/
def opCode : Op → BitVec 6
  | .nop => 0x00 | .add => 0x01 | .sub => 0x02 | .mul => 0x03 | .shr => 0x04 | .shl => 0x05
  | .min => 0x06 | .max => 0x07 | .abs => 0x08 | .neg => 0x09 | .mov => 0x0A | .ldi => 0x0B
  | .cmpge => 0x10 | .cmplt => 0x11 | .cmpeq => 0x12 | .cmpnz => 0x13 | .thr => 0x14
  | .lut => 0x18 | .fire => 0x20 | .rst => 0x21 | .prt => 0x28 | .trc => 0x30
  | .send => 0x38 | .recv => 0x39 | .jmp => 0x3A | .ldw => 0x3B | .stw => 0x3C | .qop => 0x3D | .fin => 0x3F

/-- Every opcode. -/
def allOps : List Op :=
  [.nop, .add, .sub, .mul, .shr, .shl, .min, .max, .abs, .neg, .mov, .ldi, .cmpge, .cmplt, .cmpeq, .cmpnz, .thr, .lut,
   .fire, .rst, .prt, .trc, .send, .recv, .jmp, .ldw, .stw, .qop, .fin]

/-- The opcode of an OP field; none where it is reserved. -/
def opOf (c : BitVec 6) : Option Op := allOps.find? fun o => opCode o == c

/-- A micro-op (03/T3-7). -/
structure Uop where
  op   : Op
  pred : BitVec 2
  d    : BitVec 3
  a    : BitVec 4
  b    : BitVec 4
  imm  : BitVec 13
  deriving DecidableEq, Repr

/-- The word of a micro-op (03/T3-7). -/
def uopEncode (u : Uop) : Word := opCode u.op ++ u.pred ++ u.d ++ u.a ++ u.b ++ u.imm

/-- The micro-op of a word; none where OP is reserved. -/
def uopDecode (w : Word) : Option Uop :=
  (opOf (w.extractLsb' 26 6)).map fun o =>
    { op := o, pred := w.extractLsb' 24 2, d := w.extractLsb' 21 3, a := w.extractLsb' 17 4, b := w.extractLsb' 13 4
      imm := w.extractLsb' 0 13 }

def Uop.im (u : Uop) : Nat := u.imm.toNat

/-- Which of D, A, B an opcode uses, and the mask of IMM bits it uses (03/T3-8, 07/T7-4). FIRE uses A only with IMM[0] = 1. -/
def Uop.fields (u : Uop) : Bool × Bool × Bool × Nat :=
  match u.op with
  | .nop => (false, false, false, 0)
  | .add | .sub | .min | .max => (true, true, true, 0)
  | .mul => (true, true, true, 0x3F)
  | .shr | .shl => (true, true, false, 0x1F)
  | .abs | .neg | .mov => (true, true, false, 0)
  | .ldi => (true, false, false, 0x1FFF)
  | .cmpge | .cmplt | .cmpeq | .thr => (false, true, true, 0)
  | .cmpnz => (false, true, false, 0)
  | .lut => (true, true, false, 0x1F)
  | .fire => (false, u.im.testBit 0, false, 1)
  | .rst => (false, false, true, 0x1F)
  | .prt => (true, false, false, 0)
  | .trc => (false, false, false, 0x1FF)
  | .send | .recv => (true, true, false, 3)
  | .jmp => (false, false, false, 0xFF)
  | .ldw => (true, true, false, 0x7FF)
  | .stw => (false, true, true, 0x7FF)
  | .qop => (true, false, false, 0xF)
  | .fin => (false, false, false, 0)

/-- Unused fields are zero, PRED is not reserved, and an END is unconditional (03/R101, R103). -/
def Uop.formOk (u : Uop) : Bool :=
  let f := u.fields
  (f.1 || u.d == 0) && (f.2.1 || u.a == 0) && (f.2.2.1 || u.b == 0) && (u.im &&& f.2.2.2) == u.im
    && u.pred != 3 && (u.op != .fin || u.pred == 0)

/-- Stages of a micro-op (03/T3-8). -/
def Uop.stages (u : Uop) : Nat := match u.op with | .mul | .lut => 2 | .fin => 0 | _ => 1

/-- Saturation to 24 bits signed (03/R102). -/
def sat24 (x : Int) : Int := clampInt (-8388608) 8388607 x

/-- Registers of a program: W0 to W7 and F. -/
structure Regs where
  w : List (Nat × Int) := []
  f : Bool := false
  deriving DecidableEq, Repr

def Regs.get (r : Regs) (i : Nat) : Int := mget 0 r.w i
def Regs.set (r : Regs) (i : Nat) (x : Int) : Regs := { r with w := mset r.w i (sat24 x) }

/-- A source operand: 0 to 7 a register, 8 to 15 a constant (03/T3-7). -/
def operand (k : List Int) (r : Regs) (c : BitVec 4) : Int :=
  if c.toNat < 8 then r.get c.toNat else k.getD (c.toNat - 8) 0

/-- PRED holds (03/T3-7). -/
def Uop.holds (u : Uop) (f : Bool) : Bool := if u.pred = 0 then true else if u.pred = 1 then f else if u.pred = 2 then !f else false

/-- MUL: the exact product divided by 2^IMM[4:0], rounded as IMM[5] selects (03/R104). -/
def mulShift (a b : Int) (imm : Nat) : Int :=
  if imm.testBit 5 then Int.tdiv (a * b) ((2 ^ fld imm 4 0 : Nat) : Int) else asr (a * b) (fld imm 4 0)

/-- The value an arithmetic opcode gives, before saturation (03/T3-8). -/
def aluValue (op : Op) (a b : Int) (imm : Nat) : Int :=
  match op with
  | .add => a + b
  | .sub => a - b
  | .mul => mulShift a b imm
  | .shr => asr a (fld imm 4 0)
  | .shl => a * ((2 ^ fld imm 4 0 : Nat) : Int)
  | .min => if a ≤ b then a else b
  | .max => if a ≤ b then b else a
  | .abs => if a < 0 then -a else a
  | .neg => -a
  | .mov => a
  | .ldi => sext 13 imm
  | _ => 0

/-- The opcodes that write D with `aluValue`. -/
def isAlu : Op → Bool
  | .add | .sub | .mul | .shr | .shl | .min | .max | .abs | .neg | .mov | .ldi => true
  | _ => false

end Sys2Proof.Machine
end

