-- ==== Sys2Proof/Machine/Flags.lean ====
section
/-! DEFINITION. The flag F of programs: what each compare makes of it, and one step of the micro-ops that all programs share
(03/R101, R103, T3-8). -/

namespace Sys2Proof.Machine

/-- F after a compare (03/T3-8). -/
def cmpFlag (op : Op) (a b : Int) : Bool :=
  match op with
  | .cmpge => decide (b ≤ a)
  | .cmplt => decide (a < b)
  | .cmpeq => decide (a = b)
  | .cmpnz => decide (a ≠ 0)
  | _ => false

def isCmp : Op → Bool
  | .cmpge | .cmplt | .cmpeq | .cmpnz => true
  | _ => false

/-- F after THR: A at least B while the refractory count is zero (03/T3-8). -/
def thrFlag (a b w2 : Int) : Bool := decide (b ≤ a) && decide (w2 = 0)

/-- One micro-op of the shared set: arithmetic writes D, a compare writes F, everything else is left alone. A micro-op whose
PRED is false changes nothing (03/R101). -/
def sharedStep (u : Uop) (k : List Int) (r : Regs) : Regs :=
  if u.holds r.f then
    let a := operand k r u.a
    let b := operand k r u.b
    if isAlu u.op then r.set u.d.toNat (aluValue u.op a b u.im)
    else if isCmp u.op then { r with f := cmpFlag u.op a b }
    else r
  else r

end Sys2Proof.Machine
end

