-- ==== Sys2Proof/Machine/Neuron.lean ====
section
/-! DEFINITION. The neuron record, the table image, the fixed steps of an update, neuron programs, the sweep touch and pairs
(02/R57 to R62, 03/R88 to R119, 05/R175). -/

namespace Sys2Proof.Machine

/-! ### The table image (03/T3-3 to T3-5). -/

def modelCfg (img : List Byte) (m : Nat) : Nat := leAt img (0x80 * m) 4
def modelLen (img : List Byte) (m : Nat) : Nat := fld (modelCfg img m) 5 0
def modelRole (img : List Byte) (m : Nat) : Nat := fld (modelCfg img m) 7 6
def modelLeakEn (img : List Byte) (m : Nat) : Bool := (modelCfg img m).testBit 8
def modelAlways (img : List Byte) (m : Nat) : Bool := (modelCfg img m).testBit 9
def modelValid (img : List Byte) (m : Nat) : Bool := (modelCfg img m).testBit 10
def modelK (img : List Byte) (m : Nat) : List Int := (List.range 8).map fun j => sext 24 (leAt img (0x80 * m + 8 + 4 * j) 4)
def modelLeak (img : List Byte) (m k : Nat) : Nat := leAt img (0x80 * m + 40 + 2 * k) 2
def modelLut (img : List Byte) (m i : Nat) : Int := sext 24 (leAt img (0x1400 + 0x100 * m + 4 * i) 4)
def channelWord (img : List Byte) (c : Nat) : Nat := leAt img (0x1000 + 4 * c) 4
def channelWide (img : List Byte) (c : Nat) : Bool := (channelWord img c).testBit 21

/-- The words of a program: up to and including the first END, or LEN words (03/R109). -/
def programWords (img : List Byte) (base len : Nat) : List Word :=
  let ws := (List.range len).map fun i => BitVec.ofNat 32 (leAt img (base + 4 * i) 4)
  let isEnd : Word → Bool := fun w => w.extractLsb' 26 6 == 0x3F
  let body := ws.takeWhile fun w => !isEnd w
  body ++ (ws.drop body.length).take 1

def modelProgram (img : List Byte) (m : Nat) : List Word :=
  programWords img (0x800 + 0x80 * m) (Nat.min (modelLen img m) 32)

/-- Stage cost of a program, and the passes of a model: 0 when it is not valid (03/R109, T3-18). -/
def stageCost (ws : List Word) : Nat := (ws.map fun w => match uopDecode w with | some u => u.stages | none => 1).sum
def modelPasses (img : List Byte) (m : Nat) : Nat :=
  if !(modelValid img m) then 0 else if stageCost (modelProgram img m) ≤ 16 then 1 else 2

/-! ### The record (03/T3-1). -/

def recMembrane (r : List Byte) : Int := sext 24 (leAt r 5 3)
def recModel (r : List Byte) : Nat := leAt r 4 1 / 16
def recRefr (r : List Byte) : Nat := leAt r 4 1 % 16
def recTrace (r : List Byte) : Nat := leAt r 3 1
def recLast (r : List Byte) : Nat := leAt r 1 2
def recChannel (r : List Byte) : Nat := leAt r 0 1
def recSlot (r : List Byte) (k : Nat) : Int := sext 24 (leAt r (8 + 3 * k) 3)

/-- A record with new MEMBRANE, REFR, TRACE and LAST (03/R89). -/
def recSet (r : List Byte) (m : Int) (refr trace last : Nat) : List Byte :=
  r.take 1 ++ leBytes 2 last ++ leBytes 1 trace ++ leBytes 1 (recModel r * 16 + refr % 16) ++ leBytes 3 (toField 24 m) ++ r.drop 8

/-- A record with a new value in ring slot k. -/
def recSetSlot (r : List Byte) (k : Nat) (v : Int) : List Byte :=
  r.take (8 + 3 * k) ++ leBytes 3 (toField 24 v) ++ r.drop (11 + 3 * k)

/-! ### Decays (02/R58, 05/R175). -/

/-- The leak: each set bit k of n multiplies by entry k and rounds toward zero (02/R58). -/
def decay (m : Int) (tab : Nat → Nat) (n : Nat) : Int :=
  (List.range 16).foldl (fun m k =>
    if n.testBit k then (if m < 0 then -1 else 1) * (((m.natAbs * tab k) / 65536 : Nat) : Int) else m) m

def decayU8 (x : Nat) (tab : Nat → Nat) (n : Nat) : Nat :=
  (List.range 16).foldl (fun x k => if n.testBit k then (x * tab k) / 65536 else x) x

def decayS8 (x : Int) (tab : Nat → Nat) (n : Nat) : Int := decay x tab n

/-- Trace table of a model in a rule image, when the image enables it (05/T5-2, R175). -/
def traceTable (rule : Option (List Byte)) (m : Nat) : Option (Nat → Nat) :=
  match rule with
  | none => none
  | some b =>
    let cfg := leAt b 0 4
    let q := fld (leAt b 4 4) (2 * m + 1) (2 * m)
    if cfg.testBit 0 && cfg.testBit (1 + q) then some fun k => leAt b (64 + 32 * q + 2 * k) 2 else none

/-- What one core updates with: its table image and its rule image. -/
structure Tables where
  img  : List Byte
  rule : Option (List Byte)

/-- Tempos since the last touch (02/R57). -/
def sinceLast (r : List Byte) (t : Nat) : Nat := (t + 65536 - recLast r) % 65536

/-- MEMBRANE, REFR and TRACE after the decay, refractory and trace steps (02/R57). -/
def fixedSteps (tb : Tables) (r : List Byte) (t : Nat) : Int × Nat × Nat :=
  let n := sinceLast r t
  let mo := recModel r
  let m := if modelLeakEn tb.img mo then decay (recMembrane r) (modelLeak tb.img mo) n else recMembrane r
  let tr := match traceTable tb.rule mo with | some tab => decayU8 (recTrace r) tab n | none => recTrace r
  (m, recRefr r - n, tr)

/-- SWEEP_TOUCH (02/R61, 03/R89). -/
def touchRec (tb : Tables) (r : List Byte) (t : Nat) : List Byte :=
  let x := fixedSteps tb r t
  recSet r x.1 x.2.1 x.2.2 (t % 65536)

/-- The rescale of a slot sum through the neuron's channel (02/R59). -/
def rescale (img : List Byte) (c : Nat) (s : Int) : Int :=
  let w := channelWord img c
  asr (s * (fld w 15 0 : Nat)) (fld w 20 16)

/-- The registers a program starts with, and the record with its ring slot read (02/R57, 03/T3-6). -/
def entryRegs (tb : Tables) (r : List Byte) (t : Nat) : Regs × List Byte :=
  let x := fixedSteps tb r t
  let k := (t + 1) % 8
  let v := rescale tb.img (recChannel r) (recSlot r k)
  ({ w := [(0, sat24 (x.1 + v)), (1, sat24 v), (2, (x.2.1 : Int)), (3, (x.2.2 : Int))], f := false }, recSetSlot r k 0)

/-! ### Programs (03/R98 to R109, R115). -/

/-- A running neuron program: its registers and the value of the first FIRE. -/
structure NeuronRun where
  r    : Regs
  fire : Option Nat := none

/-- One micro-op of a neuron program; `p` is the partner's W0 at entry. -/
def neuronStep (img : List Byte) (m : Nat) (k : List Int) (p : Int) (x : NeuronRun) (u : Uop) : NeuronRun :=
  let a := operand k x.r u.a
  let b := operand k x.r u.b
  if !(u.holds x.r.f) then x
  else match u.op with
    | .thr => { x with r := { x.r with f := thrFlag a b (x.r.get 2) } }
    | .lut => { x with r := x.r.set u.d.toNat (modelLut img m (clampInt 0 63 (asr a (fld u.im 4 0))).toNat) }
    | .fire =>
      match x.fire with
      | some _ => x
      | none => { x with fire := some (if u.im.testBit 0 then (clampInt 1 255 a).toNat else 0) }
    | .rst =>
      let r := x.r.set 0 (if u.im.testBit 4 then x.r.get 0 - b else b)
      { x with r := r.set 2 (fld u.im 3 0 : Nat) }
    | .prt => { x with r := x.r.set u.d.toNat p }
    | .trc =>
      let v : Int := if u.im.testBit 8 then (fld u.im 7 0 : Nat)
                     else (let s := x.r.get 3 + (fld u.im 7 0 : Nat); if s < 255 then s else 255)
      { x with r := x.r.set 3 v }
    | _ => { x with r := sharedStep u k x.r }

def runProgram (img : List Byte) (m : Nat) (p : Int) (r : Regs) : NeuronRun :=
  let k := modelK img m
  (modelProgram img m).foldl (fun x w => match uopDecode w with
    | some u => neuronStep img m k p x u
    | none => x) { r := r }

/-- The write-back (02/R57, 03/R99). -/
def writeBack (r : List Byte) (x : Regs) (t : Nat) : List Byte :=
  recSet r (x.get 0) (clampInt 0 15 (x.get 2)).toNat (clampInt 0 255 (x.get 3)).toNat (t % 65536)

/-- NEURON_UPDATE of one single neuron: its record after, and the value it fired with (02/R57). -/
def updateSingle (tb : Tables) (t : Nat) (r : List Byte) : List Byte × Option Nat :=
  let e := entryRegs tb r t
  let x := runProgram tb.img (recModel r) 0 e.1
  (writeBack e.2 x.r t, x.fire)

/-- The update of a pair: each member sees the partner's W0 at entry (03/R115). -/
def updatePair (tb : Tables) (t : Nat) (r0 r1 : List Byte) : (List Byte × Option Nat) × (List Byte × Option Nat) :=
  let e0 := entryRegs tb r0 t
  let e1 := entryRegs tb r1 t
  let x0 := runProgram tb.img (recModel r0) (e1.1.get 0) e0.1
  let x1 := runProgram tb.img (recModel r1) (e0.1.get 0) e1.1
  ((writeBack e0.2 x0.r t, x0.fire), (writeBack e1.2 x1.r t, x1.fire))

/-- Whether a neuron belongs to a pair, by its model's ROLE (03/R114). -/
def paired (img : List Byte) (r : List Byte) : Bool := let x := modelRole img (recModel r); x == 1 || x == 2

end Sys2Proof.Machine
end

