-- ==== Sys2Proof/Machine/Snapshot.lean ====
section
/-! DEFINITION. Snapshot units: their copies in the Mirror tier, the copier, and writes to live state that wait for it
(09/R324, R325, R327, R494). -/

namespace Sys2Proof.Machine

/-- One byte of a fire record (09/R494). -/
def fireByte (f : List (Nat × Nat)) (b : Nat) : Byte :=
  if b < 2048 then BitVec.ofNat 8 ((List.range 8).foldl (fun a i => if mhas f (8 * b + i) then a + 2 ^ i else a) 0)
  else BitVec.ofNat 8 (mget 0 f (b - 2048))

/-- One byte of a due bitmap (03/R117). -/
def dueByte (d : List Nat) (b : Nat) : Byte :=
  BitVec.ofNat 8 ((List.range 8).foldl (fun a i => if d.contains (8 * b + i) then a + 2 ^ i else a) 0)

/-- The snapshot control block (09/T9-3). -/
def Hw.controlBlock (hw : Hw) (s : Nat) : List Byte :=
  let base : (Slot → Option Image) → Nat → Nat → List Byte := fun f d l =>
    leBytes 4 (match f (hw.lslot s l) with | some i => i.base | none => d)
  leBytes 8 (hw.sqOf s).flt.snapAt
    ++ ((List.range 18).map fun l => leBytes 4 (hw.lslot s l).lfsr.toNat).flatten
    ++ ((List.range 18).map fun l => base Slot.table 0 l).flatten
    ++ ((List.range 18).map fun l => base Slot.rule 0xFFFFFFFF l).flatten

/-- Where the Mirror tier holds neuron N of logical core L (09/T9-2). -/
def Hw.mirRec (hw : Hw) (s l n : Nat) : Nat := mirTier s + 32 * ((hw.sqOf s).flt.nsnapBase l + n)

/-- The neurons of row r of core L that snapshots hold. -/
def Hw.rowNeurons (hw : Hw) (s l r : Nat) : List Nat :=
  ((List.range 16).map fun i => 16 * r + i).filter fun n => n < (hw.sqOf s).flt.nsnapOf l

/-- Where the Mirror tier holds a unit: address and length of each piece with the live address it restores. -/
def Hw.unitMirror (hw : Hw) (s : Nat) : SnapUnit → List (Nat × Nat × Nat)
  | .row l r => (hw.rowNeurons s l r).map fun n => (hw.mirRec s l n, hw.recAddr s l n, 32)
  | .plastic i => [(mirTier s + 0x800000 + 256 * i, recordAt s i, 256)]
  | .due l b q => [(mirTier s + 0xF40000 + 0x4000 * l + 0x800 * b + 512 * q, 0, 512)]
  | .fire l p => [(mirTier s + 0xF89000 + 0x4800 * l + 512 * p, 0, 512)]
  | .control => [(mirTier s + 0xF88000, 0, 4096)]

/-- What the copier reads for a unit in the banks: a record that a consolidation left gives its block's weights too (09/R327). -/
def Hw.unitSources (hw : Hw) (s : Nat) (u : SnapUnit) : List (Nat × Nat) :=
  match u with
  | .row l r => [(hw.recAddr s l (16 * r), 32 * (hw.rowNeurons s l r).length)]
  | .plastic i =>
    (recordAt s i, 256) :: (if (hw.sqOf s).flt.consPend.contains i then
      [(synTier s + 128 * hw.recLine s i, 4 * (hw.sqOf s).used i)] else [])
  | .due _ _ _ | .fire _ _ | .control => []

/-- A word of a unit cannot be read (09/R324, 12/R404). -/
def Hw.unitFault (hw : Hw) (s : Nat) (u : SnapUnit) : Found :=
  match hw.sramAt s u with
  | some f => some f
  | none => (hw.unitSources s u).findSome? fun r => hw.eccAt r.1 r.2

/-- The live form of a consolidated record in a snapshot: COMMIT = 1 and WN = the entries' weights (09/R327). -/
def Hw.consForm (hw : Hw) (s i : Nat) (b : List Byte) : List Byte :=
  let used := (hw.sqOf s).used i
  let line := hw.recLine s i
  let wn := (List.range used).map fun k => BitVec.ofNat 8 (hw.weightAt s line k)
  let f := leAt b 176 1
  b.take 128 ++ wn ++ (b.drop (128 + used)).take (48 - used) ++ leBytes 1 (f % 8 + 8 + f / 32 * 32) ++ b.drop 177

/-- The copy of a unit in the Mirror tier. -/
def Hw.copyBytes (hw : Hw) (s : Nat) (u : SnapUnit) : Hw :=
  match u with
  | .row l r =>
    (hw.rowNeurons s l r).foldl (fun h n => h.wrWhole (h.mirRec s l n) (h.rd (h.recAddr s l n) 32)) hw
  | .plastic i =>
    let b := hw.rd (recordAt s i) 256
    hw.wrWhole (mirTier s + 0x800000 + 256 * i) (if (hw.sqOf s).flt.consPend.contains i then hw.consForm s i b else b)
  | .due l b q =>
    let d := mget [] (hw.lslot s l).due b
    hw.wrWhole (mirTier s + 0xF40000 + 0x4000 * l + 0x800 * b + 512 * q)
      ((List.range 512).map fun k => dueByte d (512 * q + k))
  | .fire l p =>
    let f := (hw.lslot s l).fire
    hw.wrWhole (mirTier s + 0xF89000 + 0x4800 * l + 512 * p) ((List.range 512).map fun k => fireByte f (512 * p + k))
  | .control => (hw.wipe (mirTier s + 0xF88000) 4096).wr (mirTier s + 0xF88000) (hw.controlBlock s)

/-! ### The end of the copy (09/R328, 12/R419). -/

/-- A block of an export. -/
def Hw.exportBlock (hw : Hw) (s : Nat) : List Byte := hw.rd (mirTier s) 0xE00000 ++ hw.rd (mirTier s + 0xF40000) 0x9A000

/-- The export image of a job's snapshot. -/
def Hw.exportImage (hw : Hw) (j : Nat) : List Byte :=
  let job := hw.jobOf j
  let blocks := ((hw.jobSqs j).map hw.exportBlock).flatten
  leBytes 2 0x5845 ++ leBytes 1 1 ++ leBytes 1 (hw.jobSqs j).length ++ leBytes 4 job.jobId ++ leBytes 6 job.snapT
    ++ leBytes 2 0 ++ leBytes 8 job.mask ++ List.replicate 40 0 ++ leBytes 64 (Config.sha3 blocks).toNat ++ blocks

/-- SNAPSHOT tasks of a job whose point has come and that still write their image. -/
def Hw.exporting (hw : Hw) (j : Nat) : List (Nat × Task) :=
  hw.seq.tasks.filter fun p => p.2.state == .running && p.2.ty == tySnapshot && p.2.jslot == j && p.2.snapT.isSome

/-- What an export reads of square s (12/R419). -/
def exportReads (s : Nat) : List (Nat × Nat) := [(mirTier s, 0xE00000), (mirTier s + 0xF40000, 0x9A000)]

/-- Why an export cannot be made: a word that it would copy is uncorrectable, and never used (09/R307, 12/R404), or a quarter of a
Mirror tier is OFF (12/R396). -/
def Hw.exportStatus (hw : Hw) (j : Nat) : Nat :=
  (((hw.jobSqs j).map fun s => hw.readStatus s (exportReads s)).find? (· != stOK)).getD stOK

/-- The export reads the Mirror tiers: their bank groups come ON. -/
def Hw.exportUse (hw : Hw) (j : Nat) : Hw := forAll (hw.jobSqs j) (fun s h => h.checkReads s (exportReads s)) hw

/-- A SNAPSHOT task writes its export. An image that does not fit into PSRAM is not written, and its task ends with BAD_PARAM; one
that would copy an uncorrectable word is not written either, and its task ends with ECC_UNCORR (log 178). The write is held
while a channel trains, and a channel that has failed answers ABSENT (12/R411, R412). -/
def Hw.exportOne (hw : Hw) (j t : Nat) (k : Task) : Hw :=
  let a := k.param 8 5
  let img := hw.exportImage j  -- its length decides whether and where it is written
  if hw.exportStatus j ≠ stOK then hw.taskEnd t (hw.exportStatus j)
  else if !inPsram a img.length then hw.taskEnd t stBADPARAM
  else if hw.psramHeld a img.length then (hw.modTask t fun k => { k with memWait := [j] }).wakePsram a img.length
  else if hw.psramAbsent a img.length then hw.taskEnd t stABSENT
  else
    let hw := hw.exportUse j
    (((hw.wr a (hw.exportImage j)).unpoison a (img.length / 8 * 8)).touchPsram a img.length).taskEnd t stOK

/-- The copy of a snapshot has finished: waiting exports are written and their tasks end. -/
def Hw.copyDone (hw : Hw) (j : Nat) : Hw :=
  let hw := (hw.modJob j fun k => { k with copying := false, initCopy := false }).irq 227
  (hw.exporting j).foldl (fun (h : Hw) p => h.exportOne j p.1 p.2) hw

/-- A unit of the job has PEND = 1. -/
def Hw.copyRuns (hw : Hw) (j : Nat) : Bool := (hw.jobSqs j).any fun s => !(hw.sqOf s).flt.pend.isEmpty

/-- The copy of the snapshot that holds square s looks whether it has finished. It goes on after its job has ended (09/R321). -/
def Hw.copyLook (hw : Hw) (s : Nat) : Hw :=
  forAll [0, 1, 2, 3] (fun j h =>
    if (h.jobOf j).copying && (h.jobOf j).mask.testBit s && !(h.copyRuns j) then h.copyDone j else h) hw

/-- Copy one pending unit and clear its PEND. A unit that cannot be read stops the job: the state of the snapshot point is
lost (09/R324, R334); one whose path parity fails stays pending, and is read again. -/
def Hw.copyUnit (hw : Hw) (s : Nat) (u : SnapUnit) : Hw :=
  match hw.unitFault s u with
  | some f =>
    if f.det = 0x04 then hw.jobFault { f with job := hw.jobOfSq s, sq := some s } else
    let hw := hw.modFlt s fun f => { f with pend := f.pend.erase u }
    hw.jobFault { f with det := 0x19, detail := 0, job := hw.jobOfSq s, sq := some s }
  | none =>
    let hw := hw.useAt s ((hw.unitSources s u ++ (hw.unitMirror s u).map fun x => (x.1, x.2.2)).map (·.1))
    ((hw.copyBytes s u).modFlt s fun f =>
      { f with pend := f.pend.erase u, consPend := match u with | .plastic i => sdel f.consPend i | _ => f.consPend }).copyLook s

/-- The copier takes a unit first, and again each time a word of it was handed over with bad path parity, until it is no longer
pending. -/
def Hw.copyFully (s : Nat) (u : SnapUnit) : Nat → Hw → Hw
  | 0, hw => hw
  | n + 1, hw => if (hw.sqOf s).flt.pend.contains u then (hw.copyUnit s u).copyFully s u n else hw

/-- A pending unit is copied now: a write waits until it has been, the rule engine reads a record only then, and the control block
changes only then (09/R324). Each attempt that fails takes a word out of those handed over with bad path parity, so the copy ends. -/
def Hw.unitRead (hw : Hw) (s : Nat) (u : SnapUnit) : Hw := hw.copyFully s u (hw.banks.path.length + 1)
def Hw.controlSaved (hw : Hw) (s : Nat) : Hw := hw.unitRead s .control

/-- Every pending record that a consolidation left is copied before an entry of a block changes (09/R327). -/
def Hw.consSaved (hw : Hw) (s : Nat) : Hw := (hw.sqOf s).flt.consPend.foldl (fun (h : Hw) i => h.unitRead s (.plastic i)) hw

/-- Before a write to live state: a pending unit is copied first; then the unit is DIRTY (09/R324). -/
def Hw.unitWrite (hw : Hw) (s : Nat) (u : SnapUnit) : Hw :=
  (hw.unitRead s u).modFlt s fun f => f.mark u

/-- Every unit of a square, for the copy at a job's start (09/R322, R329). -/
def Hw.allUnits (hw : Hw) (s : Nat) : List SnapUnit :=
  let cores := (hw.sqOf s).cores
  (cores.flatMap fun l => (List.range (((hw.sqOf s).flt.nsnapOf l + 15) / 16)).map (SnapUnit.row l))
    ++ (List.range 24576).map SnapUnit.plastic
    ++ (cores.flatMap fun l => (List.range 8).flatMap fun b => (List.range 4).map (SnapUnit.due l b))
    ++ (cores.flatMap fun l => (List.range 36).map (SnapUnit.fire l))
    ++ [.control]

/-! ### Live neuron state. -/

def Hw.nrec (hw : Hw) (s l n : Nat) : List Byte := hw.rd (hw.recAddr s l n) 32

/-- The core reads a neuron record: a poisoned word is found (12/R404). -/
def Hw.recFault (hw : Hw) (s l n : Nat) : Found := hw.eccAt (hw.recAddr s l n) 32

/-- Write a neuron record. -/
def Hw.putRec (hw : Hw) (s l n : Nat) (b : List Byte) : Hw :=
  let hw := (hw.unitWrite s (.row l (n / 16))).useAt s [hw.recAddr s l n]
  hw.wrWhole (hw.recAddr s l n) b

/-- Add a contribution to a slot accumulator, which is read and written in part (02/R54, R56, 12/R401). -/
def Hw.addSlot (hw : Hw) (s l n k : Nat) (x : Int) : Hw × Found :=
  let v := recSlot (hw.nrec s l n) k + x
  let a := hw.recAddr s l n + 8 + 3 * k
  match hw.eccAt a 3 with
  | some f => (hw, some f)
  | none =>
    if v < -8388608 ∨ 8388607 < v then (hw, some { det := 0x0C, status := stOVERFLOW })
    else
      let hw := (hw.unitWrite s (.row l (n / 16))).useAt s [a]
      (hw.wr a (leBytes 3 (toField 24 v)), none)

/-- Make a neuron due for tempo u: one bit of a bitmap (03/R117, 12/R401). -/
def Hw.setDue (hw : Hw) (s l n u : Nat) : Hw × Found :=
  match hw.sramAt s (.due l (u % 8) (n / 4096)) with
  | some f => (hw, some f)
  | none =>
    let hw := hw.unitWrite s (.due l (u % 8) (n / 4096))
    (hw.modL s l fun p => { p with due := mupd [] p.due (u % 8) (sins · n) }, none)

end Sys2Proof.Machine
end

