-- ==== Sys2Proof/Machine/Rules.lean ====
section
/-! DEFINITION. The rule engine: rule images, random draws, the gradient accumulator, event work, modulation passes and
consolidation (05/R164 to R190). -/

namespace Sys2Proof.Machine

/-! ### The rule image (05/T5-2, T5-3). -/

def ruleEn (b : List Byte) : Bool := (leAt b 0 4).testBit 0
def ruleNRange (b : List Byte) : Nat := fld (leAt b 0 4) 8 5
def ruleModb (b : List Byte) (q : Nat) : Nat := leAt b (8 + 2 * q) 2
def ruleZero (b : List Byte) (q : Nat) : Nat := leAt b (16 + q) 1
def ruleSeed (b : List Byte) : Nat := leAt b 20 4

/-- Field of plastic range r at an offset of its descriptor. -/
def rangeAt (b : List Byte) (r off n : Nat) : Nat := leAt b (256 + 256 * r + off) n
def rangeLo (b : List Byte) (r : Nat) : Nat := fld (rangeAt b r 0 4) 16 0
def rangeHi (b : List Byte) (r : Nat) : Nat := fld (rangeAt b r 4 4) 16 0
def rangeIdx (b : List Byte) (r : Nat) : Nat := fld (rangeAt b r 8 2) 14 0
def rangeXinc (b : List Byte) (r : Nat) : Nat := rangeAt b r 10 1
def rangeDshift (b : List Byte) (r : Nat) : Nat := fld (rangeAt b r 11 1) 4 0
def rangeMshift (b : List Byte) (r : Nat) : Nat := fld (rangeAt b r 12 1) 4 0
def rangeMsel (b : List Byte) (r : Nat) : Nat := fld (rangeAt b r 13 1) 1 0
def rangeModEn (b : List Byte) (r : Nat) : Bool := (rangeAt b r 13 1).testBit 2
def rangeOpt (b : List Byte) (r : Nat) : Nat := fld (rangeAt b r 13 1) 4 3
def rangeConsEn (b : List Byte) (r : Nat) : Bool := (rangeAt b r 13 1).testBit 5
def rangeGinit (b : List Byte) (r : Nat) : Nat := rangeAt b r 14 1
def rangeLen (b : List Byte) (r : Nat) : Nat := rangeAt b r 15 1
def rangeElig (b : List Byte) (r k : Nat) : Nat := rangeAt b r (16 + 2 * k) 2
def rangeXdec (b : List Byte) (r k : Nat) : Nat := rangeAt b r (48 + 2 * k) 2
def rangeF (b : List Byte) (r i : Nat) : F32 := F32.ofBits (rangeAt b r (80 + 4 * i) 4)
def rangeK (b : List Byte) (r : Nat) : List Int := (List.range 8).map fun j => sext 24 (rangeAt b r (96 + 4 * j) 4)
def rangeProg (b : List Byte) (r : Nat) : List Word := programWords b (256 + 256 * r + 128) (Nat.min (rangeLen b r) 16)

/-- The plastic range that a line lies in. -/
def rangeOf (b : List Byte) (line : Nat) : Option Nat :=
  firstOf (List.range (Nat.min (ruleNRange b) 8)) fun r => decide (rangeLo b r ≤ line ∧ line < rangeHi b r)

/-- The record of a line of range r (05/R165). -/
def recIndex (b : List Byte) (r line : Nat) : Nat := rangeIdx b r + (line - rangeLo b r)

/-- The rule image that drives a core: in force, with EN = 1 (05/R169). -/
def Slot.rules (p : Slot) : Option (List Byte) :=
  match p.rule with
  | some i => if ruleEn i.bytes then some i.bytes else none
  | none => none

/-- Every record of the ranges that pass a test: range, line, record index. -/
def rangeRecords (b : List Byte) (p : Nat → Bool) : List (Nat × Nat × Nat) :=
  ((List.range (Nat.min (ruleNRange b) 8)).filter p).flatMap fun r =>
    (List.range (rangeHi b r - rangeLo b r)).map fun i => (r, rangeLo b r + i, rangeIdx b r + i)

/-! ### Draws and the accumulator (05/R182, R183). -/

/-- One step of the LFSR. -/
def lfsrStep (x : Word) : Word := if x.getLsbD 0 then (x >>> 1) ^^^ 0x80200003 else x >>> 1

/-- A draw of 16 bits for purpose p, record i and slot k. -/
def rnd (l : Word) (p i k : Nat) : Nat :=
  let x := l ^^^ BitVec.ofNat 32 (p * 2 ^ 28) ^^^ BitVec.ofNat 32 (i * 32) ^^^ BitVec.ofNat 32 k
  (lfsrStep (lfsrStep (lfsrStep (lfsrStep x)))).toNat / 65536

/-- Rounding up with the probability of the discarded fraction (05/R183). -/
def sround (x : Int) (s r : Nat) : Int :=
  let q := asr x s
  let f := x - q * ((2 ^ s : Nat) : Int)
  if (r : Int) < asr (f * 65536) s then q + 1 else q

/-- The exponent that holds every sum: raised while it is below 150 and the largest magnitude does not fit. -/
def raiseExp (top e : Nat) : Nat → Nat
  | 0 => e
  | n + 1 => if e < 150 ∧ 126 * 2 ^ (e - 103) < top then raiseExp top (e + 1) n else e

/-! ### Plastic records as bytes (05/T5-1). -/

def recE (b : List Byte) (k : Nat) : Int := sext 8 (leAt b k 1)
def recG (b : List Byte) (k : Nat) : Int := sext 8 (leAt b (32 + k) 1)
def recX (b : List Byte) : Nat := leAt b 166 1
def recGE (b : List Byte) : Nat := leAt b 167 1
def recT (b : List Byte) : Nat := leAt b 160 6
def recFlags (b : List Byte) : Nat := leAt b 176 1
def bytesOf (l : List Int) : List Byte := l.map fun x => BitVec.ofNat 8 (toField 8 x)

/-- A record with new E, LAST and X. -/
def recTouch (b : List Byte) (e : List Int) (t x : Nat) : List Byte :=
  bytesOf e ++ (b.drop 32).take 128 ++ leBytes 6 t ++ leBytes 1 x ++ b.drop 167

/-- A record with new G, GE and FLAGS. -/
def recGrad (b : List Byte) (g : List Int) (ge flags : Nat) : List Byte :=
  b.take 32 ++ bytesOf g ++ (b.drop 64).take 103 ++ leBytes 1 ge ++ (b.drop 168).take 8 ++ leBytes 1 flags ++ b.drop 177

/-- Accumulate D into a record (05/R183); the Bool says that GSAT was set. -/
def accumulate (l : Word) (i : Nat) (b : List Byte) (d : List Int) (s p : Nat) : List Byte × Bool :=
  if d.all (· == 0) then (b, false)
  else
    let ge := recGE b
    let a := (List.range 32).map fun k =>
      recG b k * ((2 ^ (ge - 103) : Nat) : Int) + d.getD k 0 * ((2 ^ (24 - s) : Nat) : Int)
    let top := (a.map Int.natAbs).foldl Nat.max 0
    let e := raiseExp top ge 48
    let sat := decide (126 * 2 ^ (e - 103) < top)
    let g := (List.range 32).map fun k => clampInt (-127) 127 (sround (a.getD k 0) (e - 103) (rnd l p i k))
    (recGrad b g e (if sat then recFlags b / 8 * 8 + recFlags b % 4 + 4 else recFlags b), sat)

/-- The record after step 2 of 05/R177: X and the 32 values E decayed to tempo t. -/
def recDecay (img : List Byte) (r : Nat) (b : List Byte) (t : Nat) : Nat × List Int :=
  let n := if recT b ≤ t then Nat.min (t - recT b) 65535 else 0
  (decayU8 (recX b) (rangeXdec img r) n, (List.range 32).map fun k => decayS8 (recE b k) (rangeElig img r) n)

/-! ### Work on a core. -/

/-- Read a record for the rule engine: its LINE, GE and COMMIT are checked, and poison is found (05/R190, 04/T4-10). Of a wrong LINE and
a wrong GE or COMMIT the LINE is reported, since the spec gives no order: DESIGN CHOICE, log 200. -/
def Hw.readRecord (hw : Hw) (s i line : Nat) : Except FaultInfo (List Byte) :=
  match hw.eccAt (recordAt s i) 256 with
  | some f => .error f
  | none =>
    let b := hw.rd (recordAt s i) 256
    if fld (leAt b 180 4) 16 0 ≠ line then .error { det := 0x0B, status := stSKEW }
    else if recGE b < 103 ∨ 150 < recGE b ∨ fld (recFlags b) 4 3 = 3 then .error { det := 0x03, status := stPARITY }
    else .ok b

/-- Bytes `[a, a + 32)` of a record with the slots from `used` on at zero. -/
def zeroFrom (b : List Byte) (a used : Nat) : List Byte :=
  b.take (a + used) ++ List.replicate (32 - used) 0 ++ b.drop (a + 32)

/-- The rule engine keeps E, G, the moment codes and WN of unused slots at zero (05/R167). -/
def keepUsed (used : Nat) (b : List Byte) : List Byte :=
  [0, 32, 64, 96, 128].foldl (fun b a => zeroFrom b a (Nat.min used 32)) b

/-- Write a record, and note a GSAT that was set in RULE_STATUS (05/R183). -/
def Hw.putRecord (hw : Hw) (s l i : Nat) (b : List Byte × Bool) : Hw :=
  let hw := (hw.unitWrite s (.plastic i)).useAt s [recordAt s i]
  let hw := hw.wrWhole (recordAt s i) (keepUsed ((hw.sqOf s).used i) b.1)
  if b.2 then (hw.modL s l fun p => { p with gsat := true }).rise (.rule s ((hw.sqOf s).slotFor l)) 8 else hw

/-- The post trace of a target (05/R176). -/
def Hw.postTrace (hw : Hw) (s l n t : Nat) : Nat :=
  let r := hw.nrec s l n
  match traceTable (hw.lslot s l).rules (recModel r) with
  | some tab => decayU8 (recTrace r) tab (sinceLast r t)
  | none => recTrace r

/-- An event program on one slot: the new E and D (05/R177, R178). -/
def eventProgram (img : List Byte) (r : Nat) (y x : Nat) (e w : Int) (g : Nat) : Int × Int :=
  let k := rangeK img r
  let start : Regs := { w := [(0, (y : Int)), (1, (x : Int)), (2, e), (3, w), (4, (g : Int))], f := false }
  let out := (rangeProg img r).foldl (fun a word => match uopDecode word with
    | some u => sharedStep u k a
    | none => a) start
  (clampInt (-128) 127 (out.get 2), out.get 5)

/-- L_t of a core (05/R182). A square may work on tempo T + 1 before the done of T steps the register (02/R47). -/
def Hw.lfsrFor (hw : Hw) (s l t : Nat) : Word :=
  let x := (hw.lslot s l).lfsr
  match hw.jobOfSq s with
  | some j => if (hw.jobOf j).phase = 3 ∧ t = (hw.jobOf j).tempo + 1 then lfsrStep x else x
  | none => x

/-- Event work on one plastic block (05/R177): `entries` lists weight and target of entries 0, 1, … of the block. A used slot at or
beyond a COUNT that a write outside a job has lowered has no entry that is read (04/R140): its E decays, and its D is 0 (DESIGN CHOICE,
log 201). -/
def Hw.eventWork (hw : Hw) (s l line : Nat) (entries : List (Int × Nat)) (val t : Nat) : Hw × Found :=
  match (hw.lslot s l).rules with
  | none => (hw, none)
  | some img =>
    match rangeOf img line with
    | none => (hw, none)
    | some r =>
      let i := recIndex img r line
      let hw := hw.unitRead s (.plastic i)
      match hw.readRecord s i line with
      | .error f => (hw, some f)
      | .ok b =>
        let used := (hw.sqOf s).used i
        -- the post trace of a used entry's target is read from its record (05/R176)
        match (entries.take used).findSome? fun x => hw.recFault s l x.2 with
        | some f => (hw, some f)
        | none =>
        let b := keepUsed used b
        let xe := recDecay img r b t
        let g := if val = 0 then 1 else val
        let res := (List.range 32).map fun k =>
          match entries[k]? with
          | some (w, n) =>
            if k < used then eventProgram img r (hw.postTrace s l n t) xe.1 (xe.2.getD k 0) w g else (xe.2.getD k 0, 0)
          | none => (xe.2.getD k 0, 0)
        let b1 := recTouch b (res.map (·.1)) t (Nat.min 255 (xe.1 + rangeXinc img r))
        let b2 := accumulate (hw.lfsrFor s l t) i b1 (res.map (·.2)) (rangeDshift img r) 0
        let hw := hw.putRecord s l i b2
        (hw.modL s l fun p => { p with plastic := p.plastic + Nat.min used entries.length }, none)

/-- A modulator's event adds to its sum (05/R180); `bind` is the binding under which the core is reached. -/
def Hw.modulator (hw : Hw) (s l bind val : Nat) : Hw :=
  match (hw.lslot s l).rules with
  | none => hw
  | some img =>
    let g : Int := if val = 0 then 1 else (val : Int)
    forAll [0, 1, 2, 3] (fun q h =>
      let m := ruleModb img q
      if m.testBit 12 && fld m 11 0 == bind then
        h.modL s l fun p => { p with modSum := mupd 0 p.modSum q (· + (g - (ruleZero img q : Int))) }
      else h) hw

/-- One record of a modulation pass (05/R181). -/
def Hw.modulateOne (hw : Hw) (s l : Nat) (img : List Byte) (m : Int) (t r line i : Nat) : Hw × Found :=
  let hw := hw.unitRead s (.plastic i)
  match hw.readRecord s i line with
  | .error f => (hw, some f)
  | .ok b =>
    let b := keepUsed ((hw.sqOf s).used i) b
    let xe := recDecay img r b t
    let b1 := recTouch b xe.2 t xe.1
    let d := xe.2.map fun e => e * m
    let b2 := accumulate (hw.lslot s l).lfsr i b1 d (rangeMshift img r) 1
    ((hw.putRecord s l i b2).modL s l fun p => { p with modRecs := p.modRecs + 1 }, none)

/-- Do work item after item until one finds a fault. -/
def chain {α : Type} (f : Hw → α → Hw × Found) (hw : Hw) (l : List α) : Hw × Found :=
  l.foldl (fun (r : Hw × Found) x => match r.2 with | some _ => r | none => f r.1 x) (hw, none)

/-- The modulation passes of a core in the update phase of tempo t; the sums become M_q and are cleared (05/R180, R181). -/
def Hw.modulate (hw : Hw) (s l t : Nat) : Hw × Found :=
  match (hw.lslot s l).rules with
  | none => (hw, none)
  | some img =>
    let ms := [0, 1, 2, 3].map fun q => (q, clampInt (-32768) 32767 (mget 0 (hw.lslot s l).modSum q))
    let hw := hw.modL s l fun p => { p with
      modSum := [], modNew := [0, 1, 2, 3].map fun q => (q, toField 16 ((ms.getD q (0, 0)).2)) }
    chain (fun h (q : Nat × Int) =>
      if q.2 = 0 then (h, none)
      else chain (fun h x => h.modulateOne s l img q.2 t x.1 x.2.1 x.2.2) h
        (rangeRecords img fun r => rangeModEn img r && rangeMsel img r == q.1)) hw ms

/-! ### Consolidation (05/R184 to R187). -/

/-- CONSTj, MIN, SCALE and codes of moment j. -/
def momConst (b : List Byte) (j : Nat) : Bool := (recFlags b).testBit (j - 1)
def momMin (b : List Byte) (j : Nat) : Nat := leAt b (168 + 4 * (j - 1)) 2
def momScale (b : List Byte) (j : Nat) : Nat := leAt b (170 + 4 * (j - 1)) 2
def momCode (b : List Byte) (j k : Nat) : Nat := leAt b (64 + 32 * (j - 1) + k) 1
def momBad (b : List Byte) (j : Nat) : Bool :=
  momConst b j && (momScale b j != 0 || (List.range 32).any fun k => momCode b j k != 0)

/-- Dequantisation (05/R186). -/
def deq (b : List Byte) (j k : Nat) : F32 :=
  let mn := F32.ofBf (momMin b j)
  if momConst b j then mn else mn.add ((F32.ofInt (momCode b j k)).mul (F32.ofBf (momScale b j)))

/-- A quantised moment block: MIN, SCALE, the 32 codes, CONST, and whether step 1 changed a value (05/R186). -/
structure Moment where
  min_  : Nat
  scale : Nat
  codes : List Nat
  const : Bool
  sat   : Bool

def quantise (xs : List F32) : Moment :=
  let fix : F32 → F32 := fun x =>
    match x with
    | .nan => .fin false 0 0
    | .inf n => if n then bfMax.neg else bfMax
    | .fin n _ _ => if bfMax.lt (if n then x.neg else x) then (if n then bfMax.neg else bfMax) else x
  let ys := xs.map fix
  let sat := xs.any fun x => !(x.eqv (fix x))
  let first := ys.headD (.fin false 0 0)
  let lo := ys.foldl (fun a x => if x.lt a then x else a) first
  let hi := ys.foldl (fun a x => if a.lt x then x else a) first
  let mn := bf16Of lo .down
  let mf := F32.ofBf mn
  if hi.eqv mf then { min_ := mn, scale := 0, codes := List.replicate 32 0, const := true, sat := sat }
  else
    let d := hi.sub mf
    let d := if d.isInf then bfMax else d
    let sc := let x := bf16Of (d.div (F32.ofInt 255)) .up; if x = 0 then 1 else x
    let code : F32 → Nat := fun x =>
      let q := (x.sub mf).div (F32.ofBf sc)
      if q.finite then (clampInt 0 255 q.rint).toNat else 255
    let cs := ys.map code
    { min_ := mn, scale := sc, codes := cs ++ List.replicate (32 - cs.length) 0, const := false, sat := sat }

/-- A record with moment j replaced. -/
def recMoment (b : List Byte) (j : Nat) (m : Moment) : List Byte :=
  let c := 64 + 32 * (j - 1)
  let b := b.take c ++ (m.codes.take 32).map (BitVec.ofNat 8) ++ b.drop (c + 32)
  let o := 168 + 4 * (j - 1)
  let b := b.take o ++ leBytes 2 m.min_ ++ leBytes 2 m.scale ++ b.drop (o + 4)
  let f := leAt b 176 1
  let bit := 2 ^ (j - 1)
  let f' := if f.testBit (j - 1) then (if m.const then f else f - bit) else (if m.const then f + bit else f)
  b.take 176 ++ leBytes 1 f' ++ b.drop 177

/-- WN of one slot, and whether it met a value that is not finite (05/R185). -/
def newWeight (w : Int) (lr u : F32) (r : Nat) : Int × Bool :=
  let x := (F32.ofInt w).add (lr.mul u)
  match x with
  | .nan => (w, true)
  | .inf n => (if n then -127 else 127, true)
  | .fin _ _ _ =>
    let q := x.floor
    let f := ((x.sub (F32.ofInt q)).mul (F32.ofInt 65536)).floor
    (clampInt (-127) 127 (if (r : Int) < f then q + 1 else q), false)

/-- Phase A on one record's bytes (05/R185); `ws` are the weights of the used slots. -/
def phaseARecord (img : List Byte) (r i : Nat) (l : Word) (b : List Byte) (ws : List Int) : List Byte × Bool :=
  let lr := rangeF img r 0
  let b1 := rangeF img r 1
  let b2 := rangeF img r 2
  let eps := rangeF img r 3
  let one := F32.ofInt 1
  let opt := rangeOpt img r
  let res := (List.range ws.length).map fun k =>
    let gk := recG b k
    let g : F32 := round32 (decide (gk < 0)) gk.natAbs ((recGE b : Int) - 127)
    let m : F32 := if opt = 1 then (b1.mul (deq b 1 k)).add g else (b1.mul (deq b 1 k)).add ((one.sub b1).mul g)
    let v : F32 := (b2.mul (deq b 2 k)).add ((one.sub b2).mul (g.mul g))
    let u : F32 := if opt = 0 then g else if opt = 1 then m else m.div (v.sqrt.add eps)
    let w := newWeight (ws.getD k 0) lr u (rnd l 2 i k)
    (w.1, w.2, m, v)
  let wn := bytesOf (res.map (·.1))
  let bad := res.any (·.2.1)
  let b := b.take 128 ++ wn ++ b.drop (128 + wn.length)
  let m1 := quantise (res.map (·.2.2.1))
  let m2 := quantise (res.map (·.2.2.2))
  let b := if opt = 0 then b else recMoment b 1 m1
  let b := if opt = 2 then recMoment b 2 m2 else b
  let f := recFlags b
  let b := recGrad b (List.replicate 32 0) (rangeGinit img r) (f % 4 + 8 + f / 32 * 32)
  (b, bad || (opt != 0 && m1.sat) || (opt == 2 && m2.sat))

/-- Phase A on one record (05/R185, R186, R190). -/
def Hw.phaseAOne (hw : Hw) (s l : Nat) (img : List Byte) (r line i : Nat) : Hw × Found :=
  let hw := hw.unitRead s (.plastic i)
  let used := (hw.sqOf s).used i
  match hw.readRecord s i line with
  | .error f => (hw, some f)
  | .ok b =>
    if momBad b 1 || momBad b 2 then (hw, some { det := 0x03, status := stPARITY })
    else match hw.eccAt (synTier s + 128 * line) (4 * used) with
    | some f => (hw, some f)
    | none =>
      let ws := (List.range used).map fun k => sext 8 (hw.weightAt s line k)
      let x := phaseARecord img r i (hw.lslot s l).lfsr (keepUsed used b) ws
      (hw.putRecord s l i x, none)

/-- The records that a consolidation visits on a core. -/
def consRecords (img : List Byte) : List (Nat × Nat × Nat) := rangeRecords img fun r => rangeConsEn img r

/-- Phase A of a core. -/
def Hw.phaseACore (hw : Hw) (s l : Nat) : Hw × Found :=
  match (hw.lslot s l).rules with
  | none => (hw, none)
  | some img => chain (fun h x => h.phaseAOne s l img x.1 x.2.1 x.2.2) hw (consRecords img)

/-- Swap the used entries' weights of a block with WN, with fresh parity, and set COMMIT to 2 (05/R187). The entries and the
record are read, and written in part (12/R401, R404). -/
def Hw.phaseBOne (hw : Hw) (s line i : Nat) : Hw × Found :=
  let used := (hw.sqOf s).used i
  match hw.eccAt (recordAt s i) 256, hw.eccAt (synTier s + 128 * line) (4 * used) with
  | some f, _ | none, some f => (hw, some f)
  | none, none =>
    let hw := (hw.unitWrite s (.plastic i)).useAt s [recordAt s i, synTier s + 128 * line]
    let hw := forAll (List.range used) (fun k h =>
      let w := h.weightAt s line k
      let wn := h.rdN (recordAt s i + 128 + k) 1
      (h.setWeight s line k wn).wr (recordAt s i + 128 + k) (leBytes 1 w)) hw
    (hw.setCommit s i 2, none)

/-- Phase B of a core. -/
def Hw.phaseBCore (hw : Hw) (s l : Nat) : Hw × Found :=
  match (hw.lslot s l).rules with
  | none => (hw, none)
  | some img => chain (fun h x => h.phaseBOne s x.2.1 x.2.2) hw (consRecords img)

end Sys2Proof.Machine
end

