-- ==== Sys2Proof/Machine/Synapse.lean ====
section
/-! DEFINITION. Synapse structures and the expansion of events: bindings, rows, segments, kernels, contributions, and the event
distributor (04/R129 to R157, R492). -/

namespace Sys2Proof.Machine

/-! ### The synapse root (04/T4-1). -/

def Hw.rootF (hw : Hw) (s off n : Nat) : Nat := leAt (hw.rootOf s) off n
def Hw.bindBase (hw : Hw) (s : Nat) : Nat := hw.rootF s 0 4
def Hw.bindN (hw : Hw) (s : Nat) : Nat := hw.rootF s 4 2
def Hw.ktabN (hw : Hw) (s : Nat) : Nat := hw.rootF s 6 2
def Hw.ktabBase (hw : Hw) (s : Nat) : Nat := hw.rootF s 8 4
def Hw.scaleBase (hw : Hw) (s : Nat) : Nat := fld (hw.rootF s 12 4) 16 0
def Hw.scaleLines (hw : Hw) (s : Nat) : Nat := hw.rootF s 16 4
def Hw.stageLo (hw : Hw) (s : Nat) : Nat := fld (hw.rootF s 20 4) 16 0
def Hw.stageHi (hw : Hw) (s : Nat) : Nat := hw.rootF s 24 4

/-! ### Words with parity (04/R141, R492). -/

/-- The faults of Table 4-10. -/
def wordFault : FaultInfo := { det := 0x03, status := stPARITY }
def skewFault : FaultInfo := { det := 0x0B, status := stSKEW }
def formFault : FaultInfo := { det := 0x0D, status := stCLOSEMM }
def slotFault : FaultInfo := { det := 0x0C, status := stOVERFLOW }

/-- Read n bytes at offset off of a region [lo, hi) that begins at `base` (04/R492). -/
def Hw.item (hw : Hw) (base lo hi off n : Nat) : Except FaultInfo Nat :=
  if off < lo ∨ hi < off + n then .error wordFault
  else match hw.eccAt (base + off) n with
    | some f => .error f
    | none => .ok (hw.rdN (base + off) n)

/-- A word with odd parity. -/
def odd (n w : Nat) : Except FaultInfo Nat := if xorBits n w then .ok w else .error wordFault

/-- A 64-bit word of the synapse tier region, and of the synapse control image. -/
def Hw.tierWord (hw : Hw) (s off : Nat) : Except FaultInfo Nat := do odd 64 (← hw.item (synTier s) 0 0x1000000 off 8)
def Hw.imgWord (hw : Hw) (s off : Nat) : Except FaultInfo Nat := do
  odd 64 (← hw.item (sqMem s) (hw.imgLo s) 0x200000 off 8)

/-- A logical core that the square has under its policy. -/
def Square.hasCore (q : Square) (l : Nat) : Bool := decide (l < 18) && decide (q.slotFor l < 19)

/-! ### Contributions (04/R145 to R147). -/

/-- The contribution of a synapse, before the range check. -/
def contribution (w : Int) (val code : Nat) : Int :=
  let c := w * (if val = 0 then 1 else (val : Int))
  if 127 ≤ code then c * ((2 ^ (code - 127) : Nat) : Int) else asr c (127 - code)

/-- What the expansion of an event gives, in order: a synapse of a core, a count of work, a plastic block. -/
inductive SynItem where
  | syn (l target delay : Nat) (w : Int) (code : Nat)
  /-- Lane work in half units. -/
  | lane (l half : Nat)
  | wide (l n : Nat)
  | block (l line : Nat) (entries : List (Int × Nat))
  deriving Repr

/-! ### Rows (04/R136 to R144). -/

/-- Fields of a segment header (04/T4-4). -/
def hdrCore (h : Nat) : Nat := fld h 3 0 + 16 * fld h 4 4
def hdrCount (h : Nat) : Nat := fld h 16 5
def hdrSptr (h : Nat) : Nat := fld h 36 17
def hdrFmt (h : Nat) : Nat := fld h 38 37
def hdrTag (h : Nat) : Nat := fld h 42 39
def hdrEpoch (h : Nat) : Nat := fld h 43 43
def hdrBlk (h : Nat) : Nat := fld h 60 44

/-- Entries in a block, by format. -/
def perBlock (wide : Bool) : Nat := if wide then 16 else 32

/-- Blocks of a segment (04/R140). -/
def hdrBlocks (h : Nat) : Nat := let n := perBlock (hdrFmt h == 1); (hdrCount h + n - 1) / n

/-- Weight, delay and target of a list entry (04/T4-5, T4-6). -/
def entryFields (wide : Bool) (w : Nat) : Int × Nat × Nat :=
  if wide then (sext 16 (fld w 63 48), fld w 47 45, fld w 44 31) else (sext 8 (fld w 31 24), fld w 23 21, fld w 20 7)

/-- The scale entry of the scale region, checked against its tag (04/R144). -/
def Hw.scaleEntry (hw : Hw) (s i tag : Nat) : Except FaultInfo Nat := do
  let lo := 128 * hw.scaleBase s
  let hi := Nat.min 0x1000000 (lo + 128 * hw.scaleLines s)
  let e ← hw.item (synTier s) lo hi (lo + 2 * i) 2
  if fld e 15 12 = tag % 16 then .ok (fld e 7 0) else .error skewFault

/-- One block of a segment (04/R140, R142, R157). -/
def Hw.expandBlock (hw : Hw) (s h j : Nat) : Except FaultInfo (List SynItem) := do
  let wide := hdrFmt h == 1
  let n := perBlock wide
  let bytes := if wide then 8 else 4
  let line := hdrBlk h + j
  let l := hdrCore h
  if 131072 ≤ line then .error wordFault
  else
    let code ← hw.scaleEntry s (hdrSptr h + j) (hdrTag h + j)
    let es ← (List.range (Nat.min n (hdrCount h - n * j))).mapM fun e => do
      let w ← odd (8 * bytes) (← hw.item (synTier s) 0 0x1000000 (128 * line + bytes * e) bytes)
      .ok (entryFields wide w)
    let syns := es.map fun x => SynItem.syn l x.2.2 x.2.1 x.1 code
    .ok (if wide then syns else syns ++ [.block l line (es.map fun x => (x.1, x.2.2))])

/-- One segment of a row. -/
def Hw.expandSegment (hw : Hw) (s h : Nat) : Except FaultInfo (List SynItem) := do
  let l := hdrCore h
  let head := if hdrFmt h = 1 then SynItem.wide l (hdrCount h) else SynItem.lane l (2 * hdrCount h)
  let bs ← (List.range (hdrBlocks h)).mapM fun j => hw.expandBlock s h j
  .ok (head :: bs.flatten)

/-- The header words of a row. -/
def Hw.rowHeaders (hw : Hw) (s row nseg epoch : Nat) : Except FaultInfo (List Nat) :=
  (List.range nseg).mapM fun i => do
    let h ← hw.tierWord s (8 * (row + i))
    if 2 ≤ hdrFmt h then .error wordFault
    else if hdrEpoch h ≠ epoch then .error skewFault
    else if !((hw.sqOf s).hasCore (hdrCore h)) then .error wordFault
    else .ok h

/-- The row of a directory index: the cores reached and their synapses (04/R137, R138). -/
def Hw.expandRow (hw : Hw) (s di : Nat) : Except FaultInfo (List Nat × List SynItem) := do
  let d ← hw.tierWord s (8 * di)
  let fmt := fld d 30 29
  let cores := ofMask 18 (fld d 49 32)
  if fmt = 3 then .error wordFault
  else if fmt = 0 ∨ cores = [] then .ok ([], [])
  else if cores.any fun l => !((hw.sqOf s).hasCore l) then .error wordFault
  else
    let hs ← hw.rowHeaders s (fld d 20 0) (fld d 28 21) (fld d 31 31)
    let segs ← (hs.filter fun h => cores.contains (hdrCore h)).mapM fun h => hw.expandSegment s h
    .ok (cores, segs.flatten)

/-! ### Kernels (04/R148 to R152). -/

/-- A kernel descriptor: words 0 and 1. -/
structure KDesc where
  w0 : Nat
  w1 : Nat

def KDesc.kw (k : KDesc) : Nat := fld k.w0 2 0
def KDesc.kh (k : KDesc) : Nat := fld k.w0 5 3
def KDesc.cin (k : KDesc) : Nat := fld k.w0 11 6 + 1
def KDesc.cout (k : KDesc) : Nat := fld k.w0 17 12 + 1
def KDesc.int4 (k : KDesc) : Bool := k.w0.testBit 18
def KDesc.tag (k : KDesc) : Nat := fld k.w0 22 19
def KDesc.wptr (k : KDesc) : Nat := fld k.w0 44 24
def KDesc.sptr (k : KDesc) : Nat := fld k.w1 20 0
/-- Bytes of the kernel's weights (04/R149). -/
def KDesc.size (k : KDesc) : Nat :=
  let n := (k.kw + 1) * (k.kh + 1) * k.cin * k.cout
  if k.int4 then (n + 1) / 2 else n

/-- A kernel directory entry: words 0, 1 and 2. -/
structure KDir where
  w0 : Nat
  w1 : Nat
  w2 : Nat

def KDir.kid (k : KDir) : Nat := fld k.w0 9 0
def KDir.core (k : KDir) : Nat := fld k.w0 14 10
def KDir.delay (k : KDir) : Nat := fld k.w0 17 15
def KDir.stx (k : KDir) : Nat := fld k.w0 20 19
def KDir.sty (k : KDir) : Nat := fld k.w0 22 21
def KDir.sb (k : KDir) : Nat := fld k.w0 37 24
def KDir.sw (k : KDir) : Nat := fld k.w0 47 38 + 1
def KDir.sh (k : KDir) : Nat := fld k.w0 57 48 + 1
def KDir.sx0 (k : KDir) : Int := sext 12 (fld k.w1 11 0)
def KDir.sy0 (k : KDir) : Int := sext 12 (fld k.w1 23 12)
def KDir.tb (k : KDir) : Nat := fld k.w1 37 24
def KDir.tw (k : KDir) : Nat := fld k.w1 47 38
def KDir.th (k : KDir) : Nat := fld k.w1 57 48
def KDir.ox0 (k : KDir) : Int := (fld k.w2 9 0 : Nat)
def KDir.oy0 (k : KDir) : Int := (fld k.w2 19 10 : Nat)

/-- Read the kernel descriptor of a KID (04/R492). -/
def Hw.kdescAt (hw : Hw) (s kid : Nat) : Except FaultInfo KDesc := do
  if hw.ktabN s ≤ kid then .error wordFault
  else
    let a := hw.ktabBase s + 32 * kid
    let w0 ← hw.imgWord s a
    let w1 ← hw.imgWord s (a + 8)
    let _ ← hw.imgWord s (a + 16)
    let _ ← hw.imgWord s (a + 24)
    .ok ⟨w0, w1⟩

/-- Read a kernel directory entry: its parity, strides and core are checked. -/
def Hw.kdirAt (hw : Hw) (s i : Nat) : Except FaultInfo KDir := do
  let w0 ← hw.tierWord s (32 * i)
  let w1 ← hw.tierWord s (32 * i + 8)
  let w2 ← hw.tierWord s (32 * i + 16)
  let _ ← hw.tierWord s (32 * i + 24)
  let k : KDir := ⟨w0, w1, w2⟩
  if k.stx = 3 ∨ k.sty = 3 then .error wordFault
  else if !((hw.sqOf s).hasCore k.core) then .error wordFault
  else .ok k

/-- The entry applies to source neuron n (04/R151). -/
def KDir.applies (k : KDir) (c : KDesc) (n : Nat) : Bool := decide (k.sb ≤ n ∧ n - k.sb < k.sw * k.sh * c.cin)

/-- The taps that the reference of 04/R151 generates: ky, kx and the base target; a base that passes 16,383 is an error. -/
def KDir.taps (k : KDir) (c : KDesc) (n : Nat) : Except FaultInfo (List (Nat × Nat × Nat)) :=
  let r := n - k.sb
  let ix : Int := ((r / c.cin % k.sw : Nat) : Int) + k.sx0
  let iy : Int := ((r / c.cin / k.sw : Nat) : Int) + k.sy0
  let sx : Int := ((2 ^ k.stx : Nat) : Int)
  let sy : Int := ((2 ^ k.sty : Nat) : Int)
  let all := (List.range (c.kh + 1)).flatMap fun ky => (List.range (c.kw + 1)).map fun kx => (ky, kx)
  let hits := all.filterMap fun (p : Nat × Nat) =>
    let dx := ix - (p.2 : Int)
    let dy := iy - (p.1 : Int)
    if Int.emod dx sx ≠ 0 ∨ Int.emod dy sy ≠ 0 then none
    else
      let ox := fdiv dx sx
      let oy := fdiv dy sy
      if ox < k.ox0 ∨ k.ox0 + (k.tw : Int) < ox ∨ oy < k.oy0 ∨ k.oy0 + (k.th : Int) < oy then none
      else some (p.1, p.2, k.tb + ((oy - k.oy0).toNat * (k.tw + 1) + (ox - k.ox0).toNat) * c.cout)
  if hits.any fun h => decide (16383 < h.2.2 + (c.cout - 1)) then .error wordFault else .ok hits

/-- The weight of an element index (04/R149). -/
def Hw.kernelWeight (hw : Hw) (s : Nat) (c : KDesc) (i : Nat) : Except FaultInfo Int := do
  let b ← hw.item (sqMem s) (hw.imgLo s) 0x200000 (c.wptr + (if c.int4 then i / 2 else i)) 1
  .ok (if c.int4 then sext 4 (if i % 2 = 0 then b % 16 else b / 16) else sext 8 b)

/-- The synapses of one kernel directory entry for an event (04/R151, R154); none where it does not apply. -/
def Hw.expandKernel (hw : Hw) (s i n : Nat) : Except FaultInfo (List Nat × List SynItem) := do
  let k ← hw.kdirAt s i
  let c ← hw.kdescAt s k.kid
  if !(k.applies c n) then .ok ([], [])
  else
    let taps ← k.taps c n
    if taps = [] then .ok ([k.core], [])
    else
      let lo := hw.imgLo s
      if c.wptr < lo ∨ 0x200000 < c.wptr + c.size ∨ c.sptr < lo ∨ 0x200000 < c.sptr + 2 * c.cout then .error wordFault
      else
        let ci := (n - k.sb) % c.cin
        let codes ← (List.range c.cout).mapM fun co => do
          let e ← hw.item (sqMem s) lo 0x200000 (c.sptr + 2 * co) 2
          if fld e 15 12 = (c.tag + co) % 16 then .ok (fld e 7 0) else .error skewFault
        let syns ← taps.mapM fun t => (List.range c.cout).mapM fun co => do
          let w ← hw.kernelWeight s c (((t.1 * (c.kw + 1) + t.2.1) * c.cin + ci) * c.cout + co)
          .ok (SynItem.syn k.core (t.2.2 + co) k.delay w (codes.getD co 0))
        let n := taps.length * c.cout
        .ok ([k.core], SynItem.lane k.core (if c.int4 then n else 2 * n) :: syns.flatten)

/-! ### One event (04/R129, R136). -/

/-- The two words of binding b. -/
def Hw.bindingAt (hw : Hw) (s b : Nat) : Except FaultInfo (Nat × Nat) := do
  if hw.bindN s ≤ b then .error formFault
  else
    let w0 ← hw.imgWord s (hw.bindBase s + 16 * b)
    let w1 ← hw.imgWord s (hw.bindBase s + 16 * b + 8)
    if w0.testBit 50 then .ok (w0, w1) else .error formFault

/-- What an event from source neuron n under binding b reaches: cores and items. -/
def Hw.expandEvent (hw : Hw) (s b n : Nat) : Except FaultInfo (List Nat × List SynItem) := do
  let w ← hw.bindingAt s b
  let lo := fld w.1 34 21
  let row ← if lo ≤ n ∧ n < lo + fld w.1 49 35 then hw.expandRow s (fld w.1 20 0 + (n - lo)) else .ok ([], [])
  let ks ← (List.range (fld w.2 22 19)).mapM fun k => hw.expandKernel s (fld w.2 18 0 + k) n
  .ok ((row.1 ++ (ks.map (·.1)).flatten).eraseDups, row.2 ++ (ks.map (·.2)).flatten)

/-- Apply one item of an event of tempo t: due, contribution, counts, event work (04/R130, R147, R154, 05/R177). -/
def Hw.applyItem (hw : Hw) (s val t : Nat) (x : SynItem) : Hw × Found :=
  match x with
  | .lane l n => (hw.modL s l fun p => { p with laneHalf := p.laneHalf + n }, none)
  | .wide l n => (hw.modL s l fun p => { p with wide := p.wide + n }, none)
  | .block l line es => hw.eventWork s l line es val t
  | .syn l n delay w code =>
    let c := contribution w val code
    if c < -8388608 ∨ 8388607 < c then (hw, some slotFault)
    else
      let d := hw.setDue s l n (t + delay)
      let r := if d.2.isSome then d else d.1.addSlot s l n ((t + 1 + delay) % 8) c
      match r.2 with
      | some f => (r.1, some f)
      | none => (r.1.modL s l fun p => { p with sop := p.sop + 1 }, none)

/-- One event of a packet under a binding. -/
def Hw.distributeEvent (hw : Hw) (s bind t : Nat) (e : Nat × Nat) : Hw × Found :=
  match hw.expandEvent s bind e.1 with
  | .error f => (hw, some f)
  | .ok (cores, items) =>
    let hw := cores.foldl (fun h l => h.modulator s l bind e.2) hw
    chain (fun h x => h.applyItem s e.2 t x) hw items

/-- The first counted EVENT packet of an inbox, and the inbox without it. -/
def takeEvent : List InEntry → Option (InEntry × List InEntry)
  | [] => none
  | e :: r =>
    if e.pkt.ty = tyEVENT ∧ e.counted then some (e, r)
    else match takeEvent r with
      | some (x, r') => some (x, e :: r')
      | none => none

end Sys2Proof.Machine
end

