-- ==== Sys2Proof/Machine/LoadCheck.lean ====
section
/-! DEFINITION. The checks of table images, rule images, send tables, rows and kernels (03/T3-9, 04/T4-11, 05/T5-4, 06/R222,
09/R326). -/

namespace Sys2Proof.Machine

/-! ### Table images (03/T3-9). -/

/-- The opcodes of neuron programs. -/
def neuronOp : Op → Bool
  | .send | .recv | .jmp | .ldw | .stw | .qop => false
  | _ => true

/-- The opcodes of event programs (05/T5-4). -/
def eventOp (o : Op) : Bool := isAlu o || isCmp o || o == .nop || o == .fin

/-- A program holds an opcode that it may not hold. -/
def badOpcode (ok : Op → Bool) (ws : List Word) : Bool := ws.any fun w => match uopDecode w with | some u => !(ok u.op) | none => true

/-- A program breaks the form of 03/R101 to R103. -/
def badForm (ws : List Word) : Bool := ws.any fun w => match uopDecode w with | some u => !u.formOk | none => false

/-- A stored word breaks 03/R95. -/
def badSext (w : Nat) : Bool := leAt (leBytes 4 w) 3 1 != (if w.testBit 23 then 255 else 0)

def modelHasPrt (img : List Byte) (m : Nat) : Bool :=
  (modelProgram img m).any fun w => match uopDecode w with | some u => u.op == .prt | none => false

/-- A valid model entry fails a check marked BAD_PARAM. -/
def badModel (img : List Byte) (m : Nat) : Bool :=
  let p := modelProgram img m
  let b := 0x80 * m
  badForm p || decide (32 < modelLen img m) || decide (32 < stageCost p)
    || modelRole img m == 3 || (modelRole img m == 0 && modelHasPrt img m)
    || (List.range 8).any (fun j => badSext (leAt img (b + 8 + 4 * j) 4))
    || (List.range 64).any (fun i => badSext (leAt img (0x1400 + 0x100 * m + 4 * i) 4))
    || fld (modelCfg img m) 31 11 != 0 || leAt img (b + 4) 4 != 0 || leAt img (b + 72) 56 != 0

/-- The pair rule of 03/R114 over the neurons of a core below n, by their roles; inert ones belong to no pair (09/R326). -/
def badPairs (role : Nat → Nat) (n : Nat) : Bool :=
  (List.range ((n + 1) / 2)).any fun i =>
    let a := role (2 * i)
    let b := if 2 * i + 1 < n then role (2 * i + 1) else 0
    a == 2 || b == 1 || ((a == 1) != (b == 2))

/-- Table 3-9 on a table image with the records of a core, read by `rec_`, and NSNAP; `r92` says that 04/R92 is broken. -/
def tableCheck (img : List Byte) (rec_ : Nat → List Byte) (n : Nat) (r92 : Bool) : Nat :=
  let ms := (List.range 16).filter (modelValid img)
  if ms.any fun m => badOpcode neuronOp (modelProgram img m) then stBADOP
  else if ms.any (badModel img)
      || (List.range 256).any (fun c => fld (channelWord img c) 31 22 != 0)
      || decide (8 < ((List.range 256).filter (channelWide img)).length)
      || (List.range n).any (fun i => !(modelValid img (recModel (rec_ i))))
      || badPairs (fun i => modelRole img (recModel (rec_ i))) n || r92 then stBADPARAM
  else stOK

/-- Size of a table image and of a rule image. -/
def tableSize : Nat := 0x2400
def ruleSize : Nat := 0x900

/-- 09/R326 for a core, but for what targets its inert neurons. -/
def Hw.inertBad (hw : Hw) (s l : Nat) (img : List Byte) : Bool :=
  let n := (hw.sqOf s).flt.nsnapOf l
  decide (n < 16384) && (modelAlways img 0 || modelRole img 0 != 0 || !(allZero (hw.rd (hw.recAddr s l n) (32 * (16384 - n)))))

/-! ### Rows and kernels (04/T4-11): a failed check is the number of its row of the table; 0 marks 09/R326. -/

/-- A target neuron breaks 09/R326 (0), and 04/R92 (11). -/
def Hw.targetBad (hw : Hw) (s l n : Nat) (wide : Bool) : List Nat :=
  (if (hw.sqOf s).flt.nsnapOf l ≤ n then [0] else [])
    ++ (match (hw.lslot s l).table with
      | some i => if channelWide i.bytes (recChannel (hw.nrec s l n)) != wide then [11] else []
      | none => [])

/-- The word of entry e of block j of a segment with header h. -/
def Hw.entryWord (hw : Hw) (s h j e : Nat) : Nat :=
  let n := if hdrFmt h == 1 then 8 else 4
  hw.rdN (synTier s + 128 * (hdrBlk h + j) + n * e) n

/-- Entries of block j of a segment. -/
def blockCount (h j : Nat) : Nat := let n := perBlock (hdrFmt h == 1); Nat.min n (hdrCount h - n * j)

/-- Checks of one block of a segment; `ok` says which lines the row may use (04/R160). What lies outside its region is not read. -/
def Hw.blockBad (hw : Hw) (s h j : Nat) (ok : Nat → Bool) : List Nat :=
  let wide := hdrFmt h == 1
  let line := hdrBlk h + j
  let si := hdrSptr h + j
  let l := hdrCore h
  let inLine := decide (line < 131072)
  let inScale := decide (si < 64 * hw.scaleLines s)
  let sc := hw.rdN (synTier s + 128 * hw.scaleBase s + 2 * si) 2
  let es := (List.range (blockCount h j)).flatMap fun e =>
    let w := hw.entryWord s h j e
    if !(xorBits (if wide then 64 else 32) w) then [3]
    else
      let resv := if wide then fld w 30 1 else fld w 6 1
      (if resv ≠ 0 then [4] else [])
        ++ (if (hw.sqOf s).hasCore l then hw.targetBad s l (entryFields wide w).2.2 wide else [])
  (if inLine && inScale && ok line && ok (hw.scaleBase s + si / 64) then [] else [7])
    ++ (if inScale then (if fld sc 11 8 ≠ 0 then [4] else []) ++ (if fld sc 15 12 ≠ (hdrTag h + j) % 16 then [9] else []) else [])
    ++ (if inLine then es else [])

/-- Checks of one header of a row. Table 4-11 names no row for a header outside the region, which fails under row 7 here, nor for
COUNT = 0, which fails under row 4 (DESIGN CHOICE, log 190). -/
def Hw.headerBad (hw : Hw) (s hi epoch : Nat) (ok : Nat → Bool) : List Nat :=
  if 2097152 ≤ hi then [7]
  else
    let h := hw.rdN (synTier s + 8 * hi) 8
    if !(xorBits 64 h) then [3]
    else
      let nb := hdrBlocks h
      (if ok (hi / 16) then [] else [7])
        ++ (if fld h 62 61 ≠ 0 ∨ 2 ≤ hdrFmt h ∨ hdrCount h = 0 ∨ (h.testBit 4 ∧ 1 < fld h 3 0) then [4] else [])
        ++ (if (hw.sqOf s).hasCore (hdrCore h) then [] else [5])
        ++ (if hdrEpoch h ≠ epoch then [10] else [])
        ++ (if 2 ≤ hdrFmt h then [] else (List.range nb).flatMap fun j => hw.blockBad s h j ok)

/-- The header indices of a row, and the readable ones' words. -/
def rowHdrIdx (d : Nat) : List Nat := (List.range (fld d 28 21)).map fun i => fld d 20 0 + i
def Hw.rowHdrWords (hw : Hw) (s d : Nat) : List Nat :=
  ((rowHdrIdx d).filter fun i => decide (i < 2097152)).map fun i => hw.rdN (synTier s + 8 * i) 8

/-- The lines of a row's blocks. -/
def Hw.rowLines (hw : Hw) (s d : Nat) : List Nat :=
  ((hw.rowHdrWords s d).filter fun h => hdrFmt h < 2).flatMap fun h => (List.range (hdrBlocks h)).map fun j => hdrBlk h + j

/-- Checks of a directory entry and its row, but those that compare rows. An entry with FMT = 0b00 and NSEG not 0 leads to no row
read (04/R138), and the spec does not say how the check treats its headers: they are checked as any others, and fail the
comparison with FMT (log 175). -/
def Hw.rowBad (hw : Hw) (s d : Nat) (ok : Nat → Bool) : List Nat :=
  if !(xorBits 64 d) then [3]
  else
    let hs := (hw.rowHdrWords s d).filter fun h => xorBits 64 h && decide (hdrFmt h < 2) && (hw.sqOf s).hasCore (hdrCore h)
    let mask := maskOf 18 (hs.map hdrCore)
    let fmt := if hs.any fun h => hdrFmt h == 1 then 2 else if hs = [] then 0 else 1
    (if fld d 62 50 ≠ 0 ∨ fld d 30 29 = 3 then [4] else [])
      ++ ((rowHdrIdx d).flatMap fun i => hw.headerBad s i (fld d 31 31) ok)
      ++ (if mask ≠ fld d 49 32 ∨ fmt ≠ fld d 30 29 then [6] else [])

/-- The valid bindings of a square: words 0 and 1. -/
def Hw.bindings (hw : Hw) (s : Nat) : List (Nat × Nat) :=
  ((List.range (Nat.min (hw.bindN s) 4096)).map fun b =>
    (hw.rdN (sqMem s + hw.bindBase s + 16 * b) 8, hw.rdN (sqMem s + hw.bindBase s + 16 * b + 8) 8)).filter fun w =>
      xorBits 64 w.1 && xorBits 64 w.2 && w.1.testBit 50

/-- The directory indices that a binding leads to: one for each source neuron of its range, of which there are 16,384. SRC_N above
16,384, for which Table 4-11 names no row, is no error and counts no further neuron (DESIGN CHOICE, log 190). -/
def bindDirs (w : Nat × Nat) : List Nat :=
  (List.range (Nat.min (fld w.1 49 35) (16384 - fld w.1 34 21))).map fun i => fld w.1 20 0 + i
def bindKdirs (w : Nat × Nat) : List Nat := (List.range (fld w.2 22 19)).map fun k => fld w.2 18 0 + k

def Hw.dirEntry (hw : Hw) (s di : Nat) : Nat := hw.rdN (synTier s + 8 * di) 8

/-- Checks of a kernel descriptor. A misaligned WPTR or SPTR, which Table 4-11 does not name, fails under row 12 (DESIGN CHOICE,
log 190). -/
def Hw.kdescBad (hw : Hw) (s kid : Nat) : List Nat :=
  let a := sqMem s + hw.ktabBase s + 32 * kid
  let ws := [0, 1, 2, 3].map fun i => hw.rdN (a + 8 * i) 8
  if ws.any fun w => !(xorBits 64 w) then [3]
  else
    let k : KDesc := ⟨ws.getD 0 0, ws.getD 1 0⟩
    let lo := hw.imgLo s
    (if fld k.w0 62 45 ≠ 0 ∨ k.w0.testBit 23 ∨ fld k.w1 62 21 ≠ 0 ∨ fld (ws.getD 2 0) 62 0 ≠ 0 ∨ fld (ws.getD 3 0) 62 0 ≠ 0
        ∨ 6 < k.kw ∨ 6 < k.kh then [4] else [])
      ++ (if k.wptr % 16 ≠ 0 ∨ k.wptr < lo ∨ 0x200000 < k.wptr + k.size then [12] else [])
      ++ (if k.sptr % 2 ≠ 0 ∨ k.sptr < lo ∨ 0x200000 < k.sptr + 2 * k.cout then [12] else [])
      ++ (List.range k.cout).flatMap fun co =>
        let at_ := k.sptr + 2 * co
        let e := hw.rdN (sqMem s + at_) 2
        if at_ < lo ∨ 0x200000 < at_ + 2 then []
        else (if fld e 11 8 ≠ 0 then [4] else []) ++ (if fld e 15 12 ≠ (k.tag + co) % 16 then [9] else [])

/-- Checks of a kernel directory entry. Table 4-11 names no row for one outside the region: it fails under row 7 (DESIGN CHOICE,
log 190). -/
def Hw.kdirBad (hw : Hw) (s i : Nat) : List Nat :=
  if 524288 ≤ i then [7]
  else
    let ws := [0, 1, 2, 3].map fun j => hw.rdN (synTier s + 32 * i + 8 * j) 8
    if ws.any fun w => !(xorBits 64 w) then [3]
    else
      let k : KDir := ⟨ws.getD 0 0, ws.getD 1 0, ws.getD 2 0⟩
      let here := (hw.sqOf s).hasCore k.core
      let a := sqMem s + hw.ktabBase s + 32 * k.kid
      let c : KDesc := ⟨hw.rdN a 8, hw.rdN (a + 8) 8⟩
      let size := (k.tw + 1) * (k.th + 1) * c.cout
      (if k.w0.testBit 18 ∨ k.w0.testBit 23 ∨ fld k.w0 62 58 ≠ 0 ∨ fld k.w1 62 58 ≠ 0 ∨ fld k.w2 62 20 ≠ 0
          ∨ fld (ws.getD 3 0) 62 0 ≠ 0 ∨ k.stx = 3 ∨ k.sty = 3 then [4] else [])
        ++ (if here then [] else [5])
        ++ (if hw.ktabN s ≤ k.kid then [13]
            else if 16384 < k.tb + size then [12]
            else if here then (List.range size).flatMap fun x => hw.targetBad s k.core (k.tb + x) false else [])

/-- Checks of the synapse root and of where the image's other tables lie: rows 1 and 2. `parts` lists start and length of
the table images, rule images and send tables. Table 4-11 names no row for a binding or kernel table outside the control image,
which must contain it (R134), nor for a scale region that passes the end of the tier region: both fail under row 1 (DESIGN CHOICE,
log 190). -/
def Hw.rootBad (hw : Hw) (s : Nat) (parts : List (Nat × Nat)) : List Nat :=
  let r := hw.rootOf s
  let lo := hw.imgLo s
  let stageLo := leAt r 20 4
  let stageHi := leAt r 24 4
  let ok := leAt r 60 4 == crc32 (r.take 60) && hw.bindBase s % 16 == 0 && decide (hw.bindN s ≤ 4096)
    && decide (hw.ktabN s ≤ 1024) && hw.ktabBase s % 32 == 0 && decide (leAt r 12 4 < 131072 ∧ leAt r 12 4 + hw.scaleLines s ≤ 131072)
    && decide (hw.scaleLines s ≤ 16384) && decide (stageLo < 131072) && decide (stageLo ≤ stageHi ∧ stageHi ≤ 131072)
    && lo % 16 == 0 && decide (lo ≤ 0x1FFFC0) && allZero ((r.drop 32).take 28)
    && decide (hw.bindN s = 0 ∨ lo ≤ hw.bindBase s ∧ hw.bindBase s + 16 * hw.bindN s ≤ 0x200000)
    && decide (hw.ktabN s = 0 ∨ lo ≤ hw.ktabBase s ∧ hw.ktabBase s + 32 * hw.ktabN s ≤ 0x200000)
  if !ok then [1]
  else if parts.any fun p => decide (0 < p.2 ∧ lo < p.1 + p.2) then [2] else []

/-- Whether a list repeats a member. -/
def repeats (l : List Nat) : Bool := l.length != l.eraseDups.length

/-- Every failed row of Table 4-11, and 0 for 09/R326. The table names no row for a directory entry outside the region: it fails
under row 7 (DESIGN CHOICE, log 190). -/
def Hw.synBad (hw : Hw) (s : Nat) (parts : List (Nat × Nat)) : List Nat :=
  let root := hw.rootBad s parts
  if root ≠ [] then root
  else
    let raw := (List.range (hw.bindN s)).map fun b =>
      (hw.rdN (sqMem s + hw.bindBase s + 16 * b) 8, hw.rdN (sqMem s + hw.bindBase s + 16 * b + 8) 8)
    let bBad := raw.flatMap fun w =>
      if !(xorBits 64 w.1 && xorBits 64 w.2) then [3]
      else (if fld w.1 62 51 ≠ 0 ∨ fld w.2 62 23 ≠ 0 then [4] else [])
        ++ (if 8 < fld w.2 22 19 then [13] else [])
    let bs := hw.bindings s
    let dirs := (bs.flatMap bindDirs).eraseDups
    let inside := dirs.filter fun d => decide (d < 2097152)
    let es := inside.map fun d => hw.dirEntry s d
    let goodEs := es.filter (xorBits 64)
    bBad ++ (if inside.length ≠ dirs.length then [7] else [])
      ++ (es.flatMap fun d => hw.rowBad s d fun _ => true)
      ++ (if repeats (goodEs.flatMap rowHdrIdx) || repeats (goodEs.flatMap fun d => hw.rowLines s d) then [8] else [])
      ++ ((bs.flatMap bindKdirs).eraseDups.flatMap fun k => hw.kdirBad s k)
      ++ ((List.range (hw.ktabN s)).flatMap fun k => hw.kdescBad s k)

/-- The status of the first failed row of Table 4-11 (04/R158). -/
def rowStatus (l : List Nat) : Nat :=
  let first := l.foldl Nat.min 99
  if 13 < first then stOK
  else if first = 3 then stPARITY
  else if first = 9 ∨ first = 10 then stSKEW
  else stBADPARAM

/-! ### 04/R92 for one core, and the words that a check of rows reads. -/

/-- The directory entries that valid bindings lead to, and the headers of those that lead to a row (04/R138). -/
def Hw.dirsOf (hw : Hw) (s : Nat) : List Nat := ((hw.bindings s).flatMap bindDirs).eraseDups.filter fun d => decide (d < 2097152)
def Hw.liveEntries (hw : Hw) (s : Nat) : List Nat :=
  ((hw.dirsOf s).map (hw.dirEntry s)).filter fun d => xorBits 64 d && fld d 30 29 != 0 && fld d 30 29 != 3
def Hw.liveHeaders (hw : Hw) (s : Nat) : List Nat :=
  ((hw.liveEntries s).flatMap (hw.rowHdrWords s)).filter fun h => xorBits 64 h && decide (hdrFmt h < 2)

/-- The neurons of core L that segments and kernel tiles target, each with the format that reaches it. -/
def Hw.coreTargets (hw : Hw) (s l : Nat) : List (Nat × Bool) :=
  (((hw.liveHeaders s).filter fun h => hdrCore h == l).flatMap fun h =>
    let wide := hdrFmt h == 1
    ((List.range (hdrBlocks h)).filter fun j => decide (hdrBlk h + j < 131072)).flatMap fun j =>
      (((List.range (blockCount h j)).map (hw.entryWord s h j)).filter (xorBits (if wide then 64 else 32))).map fun w =>
        ((entryFields wide w).2.2, wide))
  ++ ((((hw.bindings s).flatMap bindKdirs).eraseDups.filter fun i => decide (i < 524288)).flatMap fun i =>
    let k : KDir := ⟨hw.rdN (synTier s + 32 * i) 8, hw.rdN (synTier s + 32 * i + 8) 8, hw.rdN (synTier s + 32 * i + 16) 8⟩
    let a := sqMem s + hw.ktabBase s + 32 * k.kid
    let c : KDesc := ⟨hw.rdN a 8, hw.rdN (a + 8) 8⟩
    if k.core ≠ l ∨ hw.ktabN s ≤ k.kid then []
    else (List.range ((k.tw + 1) * (k.th + 1) * c.cout)).map fun x => (k.tb + x, false))

/-- 04/R92 is broken on core L under a table image: the last row of Table 3-9 (03/R110). -/
def Hw.r92Bad (hw : Hw) (s l : Nat) (img : List Byte) : Bool :=
  (hw.coreTargets s l).any fun x => channelWide img (recChannel (hw.nrec s l x.1)) != x.2

/-- Where the words of headers lie: address and length. -/
def hdrReads (s : Nat) (idx : List Nat) : List (Nat × Nat) :=
  (idx.filter fun i => decide (i < 2097152)).map fun i => (synTier s + 8 * i, 8)

/-- What leads to the rows: the root, the bindings, the directory entries and the headers. -/
def Hw.leadReads (hw : Hw) (s : Nat) : List (Nat × Nat) :=
  (if (hw.sqOf s).root.isNone then [(sqMem s + 0x1FFFC0, 64)] else [])
    ++ [(sqMem s + hw.bindBase s, 16 * hw.bindN s)]
    ++ (hw.dirsOf s).map (fun d => (synTier s + 8 * d, 8))
    ++ hdrReads s ((hw.liveEntries s).flatMap rowHdrIdx)

/-- The entries of block j of a segment; entries after the COUNT-th are never read (04/R140). -/
def blockRead (s h j : Nat) : Nat × Nat :=
  (synTier s + 128 * (hdrBlk h + j), (if hdrFmt h == 1 then 8 else 4) * blockCount h j)

/-- A kernel directory entry, and COUT of the descriptor of one that targets core L. -/
def Hw.kernelReads (hw : Hw) (s l i : Nat) : List (Nat × Nat) :=
  let k : KDir := ⟨hw.rdN (synTier s + 32 * i) 8, hw.rdN (synTier s + 32 * i + 8) 8, hw.rdN (synTier s + 32 * i + 16) 8⟩
  (synTier s + 32 * i, 32)
    :: (if k.core = l ∧ k.kid < hw.ktabN s then [(sqMem s + hw.ktabBase s + 32 * k.kid, 16)] else [])

/-- What the check of core L's table image reads: its rows and kernels, and MODEL and CHANNEL of its records (03/R121, R122). -/
def Hw.tableReads (hw : Hw) (s l : Nat) : List (Nat × Nat) :=
  let r := hw.recAddr s l 0
  (List.range ((hw.sqOf s).flt.nsnapOf l)).map (fun i => (r + 32 * i, 8))
    ++ hw.leadReads s
    ++ ((hw.liveHeaders s).filter fun h => hdrCore h == l).flatMap (fun h => (List.range (hdrBlocks h)).map (blockRead s h))
    ++ ((hw.bindings s).flatMap bindKdirs).flatMap (hw.kernelReads s l)
    ++ (hw.coreTargets s l).map fun x => (r + 32 * x.1, 8)

/-! ### Row loads (04/R159 to R161, 07/R266). -/

/-- What the check of a loaded row reads: the new row with its scale entries and the CHANNEL of its targets, the directory entry at
its index, and the directory, the pending entries and the headers that it is compared with (04/R160). -/
def Hw.rowLoadReads (hw : Hw) (s : Nat) (rl : RowLoad) : List (Nat × Nat) :=
  let d := rl.dirEnt
  let segs := (hw.rowHdrWords s d).filter fun h => hdrFmt h < 2
  let blocks := segs.flatMap fun h => (List.range (hdrBlocks h)).map fun j => (h, j)
  let entries := (blocks.filter fun x => decide (hdrBlk x.1 + x.2 < 131072)).flatMap fun x =>
    blockRead s x.1 x.2 :: (List.range (blockCount x.1 x.2)).filterMap fun k =>
      let wide := hdrFmt x.1 == 1
      let w := hw.entryWord s x.1 x.2 k
      if xorBits (if wide then 64 else 32) w ∧ (hw.sqOf s).hasCore (hdrCore x.1) then
        some (hw.recAddr s (hdrCore x.1) (entryFields wide w).2.2, 8)
      else none
  hdrReads s (rowHdrIdx d) ++ entries
    ++ (blocks.filter fun x => decide (hdrSptr x.1 + x.2 < 64 * hw.scaleLines s)).map (fun x =>
      (synTier s + 128 * hw.scaleBase s + 2 * (hdrSptr x.1 + x.2), 2))
    ++ (if rl.dirIdx < 2097152 then [(synTier s + 8 * rl.dirIdx, 8)] else [])
    ++ hw.leadReads s ++ hdrReads s ((hw.sqOf s).pendDir.flatMap fun p => rowHdrIdx p.2)

/-- The check of a loaded row, its acceptance or refusal, and the status for the FENCE. The check is that of Table 4-11 alone, so
09/R326 has no part in it. Outside a job the entry goes to the directory at once, and replaces one that an ended job of the same
index left pending (04/R161). An uncorrectable word among those that the check reads refuses the load with ECC_UNCORR before any
row of the table, and a bank group that is OFF refuses it with ABSENT (DESIGN CHOICE, log 172); a header, block or scale entry in
lines that the row may not use fails as one outside the region (log 171). -/
def Hw.rowLoadCheck (hw : Hw) (s : Nat) (rl : RowLoad) : Hw × Nat :=
  let q := hw.sqOf s
  let inJob := (hw.jobOfSq s).isSome
  let lo := rl.start / 128
  let hi := (rl.start + rl.len + 127) / 128
  let lines := (List.range (hi - lo)).map (lo + ·)
  let taken : Nat → Bool := fun l => q.staged.any fun r => decide (r.1 ≤ l ∧ l < r.2)
  let take : Hw → Hw := fun h =>
    let a := Nat.max lo (h.stageLo s)
    let b := Nat.min hi (h.stageHi s)
    if a < b then h.modSq s fun q => { q with staged := q.staged ++ [(a, b)] } else h
  if !rl.dirV then (take hw, stOK)
  else
    let hw := hw.checkReads s (hw.rowLoadReads s rl)
    let d := rl.dirEnt
    let ok : Nat → Bool := fun l => !inJob || taken l || lines.contains l
    let others := (((hw.bindings s).flatMap bindDirs).eraseDups.filter fun i => i != rl.dirIdx && decide (i < 2097152)).map
        (fun i => hw.dirEntry s i)
      ++ ((q.pendDir.filter fun p => p.1 != rl.dirIdx).map (·.2))
    let held := others.filter fun e => xorBits 64 e && fld e 30 29 != 0
    let hdrs := held.flatMap rowHdrIdx
    let used := held.flatMap fun e => hw.rowLines s e
    let mine := hw.rowLines s d
    let share := repeats (rowHdrIdx d) || repeats mine || (rowHdrIdx d).any (fun i => hdrs.contains i) || mine.any (fun l => used.contains l)
    let st := hw.readStatus s (hw.rowLoadReads s rl)
    let st := if st ≠ stOK then st else rowStatus ((hw.rowBad s d ok).filter (· != 0) ++ (if share then [8] else []))
    let st := if st = stOK ∧ fld d 31 31 = fld (hw.dirEntry s rl.dirIdx) 31 31 then stBADPARAM else st
    if st ≠ stOK then (hw, st)
    else if inJob then (take (hw.modSq s fun q => { q with pendDir := mset q.pendDir rl.dirIdx d }), stOK)
    else (take ((hw.modSq s fun q => { q with pendDir := mdel q.pendDir rl.dirIdx }).wrWhole (synTier s + 8 * rl.dirIdx) (leBytes 8 d)),
      stOK)

/-! ### Send tables (06/T6-10, R222). -/

/-- Where a core's send table lies and how many entries it has (06/T6-23). -/
def sendBase (v : Nat) : Nat := fld v 20 3 * 8
def sendN (v : Nat) : Nat := fld v 27 21

/-- The entries of a core's send table. -/
def Hw.sendTable (hw : Hw) (s l : Nat) : List Nat :=
  let v := mget 0 (hw.rtOf s).send l
  (List.range (Nat.min (sendN v) 64)).map fun i => hw.rdN (sqMem s + sendBase v + 8 * i) 8

/-- What two valid entries may not share: a group, or a destination and pair slot. -/
def sendKey (e : Nat) : Nat := if e.testBit 29 then 2 ^ 40 + fld e 45 32 else fld e 63 54 * 2 ^ 14 + fld e 45 32

/-- Where a core's send table lies: address and length; none for an empty one. -/
def Hw.sendRange (hw : Hw) (s l : Nat) : Option (Nat × Nat) :=
  let v := mget 0 (hw.rtOf s).send l
  if sendN v = 0 then none else some (sqMem s + sendBase v, 8 * Nat.min (sendN v) 64)

/-- The checks of a send table (06/R222). R222 does not name a table of more than 64 entries, nor one that passes the end of
square memory: they fail with BAD_PARAM as well (DESIGN CHOICE, log 193). -/
def Hw.sendBad (hw : Hw) (s l : Nat) : Bool :=
  let v := mget 0 (hw.rtOf s).send l
  let es := hw.sendTable s l
  decide (64 < sendN v) || decide (0x200000 < sendBase v + 8 * sendN v)
    || es.any (fun e =>
      e.testBit 31 || (e.testBit 30 && fld e 28 14 == 0) || decide (16384 < fld e 13 0 + fld e 28 14)
        || (if e.testBit 29 then fld e 63 54 != 0 else fld e 53 46 != 0 || fld e 45 44 != 0))
    || repeats ((es.filter fun e => e.testBit 30).map sendKey)

/-! ### Rule images (05/T5-4). -/

/-- The blocks of narrow segments of core L that each binding and directory entry leads to: line and used entries. -/
def Hw.narrowBlocks (hw : Hw) (s l : Nat) : List (Nat × Nat) :=
  (hw.bindings s).flatMap fun b => ((bindDirs b).filter fun d => decide (d < 2097152)).flatMap fun i =>
    let d := hw.dirEntry s i
    if !(xorBits 64 d) || fld d 30 29 == 0 || fld d 30 29 == 3 then []
    else ((hw.rowHdrWords s d).filter fun h => xorBits 64 h && hdrFmt h == 0 && hdrCore h == l).flatMap fun h =>
      (List.range (hdrBlocks h)).map fun j => (hdrBlk h + j, Nat.min 32 (hdrCount h - 32 * j))

/-- Every block that a binding and a directory entry lead to, once for each way to it (05/R168). -/
def Hw.blockLeads (hw : Hw) (s : Nat) : List Nat :=
  (hw.bindings s).flatMap fun b => ((bindDirs b).filter fun d => decide (d < 2097152)).flatMap fun i =>
    let d := hw.dirEntry s i
    if !(xorBits 64 d) || fld d 30 29 == 0 || fld d 30 29 == 3 then [] else hw.rowLines s d

/-- Every line that rows, directory entries, headers and kernel directory entries take. -/
def Hw.usedLines (hw : Hw) (s : Nat) : List Nat :=
  (hw.bindings s).flatMap fun b =>
    (bindKdirs b).map (· / 4) ++ (bindDirs b).flatMap fun i =>
      let d := hw.dirEntry s i
      (i / 16) :: (if !(xorBits 64 d) || fld d 30 29 == 0 || fld d 30 29 == 3 then []
        else (rowHdrIdx d).map (· / 16) ++ hw.rowLines s d)

/-- Record indices that a rule image's ranges take: first and end. -/
def ruleSpans (b : List Byte) : List (Nat × Nat) :=
  (List.range (Nat.min (ruleNRange b) 8)).map fun r => (rangeIdx b r, rangeIdx b r + (rangeHi b r - rangeLo b r))

def overlaps (l : List (Nat × Nat)) : Bool :=
  (List.range l.length).any fun i => (List.range l.length).any fun j =>
    i != j && (let a := l.getD i (0, 0); let b := l.getD j (0, 0); decide (a.1 < b.2 ∧ b.1 < a.2))

/-- Table 5-4 on a rule image for core L (05/R170): the numbers of its failed rows. A constant that breaks 03/R95 counts under
row 3, since the table names no row for it (log 173). -/
def Hw.ruleBad (hw : Hw) (s l : Nat) (b : List Byte) : List Nat :=
  let cfg := leAt b 0 4
  let n := ruleNRange b
  let rs := List.range (Nat.min n 8)
  let one := F32.ofInt 1
  let zero := F32.ofInt 0
  let blocks := hw.narrowBlocks s l
  let leads := hw.blockLeads s
  let recs := rs.flatMap fun r => (List.range (rangeHi b r - rangeLo b r)).map fun i => (rangeLo b r + i, rangeIdx b r + i)
  let inTable := recs.filter fun x => decide (x.2 < 24576)
  let at_ : Nat → List Byte := fun i => hw.rd (recordAt s i) 256
  let spans := ruleSpans b
  let others := ((List.range 18).filter fun k => k != l && (hw.sqOf s).hasCore k).flatMap fun k =>
    match (hw.lslot s k).rule with | some i => ruleSpans i.bytes | none => []
  let top := (spans ++ others).foldl (fun a x => Nat.max a x.2) 0
  let area : Nat → Bool := fun line => decide (81920 ≤ line ∧ line < 81920 + 2 * top)
  let row : Nat → Bool → List Nat := fun n bad => if bad then [n] else []
  row 1 (rs.any fun r => badOpcode eventOp (rangeProg b r))
  ++ row 2 (rs.any fun r => decide (16 < rangeLen b r) || decide (16 < stageCost (rangeProg b r)) || badForm (rangeProg b r))
  ++ row 3 (fld cfg 31 9 != 0 || decide (8 < n) || ruleSeed b == 0 || [0, 1, 2, 3].any (fun q => fld (ruleModb b q) 15 13 != 0)
      || !(allZero ((b.drop 24).take 40)) || !(allZero ((b.drop 192).take 64))
      || (List.range 8).any (fun r => decide (n ≤ r) && !(allZero ((b.drop (256 + 256 * r)).take 256)))
      || rs.any (fun r =>
          fld (rangeAt b r 0 4) 31 17 != 0 || fld (rangeAt b r 4 4) 31 17 != 0 || fld (rangeAt b r 8 2) 15 15 != 0
            || fld (rangeAt b r 11 1) 7 5 != 0 || fld (rangeAt b r 12 1) 7 5 != 0 || fld (rangeAt b r 13 1) 7 6 != 0
            || rangeOpt b r == 3 || rangeAt b r 192 64 != 0
            || (List.range 8).any (fun j => badSext (rangeAt b r (96 + 4 * j) 4)))
      || inTable.any (fun x => let d := at_ x.2
          leAt d 176 1 / 32 != 0 || leAt d 177 3 != 0 || leAt d 180 4 / 2 ^ 17 != 0 || leAt d 184 72 != 0))
  ++ row 4 (rs.any (fun r => decide (rangeHi b r ≤ rangeLo b r)) || overlaps (rs.map fun r => (rangeLo b r, rangeHi b r))
      || recs.any (fun x => leads.count x.1 != 1 || !(blocks.any fun y => y.1 == x.1)))
  ++ row 5 (rs.any (fun r => decide (hw.stageLo s < hw.stageHi s ∧ rangeLo b r < hw.stageHi s ∧ hw.stageLo s < rangeHi b r))
      || recs.any (fun x => decide (24576 ≤ x.2)) || decide (4096 < recs.length) || overlaps spans
      || spans.any (fun a => others.any fun c => decide (a.1 < c.2 ∧ c.1 < a.2))
      || (hw.usedLines s).any area
      || (hw.scaleLines s != 0 && top != 0 && decide (hw.scaleBase s < 81920 + 2 * top ∧ 81920 < hw.scaleBase s + hw.scaleLines s)))
  ++ row 6 (recs.any fun x => leAt (at_ x.2) 180 4 != x.1)
  ++ row 7 (recs.any (fun x => decide (recGE (at_ x.2) < 103 ∨ 150 < recGE (at_ x.2)))
      || rs.any (fun r => decide (rangeGinit b r < 103 ∨ 150 < rangeGinit b r ∨ 23 < rangeDshift b r ∨ 23 < rangeMshift b r)))
  ++ row 8 (rs.any fun r =>
      let lr := rangeF b r 0
      let b1 := rangeF b r 1
      let b2 := rangeF b r 2
      let eps := rangeF b r 3
      !lr.finite || lr.lt zero || !b1.finite || b1.lt zero || !(b1.lt one) || !b2.finite || b2.lt zero || !(b2.lt one)
        || !eps.finite || !(zero.lt eps))
  ++ row 9 (recs.any fun x => momBad (at_ x.2) 1 || momBad (at_ x.2) 2 || fld (recFlags (at_ x.2)) 4 3 != 0)
  ++ row 10 ([0, 1, 2, 3].any fun q => (ruleModb b q).testBit 12 && decide (hw.bindN s ≤ fld (ruleModb b q) 11 0))

/-- The status of the first failed row of Table 5-4 (05/R170). -/
def ruleStatus (l : List Nat) : Nat :=
  let first := l.foldl Nat.min 99
  if 10 < first then stOK else if first = 1 then stBADOP else if first = 6 then stSKEW else stBADPARAM

/-- What the check of a rule image reads: what leads to the rows, and the records of its ranges (05/R172). -/
def Hw.ruleReads (hw : Hw) (s : Nat) (b : List Byte) : List (Nat × Nat) :=
  hw.leadReads s ++ (rangeRecords b fun _ => true).map fun x => (recordAt s x.2.2, 256)

/-- The used slots of every record of a core, from the loaded image (05/R167). -/
def Hw.usedOf (hw : Hw) (s l : Nat) : List (Nat × Nat) :=
  match (hw.lslot s l).rule with
  | none => []
  | some i =>
    let blocks := hw.narrowBlocks s l
    (rangeRecords i.bytes fun _ => true).map fun x =>
      (x.2.2, ((blocks.find? fun y => y.1 == x.2.1).map (·.2)).getD 0)

/-! ### Reloads (03/R121 to R125, 05/R172). -/

/-- What CORE_CTL.RELOAD samples: the image from square memory, and whether a word of it is uncorrectable. -/
def Hw.sampleImage (hw : Hw) (s base size : Nat) : Image × Bool :=
  (⟨base, hw.rd (sqMem s + base) size⟩, hw.hasPoison (sqMem s + base) size)

/-- The words of square memory that a RELOAD copies. -/
def imageRead (s base size : Nat) : List (Nat × Nat) := [(sqMem s + base, size)]

/-- A reload of physical slot p's tables, or of its rule image, fails with a status. -/
def Hw.reloadFails (hw : Hw) (s p st : Nat) : Hw :=
  (hw.modSlot s p fun k => { k with reloadErr := true, errCode := st }).rise (.core s p) 4
def Hw.ruleFails (hw : Hw) (s p st : Nat) : Hw :=
  (hw.modSlot s p fun k => { k with rErr := true, rErrCode := st }).rise (.rule s p) 4

/-- RELOAD of a physical slot's tables (03/R121, R125). Square memory that is OFF gives no image: the reload fails with ABSENT
(12/R396, log 152). -/
def Hw.reload (hw : Hw) (s p : Nat) : Hw :=
  let k := hw.slotOf s p
  if k.checking then hw.reloadFails s p stBUSY
  else if 0x200000 < k.tblBase + tableSize then hw.reloadFails s p stBADPARAM
  else if hw.memOff s then hw.reloadFails s p stABSENT
  else
    let hw := hw.checkReads s (imageRead s k.tblBase tableSize)
    let x := hw.sampleImage s k.tblBase tableSize
    hw.modSlot s p fun k => { k with checking := true, stagedT := some x.1, tEcc := x.2 }

/-- The status of the table check of core L (03/R121, R122). -/
def Hw.reloadStatus (hw : Hw) (s l : Nat) (img : Image) (ecc : Bool) : Nat :=
  let n := (hw.sqOf s).flt.nsnapOf l
  if ecc then stECC
  else
    let st := hw.readStatus s (hw.tableReads s l)
    if st ≠ stOK then st
    else
      let st := tableCheck img.bytes (fun i => hw.nrec s l i) n (hw.r92Bad s l img.bytes)
      if st ≠ stOK then st
      else match (hw.lslot s l).table with
        | some old => if (List.range 256).any fun c => channelWide old.bytes c != channelWide img.bytes c then stBADPARAM else stOK
        | none => stOK

/-- RELOAD_CHECK_DONE (03/R122, R123). -/
def Hw.reloadDone (hw : Hw) (s l : Nat) : Hw :=
  let k := hw.lslot s l
  match k.checking, k.stagedT with
  | true, some img =>
    let hw := hw.checkReads s (hw.tableReads s l)
    let st := hw.reloadStatus s l img k.tEcc
    let hw := hw.modL s l fun k => { k with checking := false, stagedT := none, tEcc := false }
    if st ≠ stOK then hw.reloadFails s ((hw.sqOf s).slotFor l) st
    else if (hw.jobOfSq s).isSome then hw.modL s l fun k => { k with pendT := some img }
    else (hw.controlSaved s).modL s l fun k => { k with table := some img, pendT := none }
  | _, _ => hw

/-- RULE_CTL.RELOAD (05/R172). -/
def Hw.ruleReload (hw : Hw) (s p : Nat) : Hw :=
  let k := hw.slotOf s p
  if k.rChecking then hw.ruleFails s p stBUSY
  else if 0x200000 < k.ruleBase + ruleSize then hw.ruleFails s p stBADPARAM
  else if hw.memOff s then hw.ruleFails s p stABSENT
  else
    let hw := hw.checkReads s (imageRead s k.ruleBase ruleSize)
    let x := hw.sampleImage s k.ruleBase ruleSize
    hw.modSlot s p fun k => { k with rChecking := true, stagedR := some x.1, rEcc := x.2 }

/-- The ranges that a reload may not change (05/R172). -/
def rangeShape (b : Option Image) : List (Nat × Nat × Nat) :=
  match b with
  | none => []
  | some i => (List.range (ruleNRange i.bytes)).map fun r => (rangeLo i.bytes r, rangeHi i.bytes r, rangeIdx i.bytes r)

/-- The status of the rule check of core L (05/R172). The spec gives no order among the failures of a reload: an uncorrectable
read comes first, then Table 5-4, then the comparison with the ranges in force (log 174). -/
def Hw.ruleReloadStatus (hw : Hw) (s l : Nat) (img : Image) (ecc : Bool) : Nat :=
  let st := if ecc then stECC else hw.readStatus s (hw.ruleReads s img.bytes)
  let st := if st ≠ stOK then st else ruleStatus (hw.ruleBad s l img.bytes)
  if st = stOK ∧ rangeShape (some img) ≠ rangeShape (hw.lslot s l).rule then stBADPARAM else st

/-- RULE_RELOAD_CHECK_DONE (05/R172). -/
def Hw.ruleReloadDone (hw : Hw) (s l : Nat) : Hw :=
  let k := hw.lslot s l
  match k.rChecking, k.stagedR with
  | true, some img =>
    let hw := hw.checkReads s (hw.ruleReads s img.bytes)
    let st := hw.ruleReloadStatus s l img k.rEcc
    let hw := hw.modL s l fun k => { k with rChecking := false, stagedR := none, rEcc := false }
    if st ≠ stOK then hw.ruleFails s ((hw.sqOf s).slotFor l) st
    else if (hw.jobOfSq s).isSome then hw.modL s l fun k => { k with pendR := some img }
    else (hw.controlSaved s).modL s l fun k => { k with rule := some img, pendR := none }
  | _, _ => hw

end Sys2Proof.Machine
end

