-- ==== Sys2Proof/Machine/Access.lean ====
section
/-! DEFINITION. Accesses to a square window: regions, bank groups, poison, the bit-set and bit-clear aliases, and the read or
write of bytes in each region (01/R37, R38, 03/R90, 12/R396 to R404). -/

namespace Sys2Proof.Machine

/-- The regions of a square window (01/T1-8). -/
inductive Region where
  | syn | mir | core (l : Nat) | mem | setA | clrA | reg | none
  deriving DecidableEq, Repr

/-- The region that a window offset lies in. -/
def regionOf (off : Nat) : Region :=
  if off < 0x1000000 then .syn
  else if off < 0x2000000 then .mir
  else if off < 0x2900000 then .core ((off - 0x2000000) / 0x80000)
  else if off < 0x3000000 then .none
  else if off < 0x3200000 then .mem
  else if off < 0x3400000 then .setA
  else if off < 0x3600000 then .clrA
  else if off < 0x3800000 then .none
  else if off < 0x3872000 then .reg
  else if off < 0x3C00000 then .none
  else if off < 0x3D30000 then .reg
  else .none

/-- The bank group that an offset lies in (12/T12-1), for a square's map of logical cores. -/
def groupOf (q : Square) (off : Nat) : Option Nat :=
  match regionOf off with
  | .syn => some (20 + off / 0x400000)
  | .mir => some (24 + (off - 0x1000000) / 0x400000)
  | .core l => if q.slotFor l < 19 then some (q.slotFor l) else none
  | .mem | .setA | .clrA => some 19
  | _ => none

/-- The storage address of a window offset: aliases name square memory, a core window the slot that carries the core. -/
def storeAddr (q : Square) (s off : Nat) : Nat :=
  match regionOf off with
  | .core l => slotState s (q.slotFor l) + (off - 0x2000000) % 0x80000
  | .setA | .clrA => sqMem s + (off - 0x3000000) % 0x200000
  | _ => winBase s + off

/-- A write of bytes within one 64-bit word is a read-modify-write when it is narrower than the word or goes through an
alias; a poisoned word then stays as it is and the write is not made (12/R399, R401). The Bool says it was made. -/
def Hw.wrWord (hw : Hw) (a : Nat) (bs : List Byte) (alias_ : Bool) : Hw × Bool :=
  let whole := a % 8 == 0 && bs.length == 8 && !alias_
  if whole then ((hw.wr a bs).unpoison a 8, true)
  else if hw.poisoned a bs.length then (hw, false)
  else (hw.wr a bs, true)

/-- Split a byte range into the parts that lie in each 64-bit word. -/
def wordParts : Nat → Nat → List Byte → List (Nat × List Byte)
  | 0, _, _ => []
  | _, _, [] => []
  | n + 1, a, bs =>
    let k := 8 - a % 8
    (a, bs.take k) :: wordParts n (a + k) (bs.drop k)

/-- Write bytes word by word; the Bool says that every part was made. -/
def Hw.wrBytes (hw : Hw) (a : Nat) (bs : List Byte) (alias_ : Bool := false) : Hw × Bool :=
  (wordParts bs.length a bs).foldl (fun (r : Hw × Bool) p =>
    let x := r.1.wrWord p.1 p.2 alias_
    (x.1, r.2 && x.2)) (hw, true)

/-- The bytes that an alias write leaves: bits set or cleared (12/R398). -/
def aliasBytes (set : Bool) (old new : List Byte) : List Byte :=
  (old.zip new).map fun (p : Byte × Byte) => if set then p.1 ||| p.2 else p.1 &&& ~~~ p.2

/-- An uncorrectable word was read (12/R404, 09/T9-1 0x06): the square's job takes the restart path, or a record is written. -/
def Hw.eccFault (hw : Hw) (s a n : Nat) : Hw := hw.jobFault (hw.eccInfo s a n)

/-- Before a host write outside a job changes live state, what it changes is copied first if it is pending, and then DIRTY
(09/R321, R324). -/
def Hw.hostSaved (hw : Hw) (s off : Nat) : Hw :=
  match regionOf off with
  | .core l => hw.unitWrite s (.row l ((off - 0x2000000) % 0x80000 / 512))
  | .syn => if 0xA00000 ≤ off then hw.unitWrite s (.plastic ((off - 0xA00000) / 256)) else hw.consSaved s
  | .mir | .mem | .setA | .clrA | .reg | .none => hw

/-- Write bytes at a window offset, outside the register regions. `row` marks the data of an accepted row load
(04/R134, R159). The status says what became of it: OK, BUSY, ABSENT, BAD_PARAM or ECC_UNCORR. -/
def Hw.storeWin (hw : Hw) (s off : Nat) (bs : List Byte) (row : Bool := false) : Hw × Nat :=
  let q := hw.sqOf s
  let a := storeAddr q s off
  let fin : Hw × Bool → Hw × Nat := fun r =>
    let st := hw.badStatus a bs.length
    if r.2 then (r.1, stOK) else (if st = stPARITY then r.1.eccFault s a bs.length else r.1, st)
  match regionOf off with
  | .none | .reg => (hw, stBADPARAM)
  | .core l =>
    if 19 ≤ q.slotFor l then (hw, stABSENT)
    else if !hw.hostWriteOk s off then (hw, stBUSY)
    else fin ((hw.hostSaved s off).wrBytes a bs)
  | .syn =>
    if row then fin (hw.wrBytes a bs)
    else if hw.hostWriteOk s off then fin ((hw.hostSaved s off).wrBytes a bs) else (hw, stBUSY)
  | .mir | .mem => if hw.hostWriteOk s off then fin (hw.wrBytes a bs) else (hw, stBUSY)
  | .setA =>
    if hw.hostWriteOk s off then fin (hw.wrBytes a (aliasBytes true (hw.rd a bs.length) bs) true) else (hw, stBUSY)
  | .clrA =>
    if hw.hostWriteOk s off then fin (hw.wrBytes a (aliasBytes false (hw.rd a bs.length) bs) true) else (hw, stBUSY)

/-- Read bytes at a window offset, outside the register regions. -/
def Hw.loadWin (hw : Hw) (s off n : Nat) : Hw × List Byte × Nat :=
  let q := hw.sqOf s
  let a := storeAddr q s off
  let get : Unit → Hw × List Byte × Nat := fun _ =>
    if hw.poisoned a n then (hw.eccFault s a n, List.replicate n 0, hw.badStatus a n) else (hw, hw.rd a n, stOK)
  match regionOf off with
  | .none | .reg => (hw, List.replicate n 0, stBADPARAM)
  | .core l => if 19 ≤ q.slotFor l then (hw, List.replicate n 0, stABSENT) else get ()
  | _ => get ()

/-- Where an access to a window stands before it is made: served, held at a domain or bank group, or answered ABSENT
(01/R36, 12/R396). -/
inductive Gate where
  | serve
  | hold (dom : Nat) (group : Option Nat)
  | absent
  deriving DecidableEq, Repr

/-- The gate of an access to square s at an offset. Square-control reads are served by the router's copy (06/R227). `owed` says that
the access had reached the square before its domain began to leave ON for OFF (06/R228). -/
def Hw.gate (hw : Hw) (s off : Nat) (owed : Bool := false) : Gate :=
  let q := hw.sqOf s
  let d := hw.domOf s
  if d.state = .off ∧ d.moving = none then .absent
  else if !(hw.isOn s) && !(owed && d.state == .on && d.moving == some .off) then .hold s none
  else match groupOf q off with
    | none => .serve
    | some g =>
      let b := q.bankOf g
      if b.isOn then .serve
      else if b.state = .off ∧ b.moving = none then .absent
      else .hold s (some g)

/-- Ask a bank group for a state; the transition ends with its own event (12/R395). -/
def Hw.askBank (hw : Hw) (s g : Nat) (t : PwrState) : Hw :=
  hw.modSq s fun q => q.setBank g fun b => if b.state = t then b else { b with moving := some t }

/-- Wake the domain or bank group that an access waits for (01/R36, 12/R396). -/
def Hw.wakeAt (hw : Hw) (s dom : Nat) (g : Option Nat) : Hw :=
  match g with
  | none => hw.wakeDom dom
  | some g =>
    hw.modSq s fun q => q.setBank g fun b =>
      if b.moving.isSome then { b with wake := true } else if b.state = .on then b else { b with moving := some .on }

/-- Hold an access, and wake what it waits for. -/
def Hw.holdAt (hw : Hw) (s dom : Nat) (g : Option Nat) (h : HeldAccess) : Hw :=
  ({ hw with heldAcc := hw.heldAcc ++ [h] }).wakeAt s dom g

end Sys2Proof.Machine
end

