-- ==== Sys2Proof/Machine/Program.lean ====
section
/-! DEFINITION. Controller programs: START, STOP, the micro-ops, and the timeouts of SEND and RECV (07/R249 to R254). -/

namespace Sys2Proof.Machine

/-- The opcodes of controller programs (07/R253). -/
def controllerOp (o : Op) : Bool :=
  eventOp o || o == .send || o == .recv || o == .jmp || o == .ldw || o == .stw || o == .qop

/-- Constants of a program image, and its words: to the first END, at most 256 (07/R252). -/
def Hw.cpConsts (hw : Hw) (s base : Nat) : List Int := (List.range 8).map fun j => sext 24 (hw.rdN (sqMem s + base + 4 * j) 4)
def Hw.cpWord (hw : Hw) (s base i : Nat) : Word := BitVec.ofNat 32 (hw.rdN (sqMem s + base + 32 + 4 * i) 4)
def Hw.cpWords (hw : Hw) (s base : Nat) : List Word :=
  let ws := (List.range 256).map fun i => hw.cpWord s base i
  let isEnd : Word → Bool := fun w => w.extractLsb' 26 6 == 0x3F
  let body := ws.takeWhile fun w => !isEnd w
  body ++ (ws.drop body.length).take 1

/-- The START check (07/R253): OK, BAD_OPCODE or BAD_PARAM. A QOP with IMM[3:2] = 3 counts as BAD_PARAM, and so does an
image that passes the end of square memory (DEDUCED, log 20). -/
def cpCheck (base : Nat) (ws : List Word) : Nat :=
  let us := ws.filterMap uopDecode
  if badOpcode controllerOp ws then stBADOP
  else if badForm ws || us.any (fun u => u.op == .jmp && decide (ws.length ≤ u.im))
      || us.any (fun u => u.op == .qop && fld u.im 3 2 == 3) || decide (0x200000 < base + 32 + 4 * ws.length) then stBADPARAM
  else stOK

/-- A program that cannot read its image: the word is never used, and the program stops with ECC_UNCORR (09/R307, log 70). -/
def Hw.cpLost (hw : Hw) (s l a n : Nat) : Hw := (hw.jobFault (hw.eccInfo s a n)).cpError s l (hw.badStatus a n)

/-- START (07/R252). An image in square memory that is OFF cannot be read: the program ends with ABSENT (12/R396, log 196). -/
def Hw.cpStart (hw : Hw) (s l : Nat) : Hw :=
  let p := hw.cpOf s l
  if p.run then hw
  else if hw.memOff s then hw.cpError s l stABSENT
  else
    let hw := hw.useBanks s [19]
    let ws := hw.cpWords s p.base
    let a := sqMem s + p.base
    let n := Nat.min (32 + 4 * ws.length) (0x200000 - p.base)
    let st := cpCheck p.base ws
    if hw.poisoned a n then hw.cpLost s l a n
    else if st ≠ stOK then hw.cpError s l st
    else hw.modCp s l fun p => { p with run := true, pc := 0, w := [], f := false, len := ws.length, wait := none }

/-- STOP (07/R254): a waiting SEND or RECV ends with nothing sent or taken. -/
def Hw.cpStop (hw : Hw) (s l : Nat) : Hw :=
  if (hw.cpOf s l).run then (hw.modCp s l fun p => { p with run := false, wait := none }).irq (96 + s) else hw

/-- Go on to the word after the present one, or end after the last (07/R252). -/
def Hw.cpNext (hw : Hw) (s l : Nat) : Hw :=
  let p := hw.cpOf s l
  if p.pc + 1 < p.len then hw.modCp s l fun p => { p with pc := p.pc + 1 }
  else (hw.modCp s l fun p => { p with run := false }).irq (96 + s)

/-- An address that A names: 16-byte or 4-byte aligned, within square memory (07/R254). -/
def cpAddr (x : Int) (n : Nat) : Option Nat :=
  if x < 0 ∨ 0x200000 < x + (n : Int) ∨ x.toNat % n ≠ 0 then none else some x.toNat

/-- The program of a core can issue a micro-op. -/
def Hw.cpReady (hw : Hw) (s l : Nat) : Bool :=
  (hw.cpOf s l).run && (hw.cpOf s l).wait.isNone && hw.works s && (hw.sqOf s).hasCore l

/-- The micro-op of a program that runs and does not wait. Its words, its constants and CP_BASE are read as they are now, not as START
checked them: DESIGN CHOICE, log 204. -/
def Hw.cpCurrent (hw : Hw) (s l : Nat) : Option Uop :=
  let p := hw.cpOf s l
  if hw.cpReady s l then uopDecode (hw.cpWord s p.base p.pc) else none

/-- One micro-op of a controller program (07/T7-4, 03/T3-8). -/
def Hw.cpExec (hw : Hw) (s l : Nat) (u : Uop) : Hw :=
  let p := hw.cpOf s l
  let k := hw.cpConsts s p.base
  let r : Regs := { w := p.w, f := p.f }
  let a := operand k r u.a
  let b := operand k r u.b
  if u.op = .fin then (hw.modCp s l fun p => { p with run := false }).irq (96 + s)
  else if !(u.holds p.f) then hw.cpNext s l
  else match u.op with
    | .send =>
      match cpAddr a 16 with
      | none => hw.cpError s l stBADPARAM
      | some off => hw.sendTry s l (fld u.im 1 0) u.d.toNat off
    | .recv =>
      match cpAddr a 16 with
      | none => hw.cpError s l stBADPARAM
      | some off => hw.recvTry s l (fld u.im 1 0) u.d.toNat off
    | .jmp => hw.modCp s l fun p => { p with pc := fld u.im 7 0 }
    | .ldw =>
      match cpAddr (a + 4 * (fld u.im 10 0 : Nat)) 4 with
      | none => hw.cpError s l stBADPARAM
      | some off =>
        let at_ := sqMem s + off
        -- an uncorrectable word is never used: D keeps its value (09/R307, log 70)
        if hw.poisoned at_ 4 then (hw.jobFault (hw.eccInfo s at_ 4)).cpNext s l
        else (hw.modCp s l fun p => { p with w := mset p.w u.d.toNat (sext 24 (hw.rdN at_ 4)) }).cpNext s l
    | .stw =>
      match cpAddr (a + 4 * (fld u.im 10 0 : Nat)) 4 with
      | none => hw.cpError s l stBADPARAM
      | some off =>
        let x := hw.storeWin s (0x3000000 + off) (leBytes 4 (toField 32 b))
        if x.2 = stBUSY then hw.cpError s l stBUSY
        else (if x.2 = stECC then x.1.eccFault s (sqMem s + off) 4 else x.1).cpNext s l
    | .qop =>
      let n := fld u.im 1 0
      let x : Hw × Nat := match fld u.im 3 2 with
        | 0 => (hw.ropen s l n, stOK)
        | 1 => (hw.rclose s l n, stOK)
        | _ => (hw.sopen s l n, (hw.sendOf s l n).sopen.2)
      (x.1.modCp s l fun p => { p with w := mset p.w u.d.toNat (x.2 : Int) }).cpNext s l
    | _ =>
      let r' := sharedStep u k r
      (hw.modCp s l fun p => { p with w := r'.w, f := r'.f }).cpNext s l

/-- The core controller issues the micro-op of the present word, if it is one of opcode `op` (07/R252). A program whose square
memory is OFF ends with ABSENT (12/R396, log 196). -/
def Hw.cpIssue (hw : Hw) (s l : Nat) (op : Op) : Hw :=
  if !(hw.cpReady s l) then hw
  else if hw.memOff s then hw.cpError s l stABSENT
  else
    let hw := hw.useBanks s [19]
    let p := hw.cpOf s l
    let a := sqMem s + p.base
    match hw.cpCurrent s l with
    | some u =>
      if u.op ≠ op then hw
      else if hw.poisoned a 32 then hw.cpLost s l a 32
      else if hw.poisoned (a + 32 + 4 * p.pc) 4 then hw.cpLost s l (a + 32 + 4 * p.pc) 4
      else hw.cpExec s l u
    | none => hw

/-- The wait of a SEND or RECV has reached the CP_TMO that it was issued with, in compute cycles of the square
(07/R250), and is past it: what comes in the cycle in which it ends counts (00/R18). -/
def Hw.cpExpired (hw : Hw) (s l : Nat) : Bool :=
  let p := hw.cpOf s l
  p.run && decide (p.waitAt + 100 * p.waitN < ((hw.sqOf s).account hw.elapsed).clock)

/-- SEND_TIMEOUT (07/R250). -/
def Hw.sendTimeout (hw : Hw) (s l : Nat) : Hw :=
  match (hw.cpOf s l).wait with
  | some (.send _ d _) => if hw.cpExpired s l then hw.cpDone s l d stFULL else hw
  | _ => hw

/-- RECV_TIMEOUT (07/R250). -/
def Hw.recvTimeout (hw : Hw) (s l : Nat) : Hw :=
  match (hw.cpOf s l).wait with
  | some (.recv _ d _) => if hw.cpExpired s l then hw.cpDone s l d stTIMEOUT else hw
  | _ => hw

end Sys2Proof.Machine
end

