-- ==== Sys2Proof/Machine/SqRegs.lean ====
section
/-! DEFINITION. The registers in a square window: square control, core and rule engine, router, inbox and ledger, queues and
programs, fault block, power and banks (01/R21 to R39, 03/R126, 05/R173, 06/T6-19 to T6-26, 07/R255, 09/T9-10 to T9-15,
08/T8-11, 12/T12-9 to T12-11). -/

namespace Sys2Proof.Machine

/-! ### Square control (01/T1-2, T1-3). -/

def Square.lmapWord (q : Square) (k : Nat) : Nat :=
  (List.range 6).foldl (fun a i => a + q.slotFor (6 * k + i) * 32 ^ i) 0

def Square.status (q : Square) : Nat :=
  b2n q.loaded + 2 * b2n (q.shadow == 31) + 4 * b2n (q.shadow == 16 || q.shadow == 17)
    + 8 * b2n (q.role 16 == 1) + 16 * b2n (q.role 17 == 1)

def Square.ctlRead (q : Square) (s off : Nat) : Nat :=
  match off with
  | 0x00 => s + 256 * b2n q.fused + 512 * b2n q.fenced
  | 0x04 => b2n q.policy + 256 * b2n q.loaded
  | 0x08 => maskOf 19 q.slotFence
  | 0x0C => q.lmapWord 0
  | 0x10 => q.lmapWord 1
  | 0x14 => q.lmapWord 2
  | 0x18 => q.status
  | _ => 0

/-! ### Core and rule-engine registers of a slot (03/T3-13, 05/T5-5). -/

/-- IN_JOB of a slot (03/R126). -/
def Hw.inJob (hw : Hw) (s p : Nat) : Bool :=
  if ((hw.sqOf s).coreFor p).isSome then (hw.jobOfSq s).isSome else (hw.slotOf s p).heldInJob

def Slot.passes (k : Slot) : Nat :=
  match k.table with
  | some i => (List.range 16).foldl (fun a m => a + modelPasses i.bytes m * 4 ^ m) 0
  | none => 0

def Hw.coreRead (hw : Hw) (s p off : Nat) : Nat :=
  let q := hw.sqOf s
  let k := hw.slotOf s p
  if 0x210 ≤ off ∧ off < 0x220 ∧ off % 4 = 0 then mget 0 k.mods ((off - 0x210) / 4) % 65536
  else match off with
    | 0x000 => (q.coreFor p).getD 31 + p * 32 + q.role p * 2 ^ 10
    | 0x008 => b2n k.checking + 2 * b2n k.pendT.isSome + 4 * b2n k.reloadErr + 8 * b2n (hw.inJob s p) + k.errCode * 256
    | 0x00C => k.tblBase
    | 0x010 => k.passes
    | 0x020 => k.cntDue
    | 0x024 => k.cntUpd
    | 0x028 => k.cntLane
    | 0x02C => k.cntWide
    | 0x030 => k.cntFire
    | 0x034 => k.cntTempo
    | 0x204 =>
      b2n k.rChecking + 2 * b2n k.pendR.isSome + 4 * b2n k.rErr + 8 * b2n k.gsat + 16 * b2n k.rules.isSome
        + k.rErrCode * 256
    | 0x208 => k.ruleBase
    | 0x20C => k.lfsr.toNat
    | 0x220 => k.cntPre
    | 0x224 => k.cntMod
    | 0x228 => k.cntCons
    | _ => 0

/-- Writes of a slot's registers; a slot that carries no logical number keeps its values (03/R126). -/
def Hw.coreWrite (hw : Hw) (s p off v : Nat) : Hw :=
  if ((hw.sqOf s).coreFor p).isNone then hw
  else match off with
    | 0x004 => if v.testBit 0 then hw.reload s p else hw
    | 0x008 => let v := hw.clears (.core s p) v; hw.modSlot s p fun k => { k with reloadErr := k.reloadErr && !(v.testBit 2) }
    | 0x00C => hw.modSlot s p fun k => { k with tblBase := fld v 20 8 * 256 }
    | 0x200 => if v.testBit 0 then hw.ruleReload s p else hw
    | 0x204 => let v := hw.clears (.rule s p) v; hw.modSlot s p fun k => { k with rErr := k.rErr && !(v.testBit 2), gsat := k.gsat && !(v.testBit 3) }
    | 0x208 => hw.modSlot s p fun k => { k with ruleBase := fld v 20 8 * 256 }
    | 0x20C => if hw.inJob s p ∨ v % 2 ^ 32 = 0 then hw else (hw.controlSaved s).modSlot s p fun k => { k with lfsr := BitVec.ofNat 32 v }
    | _ => hw

/-! ### Router (06/T6-19 to T6-23). -/

/-- The ports that reduce the Manhattan distance: the reset entry of version 0 (06/R203). -/
def manhattan (s d : Nat) : Nat :=
  (if s / 8 < d / 8 then 1 else 0) + (if s % 8 < d % 8 then 2 else 0) + (if d / 8 < s / 8 then 4 else 0)
    + (if d % 8 < s % 8 then 8 else 0) + 7 * 2 ^ 10

/-- A square route entry and a multicast entry (06/R202, R203, R206). -/
def Hw.sqEntry (hw : Hw) (s ver d : Nat) : Nat :=
  mget (if ver = 0 then manhattan s d else 0) (hw.rtOf s).sqRoute (64 * ver + d)
def Hw.mcEntry (hw : Hw) (s ver g : Nat) : Nat := mget 0 (hw.rtOf s).mcast (16384 * ver + g)

/-- INDEX, VER and TABLE of RTR_TBL_ADDR. -/
def tblIndex (a : Nat) : Nat := fld a 13 0
def tblVer (a : Nat) : Nat := fld a 14 14
def tblTable (a : Nat) : Nat := fld a 16 15

/-- The address names an entry (06/R495). -/
def tblNames (a : Nat) : Bool :=
  match tblTable a with
  | 0 => decide (tblIndex a ≤ 63)
  | 1 => decide (tblIndex a ≤ 15)
  | 2 => true
  | _ => false

def Hw.tblRead (hw : Hw) (s : Nat) : Nat :=
  let a := (hw.rtOf s).tblAddr
  if !tblNames a then 0
  else match tblTable a with
    | 0 => hw.sqEntry s (tblVer a) (tblIndex a)
    | 1 => hw.modEntry s (tblVer a) (tblIndex a)
    | _ => hw.mcEntry s (tblVer a) (tblIndex a)

/-- RTR_TBL_DATA_WRITE (06/R214, R495): only the idle version, and only while OLD_BUSY = 0. -/
def Hw.tblWrite (hw : Hw) (s v : Nat) : Hw × Nat :=
  let a := (hw.rtOf s).tblAddr
  if !tblNames a then (hw, stBADPARAM)
  else if tblVer a = hw.rt.cur ∨ hw.rt.oldBusy then (hw, stBUSY)
  else match tblTable a with
    | 0 => (hw.modRt s fun r => { r with sqRoute := mset r.sqRoute (64 * tblVer a + tblIndex a) (fld v 12 0) }, stOK)
    | 1 => (hw.modRt s fun r => { r with modRoute := mset r.modRoute (16 * tblVer a + tblIndex a) (fld v 12 0) }, stOK)
    | _ => (hw.modRt s fun r => { r with mcast := mset r.mcast (16384 * tblVer a + tblIndex a) (fld v 26 0) }, stOK)

def RtState.code : RtState → Nat | .normal => 0 | .draining => 1 | .absent => 2 | .sink => 3

def Hw.rtrRead (hw : Hw) (s off : Nat) : Nat :=
  let r := hw.rtOf s
  if 0x40 ≤ off ∧ off < 0x88 ∧ off % 4 = 0 then mget 0 r.send ((off - 0x40) / 4)
  else match off with
    | 0x00 => r.tblAddr
    | 0x04 => hw.tblRead s
    | 0x08 => r.sink
    | 0x0C => r.state.code + 4 * b2n r.fenced
    | _ => 0

def Hw.rtrWrite (hw : Hw) (s off v : Nat) : Hw × Nat :=
  if 0x40 ≤ off ∧ off < 0x88 ∧ off % 4 = 0 then
    if (hw.jobOfSq s).isSome then (hw, stBUSY)
    else (hw.modRt s fun r => { r with send := mset r.send ((off - 0x40) / 4) (fld v 27 3 * 8) }, stOK)
  else match off with
    | 0x00 => (hw.modRt s fun r => { r with tblAddr := fld v 16 0 }, stOK)
    | 0x04 => hw.tblWrite s v
    | 0x08 => (if v % 2 ^ 32 = 0xFFFFFFFF then hw.modRt s fun r => { r with sink := 0 } else hw, stOK)
    | _ => (hw, stOK)

/-! ### Inbox and ledger (06/T6-24 to T6-26). -/

def Square.ibStatus (q : Square) : Nat :=
  q.inbox.length + b2n q.wdog * 2 ^ 10 + b2n q.closed * 2 ^ 11 + (q.ledgerT.getD 0) % 4 * 2 ^ 12

def Square.lgOf (q : Square) (s : Nat) : LgSlot := mget {} q.ledger s

def LgSlot.word (l : LgSlot) : Nat := b2n l.expect + l.src * 2 + l.bind * 64
def LgSlot.state (l : LgSlot) : Nat := l.received + l.carried * 2 ^ 16 + b2n l.closeSeen * 2 ^ 32

def Hw.lgWrite (hw : Hw) (s slot v : Nat) : Hw × Nat :=
  if (hw.jobOfSq s).isSome then (hw, stBUSY)
  else (hw.modSq s fun q => { q with ledger := mupd {} q.ledger slot fun l =>
    { l with expect := v.testBit 0, src := fld v 5 1, bind := fld v 17 6 } }, stOK)

/-! ### Queues, channels and programs (07/T7-5 to T7-16). -/

def Queue.cfg (k : Queue) : Nat :=
  k.buf + k.smod * 2 ^ 12 + k.ssq * 2 ^ 16 + k.score * 2 ^ 22 + b2n k.bound * 2 ^ 27
def Queue.stateWord (k : Queue) : Nat :=
  b2n k.open_ + k.gen * 2 + k.rptr * 2 ^ 9 + k.fill * 2 ^ 17 + b2n k.rxerr * 2 ^ 26
def SendCh.cfg (c : SendCh) : Nat := c.dmod + c.dsq * 16 + c.dcore * 2 ^ 10 + c.dq * 2 ^ 15
def SendCh.stateWord (c : SendCh) : Nat :=
  b2n c.open_ + c.gen * 2 + c.wptr * 2 ^ 9 + c.credits * 2 ^ 17 + b2n c.rvalid * 2 ^ 26
def SendCh.errWord (c : SendCh) : Nat := c.rej + c.rgen * 256 + c.stickyBits * 2 ^ 16
def Prog.statusWord (p : Prog) : Nat :=
  b2n p.run + 2 * b2n p.wait.isSome + p.pc * 4 + b2n p.err * 2 ^ 10 + p.errCode * 2 ^ 16

/-- SCH_CFGc (07/T7-9, R240). -/
def Hw.schWrite (hw : Hw) (s l c v : Nat) : Hw × Nat :=
  let qix := qixOf (fld v 14 10) (fld v 16 15)
  if (hw.sendOf s l c).open_ then (hw, stBUSY)
  else if [0, 1, 2, 3].any fun d => d != c && qixOf (hw.sendOf s l d).dcore (hw.sendOf s l d).dq == qix then (hw, stBADPARAM)
  else (hw.modSend s l c fun k =>
    { k with dmod := fld v 3 0, dsq := fld v 9 4, dcore := fld v 14 10, dq := fld v 16 15 }, stOK)

def Hw.qeRead (hw : Hw) (s l o : Nat) : Nat :=
  let i := o / 4 % 4
  let p := hw.cpOf s l
  if o % 4 ≠ 0 then 0
  else if o < 0x10 then (hw.queueOf s l i).cfg
  else if o < 0x20 then (hw.queueOf s l i).stateWord
  else if o < 0x30 then 0
  else if o < 0x50 then 0
  else if o < 0x60 then (hw.sendOf s l i).stateWord
  else if o < 0x70 then (hw.sendOf s l i).errWord
  else match o with
    | 0x80 => p.base
    | 0x88 => p.statusWord
    | 0x8C => p.tmo
    | _ => 0

def Hw.qeWrite (hw : Hw) (s l o v : Nat) : Hw × Nat :=
  let i := o / 4 % 4
  if o % 4 ≠ 0 then (hw, stOK)
  else if o < 0x10 then
    if (hw.queueOf s l i).open_ then (hw, stBUSY)
    else (hw.modQueue s l i fun k => { k with
      buf := fld v 8 0, smod := fld v 15 12, ssq := fld v 21 16, score := fld v 26 22, bound := v.testBit 27 }, stOK)
  else if o < 0x20 then
    let v := hw.clears (.queue s l i) v
    (hw.modQueue s l i fun k => { k with rxerr := k.rxerr && !(v.testBit 26) }, stOK)
  else if o < 0x30 then
    let hw := if v.testBit 0 then hw.ropen s l i else hw
    (if v.testBit 1 then hw.rclose s l i else hw, stOK)
  else if o < 0x60 then (hw, stOK)
  else if o < 0x70 then
    let v := hw.clears (.send s l i) v
    (hw.modSend s l i fun k => { k with
      sClosed := k.sClosed && !(v.testBit 16), sStale := k.sStale && !(v.testBit 17), sAbsent := k.sAbsent && !(v.testBit 18)
      sParity := k.sParity && !(v.testBit 19), sBadp := k.sBadp && !(v.testBit 20) }, stOK)
  else if o < 0x80 then
    let r : Hw × Nat := if v.testBit 0 then (hw.sopen s l i, (hw.sendOf s l i).sopen.2) else (hw, stOK)
    (if v.testBit 1 then r.1.sclose s l i else r.1, r.2)
  else match o with
    | 0x80 => (hw.modCp s l fun p => { p with base := fld v 20 5 * 32 }, stOK)
    | 0x84 =>
      let hw := if v.testBit 0 then hw.cpStart s l else hw
      (if v.testBit 1 then hw.cpStop s l else hw, stOK)
    | 0x88 => let v := hw.clears (.cp s l) v; (hw.modCp s l fun p => { p with err := p.err && !(v.testBit 10) }, stOK)
    | 0x8C =>
      let n := fld v 20 0
      (if 1048576 < n then hw else hw.modCp s l fun p => { p with tmo := n }, stOK)
    | _ => (hw, stOK)

/-! ### Fault block (09/T9-10 to T9-15). -/

/-- Transients within the window that ends now, at most 3 (09/R316). -/
def Hw.transNow (hw : Hw) (s i : Nat) : Nat :=
  Nat.min 3 ((mget [] (hw.sqOf s).flt.trans i).filter fun t => decide (hw.tb.now ≤ t + 10000000000)).length

def Hw.tcount (hw : Hw) (s : Nat) : Nat :=
  (List.range 20).foldl (fun a i => a + hw.transNow s i * 4 ^ i) 0

def Hw.sqfRead (hw : Hw) (s off : Nat) : Nat :=
  let f := (hw.sqOf s).flt
  if 0x40 ≤ off ∧ off < 0x88 ∧ off % 4 = 0 then f.nsnapOf ((off - 0x40) / 4)
  else match off with
    | 0x00 => f.rate
    | 0x04 => f.arb + f.arbSlot * 8 + b2n (!f.pend.isEmpty) * 256 + Nat.min f.samples 65535 * 2 ^ 16
    | 0x08 => f.sticky
    | 0x18 => f.eccCount
    | _ => 0

def Hw.sqfWrite (hw : Hw) (s off v : Nat) : Hw × Nat :=
  match off with
  | 0x00 =>
    if (hw.jobOfSq s).isSome then (hw, stBUSY)
    else (if fld v 1 0 = 3 then hw else hw.modFlt s fun f => { f with rate := fld v 1 0 }, stOK)
  | 0x08 => let v := hw.clears (.faults s) v; (hw.modFlt s fun f => { f with sticky := f.sticky - (f.sticky &&& (v % 2 ^ 25)) }, stOK)
  | 0x18 => (if fld v 15 0 = 0xFFFF then hw.modFlt s fun f => { f with eccCount := 0 } else hw, stOK)
  | _ => (hw, stOK)

/-! ### DVFS, sensor, banks (08, 12). -/

/-- Spare rows left in a group's poorest bank. -/
def Hw.spareLeft (hw : Hw) (s g : Nat) : Nat :=
  (List.range 16).foldl (fun a b => Nat.min a (hw.spareIn s g b)) (spareRows s g)

/-- SQ_REPAIR (12/T12-11). -/
def Hw.sqRepair (hw : Hw) (s : Nat) : Nat :=
  let m := (List.range 28).foldl (fun (a : Nat × Nat) g =>
    let x := hw.spareLeft s g
    if x < a.1 then (x, g) else a) (hw.spareLeft s 0, 0)
  let soft := (hw.banks.soft.filter fun r => r.square == s && decide (r.group < 28)).length
  Nat.min m.1 15 + m.2 * 16 + Nat.min soft 255 * 2 ^ 16 + b2n (hw.hasPoison (winBase s) 0x4000000 || hw.hasPoison (hiddenRow s groupUnit 0 0) (128 * 16 * 2048)) * 2 ^ 24

def Hw.sqPwrRead (hw : Hw) (s off : Nat) : Nat :=
  let q := hw.sqOf s
  match off with
  | 0x000 => q.dvfsCur + q.dvfsFloor * 8 + q.dvfsNext * 64
  | 0x004 => q.busy
  | 0x008 => toField 8 q.temp
  | 0x10C => hw.sqRepair s
  | _ => 0

def Hw.sqPwrWrite (hw : Hw) (s off v : Nat) : Hw × Nat :=
  match off with
  | 0x000 => (hw.modSq s fun q => { q with dvfsFloor := fld v 5 3 }, stOK)
  | 0x108 => hw.bankReq s (fld v 4 0) (fld v 6 5)
  | _ => (hw, stOK)

def Square.bankStates (q : Square) : Nat := (List.range 28).foldl (fun a g => a + q.bankCode g * 4 ^ g) 0

/-! ### The whole register range of a window. -/

/-- The slot whose registers an offset of the core ranges shows: of a logical core, or of the physical-slot window. -/
def coreSlot (q : Square) (off : Nat) : Option (Nat × Nat) :=
  if 0x3810000 ≤ off ∧ off < 0x3820000 then some (q.slotFor ((off - 0x3810000) / 0x1000), off % 0x1000)
  else if 0x3870000 ≤ off ∧ off < 0x3872000 then some (q.slotFor (16 + (off - 0x3870000) / 0x1000), off % 0x1000)
  else if 0x3C00000 ≤ off ∧ off < 0x3D30000 then some ((off - 0x3C00000) / 0x10000, off % 0x10000)
  else none

/-- The 64-bit registers of a window, by the offset of their low word. -/
def Hw.sqReg64 (hw : Hw) (s off : Nat) : Option Nat :=
  let q := hw.sqOf s
  if 0x3838000 ≤ off ∧ off < 0x3840000 ∧ off % 8 = 0 then some (q.lgOf ((off - 0x3838000) / 8)).state
  else if 0x3840000 ≤ off ∧ off < 0x3841200 ∧ 0x30 ≤ off % 0x100 ∧ off % 0x100 < 0x50 ∧ off % 8 = 0 then
    some (hw.sendOf s ((off - 0x3840000) / 0x100) ((off % 0x100 - 0x30) / 8)).cfg
  else if off = 0x3850010 then some (hw.tcount s)
  else if off = 0x3860100 then some q.bankStates
  else none

/-- A register range that belongs to an absent logical core (01/R24, R38). -/
def Square.regAbsent (q : Square) (off : Nat) : Bool :=
  if 0x3840000 ≤ off ∧ off < 0x3841200 then decide (19 ≤ q.slotFor ((off - 0x3840000) / 0x100))
  else match coreSlot q off with
    | some (p, _) => decide (19 ≤ p)
    | none => false

/-- A 32-bit read of a register that is no half of a 64-bit one: value and status. -/
def Hw.sqRead (hw : Hw) (s off : Nat) : Nat × Nat :=
  let q := hw.sqOf s
  if q.regAbsent off then (0, stABSENT)
  else match coreSlot q off with
    | some (p, o) => (hw.coreRead s p o, stOK)
    | none =>
      if off < 0x3810000 then (q.ctlRead s (off - 0x3800000), stOK)
      else if off < 0x3830000 then (hw.rtrRead s (off - 0x3820000), stOK)
      else if off < 0x3840000 then
        let o := off - 0x3830000
        (if o = 0 then q.ibStatus
         else if 0x4000 ≤ o ∧ o < 0x8000 ∧ o % 4 = 0 then (q.lgOf ((o - 0x4000) / 4)).word else 0, stOK)
      else if off < 0x3841200 then (hw.qeRead s ((off - 0x3840000) / 0x100) (off % 0x100), stOK)
      else if off < 0x3850000 then (0, stOK)
      else if off < 0x3860000 then (hw.sqfRead s (off - 0x3850000), stOK)
      else (hw.sqPwrRead s (off - 0x3860000), stOK)

/-- Initiators of the control complex and the security engine, which may write the physical-slot window (01/R39). -/
def mayWriteSlots : Initiator → Bool
  | .core _ | .security => true
  | .dma _ | .debug | .other => false

/-- A 32-bit write of a register that is no half of a 64-bit one. -/
def Hw.sqWrite (hw : Hw) (ini : Initiator) (s off v : Nat) : Hw × Nat :=
  let q := hw.sqOf s
  if q.regAbsent off then (hw, stABSENT)
  else if 0x3C00000 ≤ off && !mayWriteSlots ini then (hw, stBADPARAM)
  else match coreSlot q off with
    | some (p, o) => (hw.coreWrite s p o v, stOK)
    | none =>
      if off < 0x3810000 then
        if off = 0x3800004 then (if q.loaded then (hw, stBUSY) else (hw.setPolicy s (v.testBit 0), stOK)) else (hw, stOK)
      else if off < 0x3830000 then hw.rtrWrite s (off - 0x3820000) v
      else if off < 0x3840000 then
        let o := off - 0x3830000
        if o = 0 then let v := hw.clears (.inbox s) v; (hw.modSq s fun q => { q with wdog := q.wdog && !(v.testBit 10) }, stOK)
        else if 0x4000 ≤ o ∧ o < 0x8000 ∧ o % 4 = 0 then hw.lgWrite s ((o - 0x4000) / 4) v else (hw, stOK)
      else if off < 0x3841200 then hw.qeWrite s ((off - 0x3840000) / 0x100) (off % 0x100) v
      else if off < 0x3850000 then (hw, if 0x384F000 ≤ off ∧ off < 0x384F020 then stBUSY else stOK)
      else if off < 0x3860000 then hw.sqfWrite s (off - 0x3850000) v
      else hw.sqPwrWrite s (off - 0x3860000) v

/-- A write of a 64-bit register: only SCH_CFGc is writable. -/
def Hw.sqWrite64 (hw : Hw) (s off v : Nat) : Hw × Nat :=
  if (hw.sqOf s).regAbsent off then (hw, stABSENT)
  else if 0x3840000 ≤ off ∧ off < 0x3841200 then
    hw.schWrite s ((off - 0x3840000) / 0x100) ((off % 0x100 - 0x30) / 8) v
  else (hw, stOK)

/-! ### Packets reach registers in units of 16 bytes (06/R198, R199). -/

/-- The first status that is not OK. -/
def worse (a b : Nat) : Nat := if a = stOK then b else a

/-- Two registers of 32 bits, or one of 64, read in one access. -/
def Hw.sqPairRead (hw : Hw) (s off : Nat) : List Byte × Nat :=
  match hw.sqReg64 s off with
  | some v => if (hw.sqOf s).regAbsent off then (leBytes 8 0, stABSENT) else (leBytes 8 v, stOK)
  | none =>
    let a := hw.sqRead s off
    let b := hw.sqRead s (off + 4)
    (leBytes 4 a.1 ++ leBytes 4 b.1, worse a.2 b.2)

def Hw.sqUnitRead (hw : Hw) (s off : Nat) : List Byte × Nat :=
  let a := hw.sqPairRead s off
  let b := hw.sqPairRead s (off + 8)
  (a.1 ++ b.1, worse a.2 b.2)

def Hw.sqPairWrite (hw : Hw) (s off : Nat) (b : List Byte) : Hw × Nat :=
  match hw.sqReg64 s off with
  | some _ => hw.sqWrite64 s off (leAt b 0 8)
  | none =>
    let x := hw.sqWrite .other s off (leAt b 0 4)
    let y := x.1.sqWrite .other s (off + 4) (leAt b 4 4)
    (y.1, worse x.2 y.2)

def Hw.sqUnitWrite (hw : Hw) (s off : Nat) (b : List Byte) : Hw × Nat :=
  let x := hw.sqPairWrite s off (b.take 8)
  let y := x.1.sqPairWrite s (off + 8) (b.drop 8)
  (y.1, worse x.2 y.2)

/-- A packet writes the registers of a granule, or the one that its mark names (07/R261). -/
def Hw.sqMarkedWrite (hw : Hw) (s off : Nat) (b : List Byte) (m : PacketMark) : Hw × Nat :=
  match m with
  | .lane k => hw.sqWrite .other s (off + 4 * k) (leAt b (4 * k) 4)
  | .plain | .rowHead => hw.sqUnitWrite s off b

end Sys2Proof.Machine
end

