-- ==== Sys2Proof/Machine/GlobalRegs.lean ====
section
/-! DEFINITION. The registers of the global blocks: system, DMA, RT, PSC, FL, CSI, FLT, SEC and FUSE (13/T13-12, 07/T7-20,
06/T6-15 to T6-18 and R493, 12/T12-12 to T12-18, 14/T14-16, 09/T9-16 to T9-25). -/

namespace Sys2Proof.Machine

/-! ### System (13/T13-13 to T13-16). -/

/-- The level of the STAGE pins; none while they float, until S0 ends (13/R423, 14/T14-10). -/
def BringUp.stageLevel (b : BringUp) : Option Nat :=
  if !b.s0Done then none else some (if b.stopped then 15 else if b.ctrlS4.isSome then 4 else b.stage)

/-- The value of the STAGE pins as SYS_STAGE shows it (13/R423). -/
def BringUp.stagePins (b : BringUp) : Nat := b.stageLevel.getD 0

def Hw.sysRead (hw : Hw) (off : Nat) : Nat :=
  let b := hw.bring
  if 0x100 ≤ off ∧ off < 0x190 ∧ off % 4 = 0 then leAt (mget [] b.reports ((off - 0x100) / 16)) (off % 16) 4
  else match off with
    | 0x0 => b.stagePins + b.last * 16 + b2n b.stopped * 256
    | 0x4 => b.cause
    | 0x8 => maskOf 4 b.pass + maskOf 6 b.unfit * 16
    | _ => 0

def Hw.sysWrite (hw : Hw) (off v : Nat) : Hw :=
  let v := hw.clears .ready v
  if off = 0x8 then { hw with bring := { hw.bring with unfit := hw.bring.unfit.filter fun n => !(v.testBit (4 + n)) } } else hw

/-! ### DMA (07/R267). -/

def Hw.dmaReg64 (hw : Hw) (off : Nat) : Option Nat :=
  if off < 0x400 ∧ off % 0x40 = 0x08 then some (hw.dmaOf (off / 0x40)).desc
  else if off < 0x400 ∧ off % 0x40 = 0x10 then some (hw.dmaOf (off / 0x40)).cur
  else none

def Hw.dmaRead (hw : Hw) (off : Nat) : Nat :=
  if off < 0x400 then (if off % 0x40 = 0x04 then (hw.dmaOf (off / 0x40)).status else 0)
  else if off = 0x400 then hw.dmaTmo else 0

def Hw.dmaRegWrite (hw : Hw) (off v : Nat) : Hw × Nat :=
  if off < 0x400 then
    let c := off / 0x40
    match off % 0x40 with
    | 0x00 =>
      -- channels 12 to 15 are the sequencer's (07/R256)
      if 12 ≤ c then (hw, stBUSY)
      else
      let a := if v.testBit 0 then hw.dmaCtlStart c else (hw, stOK)
      let b := if v.testBit 1 then a.1.dmaCtlStop c else (a.1, stOK)
      (b.1, worse a.2 b.2)
    | 0x04 => let v := hw.clears (.dma c) v; (hw.modDma c fun k => { k with done := k.done && !(v.testBit 1), err := k.err && !(v.testBit 2) }, stOK)
    | _ => (hw, stOK)
  else if off = 0x400 then (if fld v 23 0 = 0 then hw else { hw with dmaTmo := fld v 23 0 }, stOK)
  else (hw, stOK)

def Hw.dmaWrite64 (hw : Hw) (off v : Nat) : Hw × Nat :=
  if off < 0x400 ∧ off % 0x40 = 0x08 then
    if (hw.dmaOf (off / 0x40)).run then (hw, stBUSY)
    else (hw.modDma (off / 0x40) fun k => { k with desc := fld v 39 6 * 64 }, stOK)
  else (hw, stOK)

/-! ### RT and the output ledger (06/T6-15 to T6-18, R493). -/

def OlSlot.word (o : OlSlot) : Nat :=
  b2n o.expect + o.src * 2 + o.ssq * 64 + o.smod * 2 ^ 12 + o.group * 2 ^ 16 + b2n o.closeSeen * 2 ^ 31 + o.jobId * 2 ^ 32

def Hw.rtReg64 (hw : Hw) (off : Nat) : Option Nat :=
  if off = 0x08 then some hw.rt.flipAt
  else if 0x8000 ≤ off ∧ off < 0x10000 ∧ off % 8 = 0 then some (mget {} hw.ol ((off - 0x8000) / 8)).word
  else none

def Hw.rtRead (hw : Hw) (off : Nat) : Nat :=
  let r := hw.rt
  if 0x10 ≤ off ∧ off < 0x20 ∧ off % 4 = 0 then mget 7 r.tree ((off - 0x10) / 4)
  else if 0x4000 ≤ off ∧ off < 0x8000 ∧ off % 4 = 0 then
    let o : OlSlot := mget {} hw.ol ((off - 0x4000) / 4)
    o.received + o.carried * 2 ^ 16
  else match off with
    | 0x00 => r.moduleId
    | 0x04 => r.cur + 2 * b2n r.oldBusy + 4 * b2n r.armed + 8 * b2n r.wait
    | _ => 0

/-- RT_EPOCH: ARMED is set as written, then FLIP (06/R215). -/
def Hw.epochWrite (hw : Hw) (v : Nat) : Hw × Nat :=
  let hw := { hw with rt := { hw.rt with armed := v.testBit 2 } }
  if v.testBit 8 then hw.flipWrite else (hw, stOK)

def Hw.rtRegWrite (hw : Hw) (off v : Nat) : Hw × Nat :=
  if 0x10 ≤ off ∧ off < 0x20 ∧ off % 4 = 0 then
    ({ hw with rt := { hw.rt with tree := mset hw.rt.tree ((off - 0x10) / 4) (fld v 8 0) } }, stOK)
  else match off with
    | 0x00 =>
      if hw.anyJob || (List.range 6).any (fun n => (hw.linkOf n).up) then (hw, stBUSY)
      else ({ hw with rt := { hw.rt with moduleId := fld v 3 0 } }, stOK)
    | 0x04 => hw.epochWrite v
    | _ => (hw, stOK)

/-- OL_SLOT_WRITE (06/R493). -/
def Hw.olWrite (hw : Hw) (s v : Nat) : Hw × Nat :=
  if (hw.jobById (mget {} hw.ol s).jobId).isSome then (hw, stBUSY)
  else ({ hw with ol := mupd {} hw.ol s fun o => { o with
    expect := v.testBit 0, src := fld v 5 1, ssq := fld v 11 6, smod := fld v 15 12, group := fld v 29 16
    jobId := fld v 63 32 } }, stOK)

def Hw.rtWrite64 (hw : Hw) (off v : Nat) : Hw × Nat :=
  if off = 0x08 then ({ hw with rt := { hw.rt with flipAt := fld v 49 0 } }, stOK)
  else if 0x8000 ≤ off ∧ off < 0x10000 ∧ off % 8 = 0 then hw.olWrite ((off - 0x8000) / 8) v
  else (hw, stOK)

/-! ### PSRAM controller (12/T12-12 to T12-18, R411). -/

/-- The lowest waiting channel begins its retrain once no other retrains (12/R411). -/
def Hw.retrainNext (hw : Hw) : Hw :=
  if (List.range 16).any fun k => (hw.chanOf k).state == 2 then hw
  else match hw.psc.queue with
    | [] => hw
    | k :: rest =>
      ({ hw with psc := { hw.psc with queue := rest } }).modChan k fun c => { c with state := 2, began := hw.elapsed }

/-- A retrain of channel k is triggered; a failed channel or one that trains already gets none. -/
def Hw.retrainAsk (hw : Hw) (k : Nat) : Hw :=
  if (hw.chanOf k).state = 0 then ({ hw with psc := { hw.psc with queue := sins hw.psc.queue k } }).retrainNext else hw

def PscChan.word (c : PscChan) : Nat := c.state + c.freq * 4 + 16 * b2n c.rtEvt + c.win % 256 * 32

def Psram.jrnlWord (p : Psram) : Nat := p.size + 64 * b2n p.inEn + 128 * b2n p.outEn

/-- Pages of the ring (12/R413, R414). -/
def Psram.pages (p : Psram) : Nat := p.size * 16384

def Hw.pscRead (hw : Hw) (off : Nat) : Nat :=
  if off < 0x200 then
    match off % 0x20 with
    | 0x04 => (hw.chanOf (off / 0x20)).word
    | 0x08 => (hw.chanOf (off / 0x20)).retrains
    | _ => 0
  else match off with
    | 0x400 => hw.psc.period + hw.psc.drift * 2 ^ 16 + hw.psc.dtemp * 2 ^ 24
    | 0x404 => hw.psc.jrnlWord
    | 0x408 => hw.psc.jpage
    | _ => 0

def Hw.pscReg64 (hw : Hw) (off : Nat) : Option Nat := if off = 0x410 then some hw.psc.jseq else none

/-- PSC_JRNL_WRITE (12/R414, T12-16). -/
def Hw.jrnlWrite (hw : Hw) (v : Nat) : Hw × Nat :=
  if hw.anyJob then (hw, stBUSY)
  else
    let size := within 1 32 (fld v 5 0) hw.psc.size
    ({ hw with psc := { hw.psc with
      size := size, inEn := v.testBit 6, outEn := v.testBit 7, jpage := if size = hw.psc.size then hw.psc.jpage else 0 } }, stOK)

def Hw.pscWrite (hw : Hw) (off v : Nat) : Hw × Nat :=
  if off < 0x200 then
    match off % 0x20 with
    | 0x00 => (if v.testBit 0 then hw.retrainAsk (off / 0x20) else hw, stOK)
    | 0x04 => let v := hw.clears (.psc (off / 0x20)) v; (hw.modChan (off / 0x20) fun c => { c with rtEvt := c.rtEvt && !(v.testBit 4) }, stOK)
    | _ => (hw, stOK)
  else match off with
    | 0x400 => ({ hw with psc := { hw.psc with
        period := within 1 65535 (fld v 15 0) hw.psc.period, drift := fld v 23 16, dtemp := fld v 31 24 } }, stOK)
    | 0x404 => hw.jrnlWrite v
    | _ => (hw, stOK)

/-! ### Link ports (06/T6-27 to T6-30, 13/T13-18 to T13-20). -/

def Hw.flRead (hw : Hw) (off : Nat) : Nat :=
  if off < 0x600 then
    let n := off / 0x100
    let l := hw.linkOf n
    match off % 0x100 with
    | 0x00 => b2n l.en + l.jobs * 16
    | 0x04 => l.status
    | 0x08 => l.crcErr
    | 0x0C => l.retry
    | 0x10 => l.laneWord
    | 0x14 => l.lctlWord
    | 0x18 => l.worst + b2n (hw.linkFit n) * 2 ^ 16
    | _ => 0
  else if off = 0x600 then hw.fitCrc + hw.fitLane * 2 ^ 16 else 0

def Hw.flWrite (hw : Hw) (off v : Nat) : Hw × Nat :=
  if off < 0x600 then
    let n := off / 0x100
    let ones := v % 2 ^ 32 = 0xFFFFFFFF
    match off % 0x100 with
    | 0x00 => (hw.linkCtl n v, stOK)
    | 0x04 => let v := hw.clears (.link n) v; (hw.modLink n fun l => { l with downEvt := l.downEvt && !(v.testBit 2) }, stOK)
    | 0x08 => (if ones then hw.modLink n fun l => { l with crcErr := 0 } else hw, stOK)
    | 0x0C => (if ones then hw.modLink n fun l => { l with retry := 0 } else hw, stOK)
    | 0x14 =>
      let c := hw.clears (.retrain n) v
      let hw := hw.modLink n fun l => { l with rtOk := l.rtOk && !(c.testBit 4), rtFail := l.rtFail && !(c.testBit 5) }
      if v.testBit 2 then hw.laneGo n (fld v 1 0) else (hw, stOK)
    | _ => (hw, stOK)
  else if off = 0x600 then
    ({ hw with fitCrc := within 1 65535 (fld v 15 0) hw.fitCrc, fitLane := within 1 65535 (fld v 31 16) hw.fitLane }, stOK)
  else (hw, stOK)

/-! ### CSI-2 ports (14/T14-16, R489). -/

/-- Fields of a tile: X0, Y0, width, height, GROUP, ORD, attachment square. -/
def tileX0 (t : Nat) : Nat := fld t 10 0
def tileY0 (t : Nat) : Nat := fld t 21 11
def tileW (t : Nat) : Nat := fld t 28 22 + 1
def tileH (t : Nat) : Nat := fld t 35 29 + 1
def tileGroup (t : Nat) : Nat := fld t 49 36
def tileOrd (t : Nat) : Nat := fld t 57 50
def tileAsq (t : Nat) : Nat := fld t 63 58

/-- The tiles in use. -/
def CsiPort.tiles (c : CsiPort) : List Nat := (List.range c.ntile).map fun i => (mget (0 : DWord) c.tile i).toNat

/-- The configuration that EN = 1 accepts (14/R489). -/
def CsiPort.configOk (c : CsiPort) : Bool :=
  decide ((c.width + 1) * (c.height + 1) ≤ 1048576) && c.th != 0
    && c.tiles.all (fun t => decide (tileW t * tileH t ≤ 8192) && decide (tileAsq t < 8 ∨ 56 ≤ tileAsq t))
    && !(repeats (c.tiles.map tileGroup))

def CsiPort.ctlWord (c : CsiPort) : Nat :=
  b2n c.en + c.lanes * 2 + 8 * b2n c.mode + c.vc * 16 + 64 * b2n c.graded + c.ntile * 128

/-- CSI_CTLn (14/R488, R489); LANES = 3 leaves LANES as it is. -/
def Hw.csiCtl (hw : Hw) (n v : Nat) : Hw × Nat :=
  let c := hw.csiOf n
  let c' := { c with
    en := v.testBit 0, lanes := within 0 2 (fld v 2 1) c.lanes, mode := v.testBit 3, vc := fld v 5 4, graded := v.testBit 6
    ntile := within 0 64 (fld v 13 7) c.ntile }
  if c.joined.isSome then (hw, stBUSY)
  else if v.testBit 0 && !c'.configOk then (hw, stBADPARAM)
  else (hw.modCsi n fun _ => c', stOK)

def Hw.csiReg64 (hw : Hw) (off : Nat) : Option Nat :=
  if 0x2000 ≤ off then none
  else
    let c := hw.csiOf (off / 0x400)
    let o := off % 0x400
    if o = 0x18 then some c.stime
    else if 0x100 ≤ o ∧ o < 0x300 ∧ o % 8 = 0 then some (mget (0 : DWord) c.tile ((o - 0x100) / 8)).toNat
    else none

/-- Words of the CSI-2 ports (14/T14-16). -/
def Hw.csiRead (hw : Hw) (off : Nat) : Nat :=
  if 0x2000 ≤ off then 0
  else
    let c := hw.csiOf (off / 0x400)
    match off % 0x400 with
    | 0x00 => c.ctlWord
    | 0x04 => b2n c.joined.isSome + 2 * b2n (c.hs && c.en) + 4 * b2n c.refOk + 8 * b2n c.crcEvt + 16 * b2n c.skip
    | 0x08 => c.width + c.height * 2 ^ 11
    | 0x0C => c.th + c.gshift * 2 ^ 10
    | 0x10 => c.jobId
    | 0x14 => c.errCrc + c.errEcc * 256 + c.errOut * 2 ^ 16 + c.errIgn * 2 ^ 24
    | _ => 0

/-- A byte field of a counter register is cleared by writing all ones to it. -/
def clearByte (v i old : Nat) : Nat := if fld v (8 * i + 7) (8 * i) = 255 then 0 else old

def Hw.csiWrite (hw : Hw) (off v : Nat) : Hw × Nat :=
  if 0x2000 ≤ off then (hw, stOK)
  else
    let n := off / 0x400
    let busy := (hw.csiOf n).joined.isSome
    match off % 0x400 with
    | 0x00 => hw.csiCtl n v
    | 0x04 => let v := hw.clears (.csi n) v; (hw.modCsi n fun c => { c with crcEvt := c.crcEvt && !(v.testBit 3), skip := c.skip && !(v.testBit 4) }, stOK)
    | 0x08 => if busy then (hw, stBUSY) else (hw.modCsi n fun c => { c with width := fld v 10 0, height := fld v 21 11 }, stOK)
    | 0x0C =>
      if busy then (hw, stBUSY)
      else (hw.modCsi n fun c => { c with th := fld v 9 0, gshift := within 0 10 (fld v 13 10) c.gshift }, stOK)
    | 0x10 => if busy then (hw, stBUSY) else (hw.modCsi n fun c => { c with jobId := v % 2 ^ 32 }, stOK)
    | 0x14 => (hw.modCsi n fun c => { c with
        errCrc := clearByte v 0 c.errCrc, errEcc := clearByte v 1 c.errEcc, errOut := clearByte v 2 c.errOut
        errIgn := clearByte v 3 c.errIgn }, stOK)
    | _ => (hw, stOK)

def Hw.csiWrite64 (hw : Hw) (off v : Nat) : Hw × Nat :=
  let n := off / 0x400
  let o := off % 0x400
  if 0x2000 ≤ off then (hw, stOK)
  else if 0x100 ≤ o ∧ o < 0x300 ∧ o % 8 = 0 then
    if (hw.csiOf n).joined.isSome then (hw, stBUSY)
    else (hw.modCsi n fun c => { c with tile := mset c.tile ((o - 0x100) / 8) (BitVec.ofNat 64 v) }, stOK)
  else (hw, stOK)

/-! ### FLT (09/T9-16 to T9-25). -/

/-- Fault record i of the ring, zero where it was never filled. -/
def Flt.entry (f : Flt) (i : Nat) : List Byte :=
  let d := (f.ringPos + 511 - i) % 256
  if d < f.ring.length then f.ring.getD (f.ring.length - 1 - d) [] else List.replicate 32 0

def Hw.sticky0 (hw : Hw) : Nat := maskOf 64 ((List.range 64).filter fun s => (hw.sqOf s).flt.sticky != 0)

def Job.snapWord (k : Job) : Nat := k.snapT + b2n k.snapV * 2 ^ 48 + b2n k.copying * 2 ^ 49
def Job.rstWord (k : Job) : Nat := k.rstCount + k.rstLast * 2 ^ 16 + k.noSnap * 2 ^ 24
def Job.outWord (k : Job) : Nat := k.outT + b2n k.outV * 2 ^ 48

def Hw.fltReg64 (hw : Hw) (off : Nat) : Option Nat :=
  if off = 0 then some hw.sticky0
  else if 0x40 ≤ off ∧ off < 0xC0 ∧ off % 0x20 = 0 then some (hw.jobOf ((off - 0x40) / 0x20)).snapWord
  else if 0x40 ≤ off ∧ off < 0xC0 ∧ off % 0x20 = 0x10 then some (hw.jobOf ((off - 0x40) / 0x20)).outWord
  else none

def Hw.fltRead (hw : Hw) (off : Nat) : Nat :=
  let f := hw.flt
  if 0x40 ≤ off ∧ off < 0xC0 then (if off % 0x20 = 0x08 then (hw.jobOf ((off - 0x40) / 0x20)).rstWord else 0)
  else if 0x1000 ≤ off ∧ off < 0x3000 ∧ off % 4 = 0 then leAt (f.entry ((off - 0x1000) / 32)) (off % 32) 4
  else match off with
    | 0x08 => f.sticky1
    | 0x0C => f.sticky2
    | 0x10 => f.maxRst
    | 0x14 => f.ringPos + f.lost * 2 ^ 16
    | 0x18 => Nat.min hw.journalUsed journalMax + b2n (decide (journalMax ≤ hw.journalUsed)) * 2 ^ 21
    | 0x1C => f.chkSeed.toNat
    | 0x20 => mget 0 f.ecc 0 + mget 0 f.ecc 1 * 256 + mget 0 f.ecc 2 * 2 ^ 16 + mget 0 f.ecc 3 * 2 ^ 24
    | _ => 0

def Hw.fltWrite (hw : Hw) (off v : Nat) : Hw :=
  let f := hw.flt
  match off with
  | 0x08 => { hw with flt := { f with sticky1 := f.sticky1 - (f.sticky1 &&& (hw.clears .sticky1 v % 2 ^ 32)) } }
  | 0x0C => { hw with flt := { f with sticky2 := f.sticky2 - (f.sticky2 &&& (hw.clears .sticky2 v % 64)) } }
  | 0x10 => if fld v 3 0 = 0 then hw else { hw with flt := { f with maxRst := fld v 3 0 } }
  | 0x14 => if fld v 31 16 = 0xFFFF then { hw with flt := { f with lost := 0 } } else hw
  | 0x20 => { hw with flt := { f with ecc := [0, 1, 2, 3].map fun i => (i, clearByte v i (mget 0 f.ecc i)) } }
  | _ => hw

/-! ### SEC and the FUSE window (13/R425, R430, R455, T13-17). -/

/-- Key slots used (13/T13-17). -/
def Fuses.keysUsed (f : Fuses) : Nat := ([0, 1, 2, 3].filter fun k => mget 0 f.key k != 0).length

/-- The customer key in force is the one of the highest slot used (13 "Enrolment"). -/
def Fuses.keyInForce (f : Fuses) : BitVec 512 := ([0, 1, 2, 3].foldl (fun a k => if mget 0 f.key k != 0 then mget 0 f.key k else a) 0)

def Fuses.svnCount (f : Fuses) : Nat := popCount 64 f.svnMin.toNat

def Fuses.secStatus (f : Fuses) : Nat :=
  f.lc + 8 * b2n (f.keysUsed != 0) + f.keysUsed * 16 + popCount 64 f.lcCount.toNat * 2 ^ 8 + f.svnCount * 2 ^ 15

/-- The 32-bit word of the fuse map at an offset, with ID_SEED as zero (13/T13-4, R455). -/
def Fuses.word (f : Fuses) (o : Nat) : Nat :=
  let at_ : Nat → Nat → Nat := fun v base => v / 256 ^ (o - base) % 2 ^ 32
  if o < 0x10 then at_ f.serial.toNat 0
  else if o = 0x10 then f.grade % 256
  else if 0x18 ≤ o ∧ o < 0x20 then at_ f.sqFused.toNat 0x18
  else if 0x40 ≤ o ∧ o < 0x140 then mget 0 f.badCore ((o - 0x40) / 4)
  else if o = 0x140 then f.badLane
  else if 0x200 ≤ o ∧ o < 0xA00 then mget 0 f.badRow ((o - 0x200) / 4)
  else if 0xA00 ≤ o ∧ o < 0xE00 then mget 0 f.colSel ((o - 0xA00) / 4)
  else if 0xE00 ≤ o ∧ o < 0xE40 then at_ f.pkDigest.toNat 0xE00
  else if o = 0xE40 then f.crc
  else if 0x1000 ≤ o ∧ o < 0x1008 then at_ f.lcCount.toNat 0x1000
  else if o = 0x1008 then f.retired.toNat
  else if 0x1010 ≤ o ∧ o < 0x1018 then at_ f.svnMin.toNat 0x1010
  else if 0x1040 ≤ o ∧ o < 0x1140 then at_ (mget 0 f.key ((o - 0x1040) / 64)).toNat (0x1040 + (o - 0x1040) / 64 * 64)
  else 0

/-- The CRC over 0x0000 to 0x0E3F of the map, ID_SEED taken as zero (13/T13-4). -/
def Fuses.crcOf (f : Fuses) : Nat := crc32 ((List.range 912).flatMap fun i => leBytes 4 (f.word (4 * i)))

def Hw.secRead (hw : Hw) (off : Nat) : Nat :=
  if off = 0 then hw.fuses.secStatus
  else if 0x1000 ≤ off ∧ off < 0x2140 ∧ off % 4 = 0 then hw.fuses.word (off - 0x1000)
  else 0

end Sys2Proof.Machine
end

