-- ==== Sys2Proof/Machine/RegBus.lean ====
section
/-! DEFINITION. Register accesses by address: which block serves them, 64-bit registers in two halves, and accesses to domains
that are not ON (00/R13 to R16, 01/R36 to R39, T1-7 to T1-9). -/

namespace Sys2Proof.Machine

/-! ### What an address names. -/

/-- Where a register address lies: a window's register range, a global block, or no register. -/
inductive RegPlace where
  | sq (s off : Nat)
  | block (n off : Nat)
  | none
  deriving DecidableEq, Repr

def regPlace (a : Nat) : RegPlace :=
  if a < 0x100000000 then
    if regionOf (a % 0x4000000) = .reg then .sq (a / 0x4000000) (a % 0x4000000) else .none
  else if 0x200000000 ≤ a ∧ a < 0x200100000 then .block ((a - 0x200000000) / 0x10000) (a % 0x10000)
  else .none

/-- Base of a global block (01/T1-9). -/
def blockBase (n : Nat) : Nat := 0x200000000 + 0x10000 * n

/-- The power domain that an access to a block needs ON, if any: units that lie in the domains of 08/T8-8. The
registers of a link port are served in every state, since FL_CTLn.EN = 1 takes the port out of OFF (13/R438, log 25). -/
def blockDomain (n off : Nat) : Option Nat :=
  match n with
  | 1 => some domCtrl
  | 2 => some domTb
  | 6 => some domHub
  | 7 => if 0x4000 ≤ off then some domHub else none
  | 8 => if off < 0x200 then some (domPsc (off / 0x40)) else none
  | 10 => if off < 0x2000 then some (domCsi (off / 0x400)) else none
  | 13 => if 0x1000 ≤ off then some domCtrl else none
  | 14 => some domCtrl
  | _ => none

/-- Whether a domain serves an access, holds it, or answers ABSENT (01/R36). -/
def Hw.domGate (hw : Hw) (d : Nat) : Gate :=
  let k := hw.domOf d
  if hw.isOn d then .serve
  else if k.state = .off ∧ k.moving = none then .absent
  else .hold d none

/-- Offsets that the router serves in place of an absent square: its own registers, and the copy of square control
(06/R227). -/
def routerOwn (off : Nat) : Bool := decide (0x3820000 ≤ off ∧ off < 0x3830000)
def sqCopy (off : Nat) : Bool := decide (0x3800000 ≤ off ∧ off < 0x3810000)

/-- How a register access that no packet carries meets a square (01/R36, 06/R226, R227). SQ_BANKREQ is ignored and reports BUSY
while the domain is not ON, so it is neither held nor absent then (12/R397). -/
def Hw.sqGate (hw : Hw) (s off : Nat) (write : Bool) : Gate :=
  let q := hw.sqOf s
  let byRouter := routerOwn off || (sqCopy off && !write)
  if q.rt.fenced then .absent
  else if write && off == 0x3860108 && !(hw.isOn s) && !q.fused && !q.fenced then .serve
  else if q.fused || q.fenced || q.rt.state == .absent || q.rt.state == .sink then (if byRouter then .serve else .absent)
  else if routerOwn off then .serve
  else hw.domGate s

/-- IRC_DBt: doorbell writes complete in every state of the control complex (11/R377). -/
def isDoorbell (off : Nat) : Bool := decide (off < 0x4000) && off % 0x1000 == 0

def Hw.regGate (hw : Hw) (a : Nat) (write : Bool) : Gate :=
  match regPlace a with
  | .sq s off => hw.sqGate s off write
  | .block n off =>
    if write && n == 1 && isDoorbell off then .serve
    else match blockDomain n off with | some d => hw.domGate d | none => .serve
  | .none => if a < 0x100000000 then hw.sqGate (a / 0x4000000) (a % 0x4000000) write else .serve

/-! ### 64-bit registers by the address of their low word. -/

def Hw.reg64 (hw : Hw) (a : Nat) : Option Nat :=
  match regPlace a with
  | .sq s off => hw.sqReg64 s off
  | .block n off =>
    match n with
    | 2 => hw.tcReg64 off
    | 3 => hw.seqReg64 off
    | 4 => hw.budReg64 off
    | 5 => if off = 0 then
        some (maskOf 64 ((List.range 64).filter fun s => (List.range 18).any fun l => [0, 1, 2, 3].any fun i =>
          (hw.queueOf s l i).rxerr || (hw.sendOf s l i).stickyBits != 0)) else none
    | 6 => hw.dmaReg64 off
    | 7 => hw.rtReg64 off
    | 8 => hw.pscReg64 off
    | 10 => hw.csiReg64 off
    | 13 => hw.fltReg64 off
    | _ => none
  | .none => none

/-- What a read of the low word does besides: captures are taken (11/R384, R390). -/
def Hw.lowRead (hw : Hw) (a : Nat) : Hw :=
  match regPlace a with
  | .block 2 off => hw.tcLowRead off
  | _ => hw

/-- A write of both halves in one cycle. -/
def Hw.regSet64 (hw : Hw) (a v : Nat) : Hw × Nat :=
  match regPlace a with
  | .sq s off => hw.sqWrite64 s off v
  | .block n off =>
    match n with
    | 2 => if off = 0x820 then hw.tbSet v else (hw, stOK)
    | 4 => ({ hw with bud := { hw.bud with wakeSq := mset hw.bud.wakeSq ((off - 0x40) / 8) (v % 2 ^ 64) } }, stOK)
    | 6 => hw.dmaWrite64 off v
    | 7 => hw.rtWrite64 off v
    | 10 => hw.csiWrite64 off v
    | _ => (hw, stOK)
  | .none => (hw, stBADPARAM)

/-! ### 32-bit registers. -/

/-- IRC_ACKt, whose read accepts a source (11/R373). -/
def isAck (off : Nat) : Bool := decide (off < 0x4000) && off % 0x1000 == 4

def Hw.regRead (hw : Hw) (a : Nat) : Hw × Nat × Nat :=
  match regPlace a with
  | .none => (hw, 0, stBADPARAM)
  | .sq s off => (hw, hw.sqRead s off)
  | .block n off =>
    let val : Nat → Hw × Nat × Nat := fun v => (hw, v, stOK)
    match n with
    | 0 => val (hw.sysRead off)
    | 1 => if isAck off then let r := hw.ircAck (off / 0x1000); (r.1, r.2, stOK) else val (hw.ircRead off)
    | 2 => val (hw.tcRead off)
    | 3 => val (hw.seqRead off)
    | 4 => val (hw.budRead off)
    | 6 => val (hw.dmaRead off)
    | 7 => val (hw.rtRead off)
    | 8 => val (hw.pscRead off)
    | 9 => val (hw.flRead off)
    | 10 => val (hw.csiRead off)
    | 12 => val (hw.pwrRead off)
    | 13 => val (hw.fltRead off)
    | 14 => val (hw.secRead off)
    | _ => val 0

def Hw.regWrite (hw : Hw) (ini : Initiator) (a v : Nat) : Hw × Nat :=
  match regPlace a with
  | .none => (hw, stBADPARAM)
  | .sq s off => hw.sqWrite ini s off v
  | .block n off =>
    match n with
    | 0 => (hw.sysWrite off v, stOK)
    | 1 => hw.ircWrite ini off v
    | 2 => hw.tcWrite off v
    | 3 => (hw.seqWrite off v, stOK)
    | 4 => hw.budWrite off v
    | 6 => hw.dmaRegWrite off v
    | 7 => hw.rtRegWrite off v
    | 8 => hw.pscWrite off v
    | 9 => hw.flWrite off v
    | 10 => hw.csiWrite off v
    | 12 => hw.pwrWrite off v
    | 13 => (hw.fltWrite off v, stOK)
    | _ => (hw, stOK)

/-! ### Two halves (00/R16). -/

/-- Number of an initiator; those that hold half-done accesses come first. -/
def iniNum : Initiator → Nat
  | .core n => n.val
  | .dma c => 4 + c.val
  | .security => 20
  | .debug => 21
  | .other => 22

/-- The key of a half-done access. -/
def halfKey (ini : Initiator) (a : Nat) : Nat := iniNum ini * 2 ^ 40 + a

def Hw.halfOf (hw : Hw) (ini : Initiator) (a : Nat) : Half64 := mget {} hw.half (halfKey ini a)
def Hw.setHalf (hw : Hw) (ini : Initiator) (a : Nat) (h : Half64) : Hw :=
  { hw with half := if h = {} then mdel hw.half (halfKey ini a) else mset hw.half (halfKey ini a) h }

/-- REG64_LOW_READ (00/R16). -/
def Hw.read64Low (hw : Hw) (ini : Initiator) (a v : Nat) : Hw × Nat × Nat :=
  let hw := hw.lowRead a
  (hw.setHalf ini a { hw.halfOf ini a with latch := some (v / 2 ^ 32) }, v % 2 ^ 32, stOK)

/-- REG64_HIGH_READ (00/R16). -/
def Hw.read64High (hw : Hw) (ini : Initiator) (a v : Nat) : Hw × Nat × Nat :=
  let h := hw.halfOf ini a
  match h.latch with
  | some x => (hw.setHalf ini a { h with latch := none }, x, stOK)
  | none => (hw, v / 2 ^ 32, stOK)

/-- REG64_LOW_WRITE (00/R16). -/
def Hw.write64Low (hw : Hw) (ini : Initiator) (a v : Nat) : Hw :=
  hw.setHalf ini a { hw.halfOf ini a with low := some (v % 2 ^ 32) }

/-- REG64_HIGH_WRITE (00/R16): with the held low word, or the low word `cur` has. -/
def Hw.write64High (hw : Hw) (ini : Initiator) (a cur v : Nat) : Hw × Nat :=
  let h := hw.halfOf ini a
  let hw := hw.setHalf ini a { h with low := none }
  hw.regSet64 a (h.low.getD (cur % 2 ^ 32) + v % 2 ^ 32 * 2 ^ 32)

/-- A register of an absent logical core answers ABSENT, 64-bit ones too (01/R24). -/
def Hw.absentReg (hw : Hw) (a : Nat) : Bool :=
  match regPlace a with | .sq s off => (hw.sqOf s).regAbsent off | _ => false

/-- A 32-bit read that is served: value and status. -/
def Hw.busRead4 (hw : Hw) (ini : Initiator) (a : Nat) : Hw × Nat × Nat :=
  if hw.absentReg a then (hw, 0, stABSENT)
  else match hw.reg64 a with
    | some v => hw.read64Low ini a v
    | none =>
      match (if a % 8 = 4 then hw.reg64 (a - 4) else none) with
      | some v => hw.read64High ini (a - 4) v
      | none => hw.regRead a

/-- A 32-bit write that is served: its status. -/
def Hw.busWrite4 (hw : Hw) (ini : Initiator) (a v : Nat) : Hw × Nat :=
  if hw.absentReg a then (hw, stABSENT)
  else match hw.reg64 a with
    | some _ => (hw.write64Low ini a v, stOK)
    | none =>
      match (if a % 8 = 4 then hw.reg64 (a - 4) else none) with
      | some x => hw.write64High ini (a - 4) x v
      | none => hw.regWrite ini a (v % 2 ^ 32)

/-- A 64-bit access to a 64-bit register uses no latch (00/R16); at any other offset it is two 32-bit accesses. -/
def Hw.busRead8 (hw : Hw) (ini : Initiator) (a : Nat) : Hw × Nat × Nat :=
  if hw.absentReg a then (hw, 0, stABSENT)
  else match hw.reg64 a with
    | some v => (hw.lowRead a, v, stOK)
    | none =>
      let x := hw.busRead4 ini a
      let y := x.1.busRead4 ini (a + 4)
      (y.1, x.2.1 + y.2.1 * 2 ^ 32, worse x.2.2 y.2.2)

def Hw.busWrite8 (hw : Hw) (ini : Initiator) (a v : Nat) : Hw × Nat :=
  if hw.absentReg a then (hw, stABSENT)
  else match hw.reg64 a with
    | some _ => hw.regSet64 a v
    | none =>
      let x := hw.busWrite4 ini a (v % 2 ^ 32)
      let y := x.1.busWrite4 ini (a + 4) (v / 2 ^ 32)
      (y.1, worse x.2 y.2)

/-! ### Register commands: served, held or answered ABSENT (01/R36). -/

/-- An initiator that makes 64-bit accesses only (00/R16). -/
def only64 : Initiator → Bool
  | .other => true
  | _ => false

/-- The write itself. A unit that makes 64-bit accesses only writes a 64-bit register whole. -/
def Hw.serveWrite (hw : Hw) (ini : Initiator) (a v : Nat) (wide : Bool) : Hw :=
  let r := if wide then hw.busWrite8 ini a v else hw.busWrite4 ini a v
  r.1.answer 0 r.2

def Hw.serveRead (hw : Hw) (ini : Initiator) (a : Nat) (wide : Bool) : Hw :=
  let r := if wide then hw.busRead8 ini a else hw.busRead4 ini a
  r.1.answer r.2.1 r.2.2

/-- Hold a register access at a domain, and wake the domain. -/
def Hw.holdReg (hw : Hw) (ini : Initiator) (d a v : Nat) (wide read : Bool) : Hw :=
  let h : HeldAccess := ⟨d, none, a / 0x4000000, none, iniNum ini, a, v, wide, read⟩
  ({ hw with heldAcc := hw.heldAcc ++ [h] }).wakeDom d

/-- A register write by an initiator. -/
def Hw.doWrite (hw : Hw) (ini : Initiator) (a v : Nat) (wide : Bool := false) : Hw :=
  let wide := wide || (only64 ini && (hw.reg64 a).isSome)
  match hw.regGate a true with
  | .serve => hw.serveWrite ini a v wide
  | .absent => hw.answer 0 stABSENT
  | .hold d _ => hw.holdReg ini d a v wide false

/-- A register read by an initiator: the value and status stand in `bus`. -/
def Hw.doRead (hw : Hw) (ini : Initiator) (a : Nat) (wide : Bool := false) : Hw :=
  let wide := wide || (only64 ini && (hw.reg64 a).isSome)
  match hw.regGate a false with
  | .serve => hw.serveRead ini a wide
  | .absent => hw.answer 0 stABSENT
  | .hold d _ => hw.holdReg ini d a 0 wide true

/-- The initiator of a number. -/
def iniOf (n : Nat) : Initiator :=
  if n < 4 then .core (Fin.ofNat 4 n) else if n < 20 then .dma (Fin.ofNat 16 (n - 4)) else if n = 20 then .security
  else if n = 21 then .debug else .other

/-- A held register access is served. -/
def Hw.serveReg (hw : Hw) (h : HeldAccess) : Hw :=
  if h.read then hw.serveRead (iniOf h.ini) h.addr h.wide else hw.serveWrite (iniOf h.ini) h.addr h.value h.wide

end Sys2Proof.Machine
end

