-- ==== Sys2Proof/Machine/Ledger.lean ====
section
/-! DEFINITION. The closure ledger, the output ledger and the tempo tree: counting, local closure and the reports that go up
and down between modules (02/R64 to R66, R79 to R84, 06/R223 to R225, R235, R493, 04/R132). -/

namespace Sys2Proof.Machine

/-- Every running job with a square on the module takes the restart path (06/T6-3, R208, R212, R493). -/
def Hw.allJobsFault (hw : Hw) (f : FaultInfo) : Hw :=
  if hw.anyJob then
    let c := hw.countFault f
    forAll [0, 1, 2, 3] (fun j h =>
      if (h.jobOf j).active then h.jobFault { f with job := some j, charged := true, perm := c.2 } else h) c.1
  else hw.faultRecord f

/-- Both conditions of 02/R65 hold for a pair. -/
def LgSlot.satisfied (s : LgSlot) : Bool := !s.expect || (s.closeSeen && s.received == s.carried)

/-- The ledger has closed its tempo (02/R65). -/
def Square.ledgerDone (q : Square) : Bool := q.ledger.all fun p => p.2.satisfied

/-- The ledger looks whether it has closed its tempo. -/
def Square.ledgerLook (q : Square) (now : Nat) : Square :=
  { q with closed := q.ledgerDone, ledgerAt := if q.ledgerDone then now else q.ledgerAt }

/-- The checks of Table 6-11 that follow the tag check, for an expected pair: pass or fail (02/R66). -/
def lgCheck (expect closeSeen : Bool) (lsrc received carried : Nat) (p : Packet) : Bool :=
  let n := if p.last then 0 else p.count
  expect && lsrc == p.src && !(closeSeen && p.last)
    && decide (received + n ≤ 65535) && (!closeSeen || decide (received + n ≤ carried))
    && (!p.last || decide (received ≤ p.y 15 0))

/-- Count a packet under its pair (06/R224). -/
def LgSlot.count (s : LgSlot) (p : Packet) : LgSlot :=
  if p.last then { s with closeSeen := true, carried := p.y 15 0 } else { s with received := s.received + p.count }

/-- Detector 0x0D: a CLOSE_MISMATCH of the ledger of square s (09/T9-1). -/
def mismatch (j s slot : Nat) : FaultInfo :=
  { det := 0x0D, status := stCLOSEMM, job := some j, sq := some s, detail := slot }

/-! ### The tempo tree (02/R44, 06/R235). -/

/-- Whether the module is the root of a job's tree: always for a job on one module. -/
def Hw.isRoot (hw : Hw) (j : Nat) : Bool := !(hw.jobOf j).fabric || hw.parentOf j == 7

/-- An output pair of a job is expected on the module (06/R493). -/
def Hw.hasOut (hw : Hw) (j : Nat) : Bool := hw.ol.any fun p => p.2.expect && p.2.jobId == (hw.jobOf j).jobId

/-- The hub takes part in the closure of tempo T: its ledger has closed the record of T − 1 (06/R493). The
first tempo of a run has no record before it. -/
def Hw.hubDone (hw : Hw) (j : Nat) : Bool :=
  let k := hw.jobOf j
  !(hw.hasOut j) || k.outTempo == none || k.outTempo == some ((k.t0 + (2 ^ 48 - 1)) % 2 ^ 48) || k.outClosed

/-- The tempo whose input is injected next, and whose closure is reported next. -/
def Job.feedT (k : Job) : Nat := if k.phase = 3 then k.tempo + 1 else k.tempo

/-- Everything below the module's report of CLOSED has closed, and the hub's own input is in (02/R44, R45, R73). -/
def Hw.allClosed (hw : Hw) (j : Nat) : Bool :=
  let job := hw.jobOf j
  job.injected && (hw.jobSqs j).all (fun s => job.closedSq.contains s) && hw.hubDone j
    && (!job.fabric || (hw.childrenOf j).all (fun c => job.closedCh.contains c))

/-- Everything below the module's report of DONE is done. -/
def Hw.allDone (hw : Hw) (j : Nat) : Bool :=
  let job := hw.jobOf j
  (hw.jobSqs j).all (fun s => job.doneSq.contains s)
    && (!job.fabric || (hw.childrenOf j).all (fun c => job.doneCh.contains c))

/-- Report toward the parent module what is complete below (06/R235). -/
def Hw.treeUp (hw : Hw) (j : Nat) : Hw :=
  let job := hw.jobOf j
  if !job.active || hw.isRoot j || job.restart.isSome then hw
  else
    let p := hw.parentOf j
    let hw := if hw.allClosed j && !job.sentUp then
      (hw.sendCtrl p (ctrlWord 1 j job.feedT)).modJob j fun k => { k with sentUp := true } else hw
    if hw.allDone j && !job.sentDone then
      (hw.sendCtrl p (ctrlWord 2 j job.tempo)).modJob j fun k => { k with sentDone := true } else hw

/-- Global closure of the running tempo can be signalled on this module. -/
def Hw.closureDue (hw : Hw) (j : Nat) : Bool :=
  let job := hw.jobOf j
  job.active && job.released && job.restart == none && (job.phase == 1 || job.phase == 2)
    && (if hw.isRoot j then hw.allClosed j else job.gClosed)

/-- Done of the running tempo can be signalled on this module. -/
def Hw.doneDue (hw : Hw) (j : Nat) : Bool :=
  let job := hw.jobOf j
  job.active && job.restart == none && job.phase == 3 && (if hw.isRoot j then hw.allDone j else job.gDone)

/-- Send a message of the tree down to the children (06/R235). -/
def Hw.treeDown (hw : Hw) (j kind : Nat) : Hw :=
  if (hw.jobOf j).fabric then
    forAll (hw.childrenOf j) (fun c h => h.sendCtrl c (ctrlWord kind j (h.jobOf j).tempo)) hw
  else hw

/-- The square reports local closure once its ledger has closed T and every event of T has been expanded (04/R132). -/
def Hw.localClosure (hw : Hw) (s : Nat) : Hw :=
  let q := hw.sqOf s
  match hw.jobOfSq s, q.ledgerT with
  | some j, some _ =>
    if q.closed && !q.reported && !q.inUpdate && (q.inbox.all fun e => e.pkt.ty != 0 || !e.counted) then
      let hw := hw.modSq s fun q => { q.account hw.elapsed with reported := true, counting := false, tClosed := hw.elapsed }
      let hw := hw.modJob j fun k =>
        let k := { k with closedSq := sins k.closedSq s }
        { k with phase := if k.phase = 1 ∧ (ofMask 64 k.mask).all (fun t => k.closedSq.contains t) then 2 else k.phase }
      hw.treeUp j
    else hw
  | _, _ => hw

/-- An EVENT packet for pair slot `slot` enters the inbox of a square in a running job (06/R224). A packet tagged T + 1 is
held uncounted; a packet that fails a check of Table 6-11 raises CLOSE_MISMATCH and goes no further. -/
def Hw.enterEvent (hw : Hw) (s j : Nat) (p : Packet) (slot : Nat) : Hw :=
  let q := hw.sqOf s
  let bad := hw.jobFault (mismatch j s slot)
  match q.ledgerT with
  | none => bad
  | some t =>
    -- nothing of a packet that fails its parity is counted (06/T6-3)
    if !p.parOk then hw.jobFault { det := 0x02, status := stPARITY, job := some j, sq := some s, link := p.link }
    else if p.tag = (t + 1) % 4 then
      hw.modSq s fun q => { q with inbox := q.inbox ++ [({ pkt := p, slot := slot } : InEntry)] }
    else if p.tag ≠ t % 4 ∨ q.closed then bad
    else
      let lg := mget {} q.ledger slot
      if lgCheck lg.expect lg.closeSeen lg.src lg.received lg.carried p then
        let hw := hw.modSq s fun q =>
          let q := { q with
            ledger := mset q.ledger slot (lg.count p)
            inbox := q.inbox ++ [({ pkt := p, slot := slot, counted := true } : InEntry)], ejected := q.ejected + 1 }
          q.ledgerLook hw.tb.now
        hw.localClosure s
      else bad

/-- At the global closure of T the ledger clears and counts the held packets of T + 1 in arrival order (06/R224). The
packets are taken out of the inbox and entered again, so each goes through the same checks. -/
def Hw.ledgerStart (hw : Hw) (s j t : Nat) : Hw :=
  let q := hw.sqOf s
  let held := q.inbox.filter fun e => e.pkt.ty == 0
  let hw := hw.modSq s fun q =>
    let q := { q with
      ledger := q.ledger.map fun (p : Nat × LgSlot) => (p.1, { p.2 with received := 0, carried := 0, closeSeen := false })
      ledgerT := some t, reported := false, ejectedT := q.ejected, ejected := 0
      inbox := q.inbox.filter fun e => e.pkt.ty != 0 }
    q.ledgerLook hw.tb.now
  held.foldl (fun h e => if (h.jobOf j).restart.isSome then h else h.enterEvent s j e.pkt e.slot) hw

/-! ### The output ledger and result records (02/R79 to R84, 06/R493). -/

/-- An output event of Table 2-7. -/
def outEvent (o : OlSlot) (p : Packet) (i : Nat) : Nat :=
  p.evNeuron i + p.src * 2 ^ 14 + o.ssq * 2 ^ 19 + o.smod * 2 ^ 25 + o.group * 2 ^ 32 + p.evValue i * 2 ^ 48

/-- The order of output events: GROUP, MODULE, SQUARE, CORE, NEURON (02/R84). -/
def outKey (e : Nat) : Nat := fld e 45 32 * 2 ^ 29 + fld e 28 25 * 2 ^ 25 + fld e 24 19 * 2 ^ 19 + fld e 18 14 * 2 ^ 14 + fld e 13 0

def insertEvent (e : Nat) : List Nat → List Nat
  | [] => [e]
  | a :: r => if outKey e < outKey a then e :: a :: r else a :: insertEvent e r

/-- The header and events of a result record (02/T2-5); `h` lists lateness, busy, D_T, flags, DVFS, late inputs, SOP,
the last snapshot tempo, the tempo and the status. -/
def recordBytes (hw : Hw) (j : Nat) (h : List Nat) (evs : List Nat) : List Byte :=
  let g := fun i => h.getD i 0
  let job := hw.jobOf j
  let head := leBytes 2 0x5253 ++ leBytes 1 1 ++ leBytes 1 (g 3) ++ leBytes 4 job.jobId ++ leBytes 6 (g 8)
    ++ leBytes 1 hw.rt.moduleId ++ leBytes 1 (g 9) ++ leBytes 8 (g 2) ++ leBytes 4 (g 0) ++ leBytes 4 evs.length
    ++ leBytes 8 (g 6) ++ leBytes 2 (g 1) ++ leBytes 1 (g 4) ++ leBytes 1 0 ++ leBytes 2 (g 5) ++ leBytes 2 0
    ++ leBytes 6 (g 7) ++ leBytes 6 0
  let body := (evs.map (leBytes 8)).flatten
  head ++ leBytes 4 (crc32 (head ++ body)) ++ body

/-- Held undelivered records reach the limit of 02/R73: 64 of them, or 1 MiB. -/
def Hw.outFull (hw : Hw) : Bool :=
  decide (64 ≤ hw.results.length) || decide (0x100000 ≤ (hw.results.map fun r => r.bytes.length).sum)

/-- The output ledger has closed the record of its tempo: every expected pair of the job is satisfied. -/
def Hw.outSatisfied (hw : Hw) (j : Nat) : Bool :=
  hw.ol.all fun p => !(p.2.expect && p.2.jobId == (hw.jobOf j).jobId) || (p.2.closeSeen && p.2.received == p.2.carried)

/-- A record is built and queued once its output events are closed and its done is observed; records already delivered are
suppressed, and the first one after a restart carries FIRST (02/R79, R85, 09/R308). With OUT_EN it also goes to the
incident journal (12/R416). -/
def Hw.recordOut (hw : Hw) (j : Nat) : Hw :=
  let job := hw.jobOf j
  match job.pendHdr with
  | none => hw
  | some h =>
    if !job.outClosed then hw
    else
      let hw := hw.modJob j fun k => { k with pendHdr := none }
      let t := h.getD 8 0
      if job.outV && decide (t ≤ job.outT) then hw
      else
        let h' := h.set 3 (h.getD 3 0 ||| (if job.firstDue then 64 else 0) ||| (if job.afterRst then 2 else 0))
        let bytes := recordBytes hw j h' job.outEvents
        let hw := hw.modJob j fun k => { k with firstDue := false, afterRst := false }
        let hw := { hw with results := hw.results ++ [Record.mk (j % 4) t bytes job.run] }
        if hw.psc.outEn then { hw with psc := { hw.psc with outWait := hw.psc.outWait ++ [bytes] } } else hw

/-- The output ledger looks whether the record's events are closed (06/R493). -/
def Hw.outClose (hw : Hw) (j : Nat) : Hw :=
  let job := hw.jobOf j
  if job.outTempo.isSome && !job.outClosed && hw.outSatisfied j then
    ((hw.modJob j fun k => { k with outClosed := true }).recordOut j).treeUp j
  else hw

/-- The job whose record an output pair belongs to: one that still closes a record. A job slot that was taken again keeps the
record of its last job aside, under a number above 3 (02/R79). -/
def Hw.outJob (hw : Hw) (o : OlSlot) : Option Nat :=
  firstOf (hw.jobs.map (·.1)) fun j => (hw.jobOf j).jobId == o.jobId && (hw.jobOf j).outTempo.isSome

/-- The output ledger takes a packet (06/R225, R493, 02/R79): one tagged for the record of T + 1 is held uncounted; one that no
job's pair expects, or that fails Table 6-11 with T + 1 for T, goes to the counted sink of the router. -/
def Hw.outEnter (hw : Hw) (s : Nat) (p : Packet) : Hw :=
  let slot := p.pslot
  let o := mget {} hw.ol slot
  let bad := (hw.modRt s fun r => { r with sink := satAdd 0xFFFFFFFF r.sink 1 }).allJobsFault
    { det := 0x0D, status := stCLOSEMM, sq := some s, detail := slot }
  match hw.outJob o with
  | none => bad
  | some j =>
    let job := hw.jobOf j
    let t := job.outTempo.getD 0
    if p.tag = (t + 2) % 4 then hw.modJob j fun k => { k with outHeld := k.outHeld ++ [(s, p)] }
    else if p.tag = (t + 1) % 4 ∧ !job.outClosed ∧ lgCheck o.expect o.closeSeen o.src o.received o.carried p
        ∧ (p.last ∨ (1 ≤ p.count ∧ p.count ≤ 5)) then
      let o' := if p.last then { o with closeSeen := true, carried := p.y 15 0 }
                else { o with received := o.received + p.count }
      let evs := if p.last then [] else (List.range p.count).map (outEvent o p)
      let hw := { hw with ol := mset hw.ol slot o' }
      let hw := hw.modJob j fun k => { k with outEvents := evs.foldl (fun l e => insertEvent e l) k.outEvents }
      hw.outClose j
    else bad

/-- From the global closure of T on, the output ledger counts the events of the record of T, those that it held first
(06/R493). -/
def Hw.outStart (hw : Hw) (j t : Nat) : Hw :=
  let id := (hw.jobOf j).jobId
  let held := (hw.jobOf j).outHeld
  let hw := { hw with ol := hw.ol.map fun (p : Nat × OlSlot) =>
    if p.2.jobId == id then (p.1, { p.2 with received := 0, carried := 0, closeSeen := false }) else p }
  let hw := hw.modJob j fun k => { k with outTempo := some t, outClosed := false, outEvents := [], outHeld := [] }
  (held.foldl (fun (h : Hw) x => if (h.jobOf j).restart.isSome then h else h.outEnter x.1 x.2) hw).outClose j

/-- An EVENT packet leaves by an edge port toward the I/O hub (06/R225). Packets of input sources are discarded. No square
consumes one, so that a failed parity has no job of its own: every running job restarts (DESIGN CHOICE, log 192). -/
def Hw.outPacket (hw : Hw) (s : Nat) (p : Packet) : Hw :=
  if 18 ≤ p.src then hw
  else if !p.parOk then hw.allJobsFault { det := 0x02, status := stPARITY, sq := some s, link := p.link }
  else hw.outEnter s p

end Sys2Proof.Machine
end

