-- ==== Sys2Proof/Machine/Fabric.lean ====
section
/-! DEFINITION. The mesh: route sets, local delivery, multicast trees, the replicator, the counted sink, the proxy, one spine
cycle of the board, and injection (06/R200 to R228). -/

namespace Sys2Proof.Machine

/-- Port numbers N, E, S, W, EDGE (06 "Routing on the board"). -/
def pEDGE : Nat := 4

/-- The square behind a mesh port, if one lies there (00/R5). -/
def neighbour (s b : Nat) : Option Nat :=
  if b = 0 then (if s < 56 then some (s + 8) else none)
  else if b = 1 then (if s % 8 < 7 then some (s + 1) else none)
  else if b = 2 then (if 8 ≤ s then some (s - 8) else none)
  else if b = 3 then (if 0 < s % 8 then some (s - 1) else none)
  else none

/-- The input port at which a packet sent on mesh port b arrives. -/
def facing (b : Nat) : Nat := (b + 2) % 4

/-- The square's edge port leads to the I/O hub (01/T1-4). -/
def edgeHub (s : Nat) : Bool := decide (s < 8 ∨ 56 ≤ s)

def hasEdge (s : Nat) : Bool := edgeHub s || (edgeLink s).isSome

/-- A mesh port is usable when an unfenced router lies beyond it (06, R226). -/
def Hw.portUsable (hw : Hw) (s b : Nat) : Bool :=
  !(hw.rtOf s).fenced && (match neighbour s b with | some n => !(hw.rtOf n).fenced | none => false)

/-- The edge unit can accept a packet: the hub takes output events, a link transmitter any packet while its link is up and
its queue of 64 has room (06/R205, R234, R236). -/
def Hw.edgeAccepts (hw : Hw) (s : Nat) (p : Packet) : Bool :=
  if edgeHub s then p.ty == tyEVENT
  else match edgeLink s with
    | some n => (hw.linkOf n).up && decide ((hw.rtOf s).edgeOut.length < 64)
    | none => false

/-- SET of an entry, or ALT while the link port LINK names is down (06/R202). -/
def Hw.entrySet (hw : Hw) (e : Nat) : Nat :=
  let l := fld e 12 10
  if l < 6 ∧ !(hw.linkOf l).up then fld e 9 5 else fld e 4 0

/-- The route set of a packet at a router, as a port mask (06/R202, R226). -/
def Hw.routeSet (hw : Hw) (s : Nat) (p : Packet) : Nat :=
  if p.dmod = hw.rt.moduleId then
    if (hw.rtOf p.dsq).fenced then 0 else hw.entrySet (hw.sqEntry s p.epoch p.dsq)
  else hw.entrySet (hw.modEntry s p.epoch p.dmod)

/-- Bits [16:1] of an output's history that are set: OCC of 06/R201. -/
def Router.occOf (r : Router) (o : Nat) : Nat := popCount 17 (mget 0 r.occ o / 2 * 2)

/-- The output has carried no packet in the present cycle. -/
def Router.outFree (r : Router) (o : Nat) : Bool := !(mget 0 r.occ o).testBit 0

/-- The member of a list of ports with the least OCC, the first of N, E, S, W, EDGE among equals. -/
def Router.leastOcc (r : Router) (l : List Nat) : Option Nat :=
  l.foldl (fun b o => match b with
    | none => some o
    | some x => if r.occOf o < r.occOf x then some o else some x) none

/-- Free outputs of a router for a packet. -/
def Hw.freeOuts (hw : Hw) (s : Nat) (p : Packet) : List Nat :=
  let r := hw.rtOf s
  (([0, 1, 2, 3].filter fun b => hw.portUsable s b) ++ (if hasEdge s && hw.edgeAccepts s p then [pEDGE] else [])).filter r.outFree

/-- Add one to RTR_SINK (06/R220). -/
def Hw.sinkOne (hw : Hw) (s : Nat) : Hw := hw.modRt s fun r => { r with sink := satAdd 0xFFFFFFFF r.sink 1 }

/-- Send a packet on an output: into the neighbour's input latch, to the link's transmit queue, or to the hub. -/
def Hw.sendOut (hw : Hw) (s o : Nat) (p : Packet) : Hw :=
  let hw := hw.modRt s fun r => { r with occ := mupd 0 r.occ o fun h => h ||| 1 }
  if o = pEDGE then
    if edgeHub s then hw.outPacket s p
    else hw.modRt s fun r => { r with edgeOut := r.edgeOut ++ [p] }
  else match neighbour s o with
    | some n => hw.modRt n fun r => { r with latch := mset r.latch (facing o) p }
    | none => hw

/-- Requester of a READ or FENCE: RMOD, RSQ, RADDR, RTAG (06/T6-6). -/
def Packet.requester (p : Packet) : Nat × Nat × Nat × Nat := (p.y 19 16, p.y 25 20, p.y 47 26, p.y 55 48)

/-- Answer a READ or FENCE with a status. -/
def Hw.respStatus (hw : Hw) (s : Nat) (p : Packet) (st : Nat) : Hw :=
  let r := p.requester
  hw.injectAt s [mkRespStatus hw r.1 r.2.1 r.2.2.1 r.2.2.2 st]

/-- An unroutable packet (06/R203, R226). -/
def Hw.unroutable (hw : Hw) (s : Nat) (p : Packet) : Hw :=
  if p.ty = tyREAD ∨ p.ty = tyFENCE then hw.respStatus s p stABSENT
  else if p.ty = tyQUEUE then hw.queueBack s p stABSENT
  else hw.sinkOne s

/-! ### The counters of WRITE packets (06/R199, R227). -/

def Hw.modWid (hw : Hw) (s w : Nat) (f : WidState → WidState) : Hw :=
  hw.modSq s fun q => { q with wid := mupd {} q.wid w f }

/-- Note what became of a counted write for the next FENCE of its WID (06/R199). -/
def WidState.note (w : WidState) (st : Nat) : WidState :=
  if st = stOK then w
  else if st = stPARITY then { w with parity := true }
  else if st = stECC then { w with ecc := true }
  else if st = stBUSY then { w with busy := true }
  else if w.other = 0 then { w with other := st } else w

/-- The status of a FENCE (06/R199). -/
def WidState.status (w : WidState) : Nat :=
  if w.refused then stBUSY
  else if w.parity then stPARITY
  else if w.ecc then stECC
  else if w.busy then stBUSY
  else if w.absorbed then stABSENT
  else w.other

/-- Clear what a FENCE has reported, and subtract its COUNT. -/
def WidState.fenced (w : WidState) (n : Nat) : WidState :=
  { count := w.count - n }

/-- The router answers for its square as its proxy (06/R227). -/
def Hw.proxied (hw : Hw) (s : Nat) : Bool := (hw.rtOf s).state == .absent || (hw.rtOf s).state == .sink

/-- A FENCE is answered: with the status of its WID, or of the row load it ends (06/R199, 07/R266, 04/R160). The proxy answers
ABSENT when it has absorbed a WRITE of the WID (06/R227). -/
def Hw.fenceAnswer (hw : Hw) (s : Nat) (p : Packet) : Hw :=
  let w := mget {} (hw.sqOf s).wid p.wid
  let n := p.y 15 0
  let st := if hw.proxied s && w.absorbed then stABSENT else w.status
  let r := match mfind (hw.sqOf s).rowLoads p.wid with
    | some rl =>
      let hw := hw.modSq s fun q => { q with rowLoads := mdel q.rowLoads p.wid }
      if st = stOK then hw.rowLoadCheck s rl else (hw, st)
    | none => (hw, st)
  (r.1.respStatus s p r.2).modWid s p.wid fun w => w.fenced n

/-- Held FENCE packets whose count has been reached are answered (06/R199). -/
def Hw.fenceRelease (hw : Hw) (s : Nat) : Hw :=
  let fs := (hw.sqOf s).fences
  let hw := hw.modSq s fun q => { q with fences := [] }
  fs.foldl (fun h p =>
    if p.y 15 0 ≤ (mget {} (h.sqOf s).wid p.wid).count then h.fenceAnswer s p
    else h.modSq s fun q => { q with fences := q.fences ++ [p] }) hw

/-- A FENCE is held until its WID's count reaches COUNT (06/R199). -/
def Hw.fenceEnter (hw : Hw) (s : Nat) (p : Packet) : Hw :=
  (hw.modSq s fun q => { q with fences := q.fences ++ [p] }).fenceRelease s

/-- A WRITE counts under its WID, with what became of it (06/R199). -/
def Hw.widCount (hw : Hw) (s : Nat) (p : Packet) (f : WidState → WidState) : Hw :=
  hw.modWid s p.wid fun w => f { w with count := (w.count + 1) % 65536 }

/-- A WRITE that the router absorbs counts under its WID (06/R227). -/
def Hw.absorbWrite (hw : Hw) (s : Nat) (p : Packet) : Hw :=
  if p.ty = tyWRITE then hw.widCount s p fun w => { w with absorbed := true } else hw

/-- The proxy answers for its square in ABSENT or SINK (06/R227), with the parity check of a consumer (06/R194); the ABSENT of a
QUEUE comes before that check (07/T7-2). 06/R227 names neither RESP nor QSTAT, which the square does not await in these states:
one goes to the counted sink (DESIGN CHOICE, log 186), and a parity failure of it is recorded. -/
def Hw.proxy (hw : Hw) (s : Nat) (p : Packet) : Hw :=
  let off := p.addr * 16
  if p.ty = tyEVENT then
    (hw.sinkOne s).faultRecord { det := 0x17, sq := some s }
  else if p.ty = tyREAD then
    if !p.parOk then (hw.packetFault s p).respStatus s p stPARITY
    else if routerOwn off || sqCopy off then
      let r := p.requester
      hw.injectAt s [mkRespData hw r.1 r.2.1 r.2.2.1 (hw.sqUnitRead s off).1]
    else hw.respStatus s p stABSENT
  else if p.ty = tyQUEUE then hw.queueAbsent s p
  else if p.ty = tyWRITE then
    if !p.parOk then ((hw.packetFault s p).widCount s p (·.note stPARITY)).fenceRelease s
    else if routerOwn off then
      let r := hw.sqMarkedWrite s off (leBytes 16 p.pay.toNat) p.mark
      (r.1.widCount s p (·.note r.2)).fenceRelease s
    else ((hw.sinkOne s).absorbWrite s p).fenceRelease s
  else if p.ty = tyFENCE then
    if !p.parOk then (hw.packetFault s p).respStatus s p stPARITY else hw.fenceEnter s p
  else (if p.parOk then hw else hw.packetFault s p).sinkOne s

/-- What a local port did with a packet: taken, or refused with the packet to deflect. -/
structure LocalRes where
  hw    : Hw
  taken : Bool
  pkt   : Packet

/-- The packet enters the inbox of a square in a running job as an EVENT of a pair slot, or is absorbed at a square outside
any job (06/R217, R220). -/
def Hw.offerEvent (hw : Hw) (s : Nat) (p : Packet) (slot : Nat) (refused : Packet) : LocalRes :=
  match hw.jobOfSq s with
  | none => ⟨(hw.sinkOne s).faultRecord { det := 0x17, sq := some s }, true, p⟩
  | some j =>
    if (hw.jobOf j).restart.any (fun r => r.step == 1) then ⟨hw.sinkOne s, true, p⟩
    else if (hw.rtOf s).inTaken || decide (512 ≤ (hw.sqOf s).inbox.length) then ⟨hw, false, refused⟩
    else ⟨(hw.enterEvent s j p slot).modRt s fun r => { r with inTaken := true }, true, p⟩

/-- A fault at a tree node: CLOSE_MISMATCH in every running job (06/R208, R212). -/
def Hw.treeFault (hw : Hw) (s slot : Nat) : Hw :=
  (hw.sinkOne s).allJobsFault { det := 0x0D, status := stCLOSEMM, sq := some s, detail := slot }

/-- A packet at the router it is addressed to (06/R205, R208, R209, R217, R227, 07/R262). -/
def Hw.localTake (hw : Hw) (s : Nat) (p : Packet) : LocalRes :=
  let r := hw.rtOf s
  if p.ty = tyRESP ∧ edgeHub s ∧ 0x3F0000 ≤ p.addr ∧ p.dmod = hw.rt.moduleId then
    if r.outFree pEDGE then
      ⟨hw.modRt s fun r => { r with occ := mupd 0 r.occ pEDGE fun h => h ||| 1, edgeOut := r.edgeOut ++ [p] }, true, p⟩
    else ⟨hw, false, p⟩
  else if r.state = .absent ∨ r.state = .sink then ⟨hw.proxy s p, true, p⟩
  else if p.mc then
    let e := hw.mcEntry s p.epoch p.group
    let branch := fld e 4 0
    let loc := e.testBit 5
    let slot := fld e 18 7 + p.ord
    if !e.testBit 6 || decide (fld e 26 19 < p.ord) || (branch == 0 && !loc) then ⟨hw.treeFault s 0, true, p⟩
    else
      let beyond := loc && decide (4095 < slot)
      if branch = 0 then
        if beyond then ⟨hw.treeFault s slot, true, p⟩ else hw.offerEvent s p slot (p.toUnicast slot)
      else if r.rpTaken || decide (32 ≤ r.repl.length) then ⟨hw, false, p⟩
      else
        let hw := if beyond then hw.treeFault s slot else hw
        ⟨hw.modRt s fun r => { r with
          rpTaken := true, repl := r.repl ++ [{ pkt := p, owe := ofMask 5 branch, localOwed := loc && !beyond }] }, true, p⟩
  else if p.ty = tyEVENT then hw.offerEvent s p p.pslot p
  else
    let q := hw.sqOf s
    let full := decide (512 ≤ q.inbox.length) || r.inTaken
      || (p.ty == tyFENCE && decide (16 ≤ q.fences.length + (q.inbox.filter fun e => e.pkt.ty == tyFENCE).length))
    if full then ⟨hw, false, p⟩
    else
      let hw := hw.modSq s fun q => { q with inbox := q.inbox ++ [{ pkt := p }] }
      ⟨hw.modRt s fun r => { r with inTaken := true }, true, p⟩

/-- A router finds the header of a packet bad: it goes to the counted sink (06/R194, R196, T6-3). -/
def Hw.headerFault (hw : Hw) (s : Nat) : Hw := (hw.sinkOne s).allJobsFault { det := 0x01, status := stPARITY, sq := some s }

/-- The free mesh outputs of a router. -/
def Hw.meshFree (hw : Hw) (s : Nat) : List Nat := [0, 1, 2, 3].filter fun b => hw.portUsable s b && (hw.rtOf s).outFree b

/-- Deflect a packet: the free mesh output with the least OCC, AGE raised (06/R201). -/
def Hw.deflect (hw : Hw) (s : Nat) (p : Packet) : Hw :=
  match (hw.rtOf s).leastOcc (hw.meshFree s) with
  | some o => hw.sendOut s o p.older
  | none => hw

/-- Place one packet that arrived on a mesh port (06/R201, R194). -/
def Hw.placeMesh (hw : Hw) (s : Nat) (p : Packet) : Hw :=
  if !p.hdrOk then hw.headerFault s
  else if p.dmod = hw.rt.moduleId ∧ p.dsq = s then
    let r := hw.localTake s p
    if r.taken then r.hw else r.hw.deflect s r.pkt
  else
    let set := hw.routeSet s p
    if set = 0 then hw.unroutable s p
    else
      let want := (hw.freeOuts s p).filter fun o => set.testBit o
      match (hw.rtOf s).leastOcc want with
      | some o => hw.sendOut s o p
      | none => hw.deflect s p

/-- Insert a packet in the order of AGE, highest first, ties by the rank of its input port (06/R201). -/
def insertAge (x : Nat × Packet) : List (Nat × Packet) → List (Nat × Packet)
  | [] => [x]
  | a :: r => if a.2.age < x.2.age ∨ (a.2.age = x.2.age ∧ x.1 < a.1) then x :: a :: r else a :: insertAge x r

/-- The copies of one replicator packet in a cycle: each port it still owes (06/R210, R212). -/
def Hw.replPort (hw : Hw) (s : Nat) (x : Repl) (b : Nat) : Hw × Bool :=
  let p := x.pkt
  if b = pEDGE then
    if !hasEdge s then (hw.treeFault s 0, true)
    else if edgeHub s then
      let e := hw.mcEntry s p.epoch p.group
      let slot := fld e 18 7 + p.ord
      if 4095 < slot then (hw.treeFault s slot, true)
      else if (hw.rtOf s).outFree pEDGE then (hw.sendOut s pEDGE (p.toUnicast slot), true) else (hw, false)
    else if (hw.rtOf s).outFree pEDGE && hw.edgeAccepts s p then (hw.sendOut s pEDGE p, true)
    else (hw, false)
  else match neighbour s b with
    | none => (hw.treeFault s 0, true)
    | some n =>
      if !(hw.portUsable s b) then (hw.treeFault s 0, true)
      else
        let c := p.retarget hw.rt.moduleId n
        if (hw.rtOf s).outFree b then (hw.sendOut s b c, true)
        else match (hw.rtOf s).leastOcc (hw.meshFree s) with
          | some o => (hw.sendOut s o c.older, true)
          | none => (hw, false)

/-- The local delivery of a replicator packet, offered when no mesh packet has taken the inbox (06/R211). Refused twice, it is
put in unicast form and deflected into a mesh output, for which it waits (06/R209). -/
def Hw.replLocal (hw : Hw) (s : Nat) (x : Repl) : Hw × Repl :=
  if !x.localOwed then (hw, x)
  else
    let e := hw.mcEntry s x.pkt.epoch x.pkt.group
    let slot := fld e 18 7 + x.pkt.ord
    let leave : Hw → Hw × Repl := fun h =>
      if (h.meshFree s).isEmpty then (h, { x with refused := 2 })
      else (h.deflect s (x.pkt.toUnicast slot), { x with localOwed := false })
    if x.refused = 2 then leave hw
    else if (hw.rtOf s).inTaken then (hw, x)
    else
      let r := hw.offerEvent s x.pkt slot x.pkt
      if r.taken then (r.hw, { x with localOwed := false })
      else if x.refused = 0 then (r.hw, { x with refused := 1 })
      else leave r.hw

/-- The replicator's turn of a cycle. -/
def Hw.replCycle (hw : Hw) (s : Nat) : Hw :=
  let old := (hw.rtOf s).repl
  let hw := hw.modRt s fun r => { r with repl := [] }
  old.foldl (fun h x =>
    let a := x.owe.foldl (fun (a : Hw × List Nat) b =>
      let r := a.1.replPort s x b
      (r.1, if r.2 then a.2 else a.2 ++ [b])) (h, [])
    let l := a.1.replLocal s { x with owe := a.2 }
    if l.2.owe = [] ∧ !l.2.localOwed then l.1
    else l.1.modRt s fun r => { r with repl := r.repl ++ [l.2] }) hw

/-- One router in one spine cycle, on the packets its latches held (06/R201). A fenced router does nothing. -/
def Hw.routeOne (hw : Hw) (s : Nat) (arrived : List (Nat × Packet)) : Hw :=
  if (hw.rtOf s).fenced then hw
  else
    let tie := hw.rt.tie
    let ordered := arrived.foldl (fun l x => insertAge ((x.1 + 4 - tie) % 4, x.2) l) []
    let hw := ordered.foldl (fun h x => h.placeMesh s x.2) hw
    hw.replCycle s

/-- Begin a cycle at a router: histories step, the latches empty. -/
def Router.beginCycle (r : Router) : Router :=
  { r with
    occ := r.occ.map fun (p : Nat × Nat) => (p.1, p.2 * 2 % 2 ^ 17), latch := [],
    inTaken := false, rpTaken := false }

/-- The inbox watchdog: a packet may be taken now (06/R218). -/
def Square.takeable (q : Square) (e : InEntry) : Bool := e.pkt.ty != tyEVENT || (e.counted && !q.inUpdate)

def Square.anyTakeable (q : Square) : Bool := q.inbox.any q.takeable

/-- The inbox watchdog counts a spine cycle while the inbox holds a takeable packet, outside the update phase and while the
square's domain is ON (06/R218). -/
def Hw.wdogTick (hw : Hw) (s : Nat) : Hw :=
  let q := hw.sqOf s
  if hw.isOn s && !q.inUpdate && q.anyTakeable then hw.modSq s fun q => { q with wdogCount := q.wdogCount + 1 } else hw

/-- One spine cycle of the whole board: every router places what arrived, then its replicator's copies (06/R200, R201). The spec
does not say at which port the order of ties starts: the first cycle after reset starts at E (log 176). -/
def Hw.routeCycle (hw : Hw) : Hw :=
  let all := List.range 64
  let arrived := all.map fun s => (hw.rtOf s).latch
  let hw := { hw with sq := hw.sq.map fun (p : Nat × Square) => (p.1, { p.2 with rt := p.2.rt.beginCycle }) }
  let hw := { hw with rt := { hw.rt with tie := (hw.rt.tie + 1) % 4 } }
  let hw := forAll all (fun s h => h.routeOne s (arrived.getD s [])) hw
  forAll all (fun s h => h.wdogTick s) hw

/-- Try to inject the head of a queue into a free output of its route set, or into its own router (06/R204, R207). -/
def Hw.injectOne (hw : Hw) (s : Nat) (p : Packet) : Hw × Bool :=
  if (hw.rtOf s).fenced then (hw, false)
  else if !p.hdrOk then (hw.headerFault s, true)
  else if p.dmod = hw.rt.moduleId ∧ p.dsq = s then
    let r := hw.localTake s p
    (r.hw, r.taken)
  else
    let set := hw.routeSet s p
    if set = 0 then (hw.unroutable s p, true)
    else match (hw.rtOf s).leastOcc ((hw.freeOuts s p).filter fun o => set.testBit o) with
      | some o => (hw.sendOut s o p, true)
      | none => (hw, false)

/-- A packet as its source injects it: AGE 0, and the version in force (06/R204, R213). -/
def Hw.fromSource (hw : Hw) (p : Packet) : Packet :=
  { p.withHdr (mkHdr p.ty hw.cur (b2n p.mc) (b2n p.last) p.dmod p.dsq p.addr p.tag p.src) with age := 0 }

/-- The edge unit of a square injects its next packet; a link receiver checks the header of a multicast packet, rewrites it for
the attachment square, keeps AGE, and returns a credit (06/R193, R229, R234). -/
def Hw.injectEdge (hw : Hw) (s : Nat) : Hw :=
  match (hw.rtOf s).edgeIn with
  | [] => hw
  | p :: rest =>
    let p' := match edgeLink s with
      | some _ => if p.mc && p.hdrOk then p.retarget hw.rt.moduleId s else p
      | none => hw.fromSource p
    let r := hw.injectOne s p'
    if r.2 then
      let hw := r.1.modRt s fun r => { r with edgeIn := rest }
      match edgeLink s with
      | some n => hw.modLink n fun l => { l with creditOwed := l.creditOwed + 1 }
      | none => hw
    else hw

/-- The square's injection queue injects its next packet; the packers refill it (06/R204). -/
def Hw.injectSquare (hw : Hw) (s : Nat) : Hw :=
  match (hw.rtOf s).inject with
  | [] => hw
  | p :: _ =>
    let r := hw.injectOne s (hw.fromSource p)
    if r.2 then
      r.1.modRt s fun r =>
        let all := r.inject.drop 1 ++ r.packer
        { r with inject := all.take 32, packer := all.drop 32 }
    else hw

/-- One injection turn at a square: the edge input first, then the square's queue (06/R201, R204). -/
def Hw.packetInject (hw : Hw) (s : Nat) : Hw := (hw.injectEdge s).injectSquare s

/-! ### Epochs (06/R213 to R216). -/

/-- Whether the router of square s, with its edge unit, holds a packet of a version: one that a source has not injected yet has
none (06/R213, R214). -/
def Router.holdsEpoch (r : Router) (s e : Nat) : Bool :=
  r.latch.any (fun p => p.2.epoch == e) || r.repl.any (fun x => x.pkt.epoch == e)
    || ((edgeLink s).isSome && r.edgeIn.any fun p => p.epoch == e) || r.edgeOut.any (fun p => p.epoch == e)

/-- Whether the module holds a packet of a version, an access that waits at its router or bank among them. -/
def Hw.holdsEpoch (hw : Hw) (e : Nat) : Bool :=
  hw.heldAcc.any (fun h => h.pkt.any fun p => p.epoch == e)
    || (List.range 64).any fun s =>
      (hw.rtOf s).holdsEpoch s e || (hw.sqOf s).inbox.any (fun x => x.pkt.epoch == e)
        || (hw.sqOf s).fences.any (fun p => p.epoch == e)

/-- At a tempo boundary of job j, a waiting flip for it takes effect (06/R215). One whose tempo has passed, or whose job ends
before it, waits on for a job of slot j that closes that tempo (DESIGN CHOICE, log 191). -/
def Hw.flipAtClosure (hw : Hw) (j t : Nat) : Hw :=
  if hw.rt.wait ∧ fld hw.rt.flipAt 49 48 = j ∧ fld hw.rt.flipAt 47 0 = t then hw.flipNow else hw

/-- OLD_EPOCH_DRAINED (06/R214). -/
def Hw.oldDrained (hw : Hw) : Hw :=
  if hw.rt.oldBusy && !(hw.holdsEpoch (1 - hw.rt.cur)) then { hw with rt := { hw.rt with oldBusy := false } } else hw

end Sys2Proof.Machine
end

