-- ==== Sys2Proof/Machine/Dma.lean ====
section
/-! DEFINITION. The DMA engine: descriptors, their checks, the funnel, READ and WRITE packets, barriers, row loads, completion
and chains (07/R256 to R267). -/

namespace Sys2Proof.Machine

/-- Where one side of a transfer lies (07/R258): a square window with its region bounds, PSRAM, or a register block. -/
inductive Side where
  | win (mod sq off : Nat)
  | psram
  | greg
  | none
  deriving DecidableEq, Repr

/-- Bounds of the region of Table 1-8 that a window offset lies in. -/
def winRegionOf (off : Nat) : Option (Nat × Nat) :=
  let chunk : Nat → Nat → Option (Nat × Nat) := fun b n => some (b + (off - b) / n * n, b + (off - b) / n * n + n)
  match regionOf off with
  | .syn => some (0, 0x1000000)
  | .mir => some (0x1000000, 0x2000000)
  | .core _ => chunk 0x2000000 0x80000
  | .mem => some (0x3000000, 0x3200000)
  | .setA => some (0x3200000, 0x3400000)
  | .clrA => some (0x3400000, 0x3600000)
  | .reg =>
    if off < 0x3810000 then some (0x3800000, 0x3810000)
    else if off < 0x3820000 then chunk 0x3810000 0x1000
    else if off < 0x3870000 then chunk 0x3820000 0x10000
    else if off < 0x3872000 then chunk 0x3870000 0x1000
    else chunk 0x3C00000 0x10000
  | .none => none

/-- The side that a fabric address names (01/T1-7), with the bounds of its region as local addresses. -/
def sideOf (a : Nat) : Side × Nat × Nat :=
  let loc := a % 2 ^ 40
  if loc < 0x100000000 then
    match winRegionOf (loc % 0x4000000) with
    | some (lo, hi) =>
      let base := loc / 0x4000000 * 0x4000000
      (.win (a / 2 ^ 40) (loc / 0x4000000) (loc % 0x4000000), base + lo, base + hi)
    | none => (.none, 0, 0)
  else if loc < 0x180000000 then (.psram, 0x100000000, 0x180000000)
  else if 0x200000000 ≤ loc ∧ loc < 0x200100000 then (.greg, loc / 0x10000 * 0x10000, loc / 0x10000 * 0x10000 + 0x10000)
  else (.none, 0, 0)

/-- The row-load header of a square window is met by WRITE packets only (07/R265, R266). -/
def rowHeaderOff (off : Nat) : Bool := decide (0x384F000 ≤ off ∧ off < 0x384F020)

/-- A register side (07/R258): a global block, a register range of a window, or the module side of a Kezil access with
WIDTH = 1 (10/R364). -/
def isRegSide (a : Nat) (forced : Bool) : Bool :=
  forced || match (sideOf a).1 with
  | .greg => true
  | .win _ _ off => regionOf off == .reg && !(rowHeaderOff off)
  | .psram | .none => false

/-- A side of the module numbered `own` that is accessed 4 bytes at a time (07/R261), `fix` a FIXED one. Packets move whole granules
of the other regions of a window, and of an incrementing range of registers of another module, where each register of the granule
is one 4-byte access; so are the READ packets that read a window's registers (07/R262, `Hw.sqPairRead`). -/
def fourBytes (own a : Nat) (fix forced : Bool) : Bool :=
  match (sideOf a).1 with
  | .greg => true
  | .psram => forced
  | .win m _ off =>
    match regionOf off with
    | .reg => (m == own || fix) && !(rowHeaderOff off)
    | .mem => forced
    | .syn | .mir | .core _ | .setA | .clrA | .none => false
  | .none => false

/-- Where the incident journal begins (12/R414). -/
def Hw.journalBase (hw : Hw) : Nat := 0x17F000000 - hw.psc.size * 0x1000000

/-- The checks of 07/R258 and 12/R415 on one side. -/
def Hw.sideOk (hw : Hw) (a n : Nat) (fix : Bool) (w : Nat) (write forced : Bool) : Bool :=
  let loc := a % 2 ^ 40
  let m := a / 2 ^ 40
  let width := 2 ^ w
  let span := if fix then width else n
  let reg := isRegSide a forced
  let x := sideOf a
  (match x.1 with | .none => false | _ => true)
  && decide (x.2.1 ≤ loc ∧ loc + span ≤ x.2.2)
  && (!fix || (loc % width == 0 && n % width == 0))
  && (!reg || (loc % 4 == 0 && n % 4 == 0 && (!fix || decide (4 ≤ width))))
  && (match x.1 with
      | .win _ _ off => regionOf off == .mem || (loc % 16 == 0 && n % 16 == 0)
      | .psram => m == hw.rt.moduleId && (!write || decide (loc + span ≤ hw.journalBase))
      | .greg => m == hw.rt.moduleId
      | .none => false)

/-- A descriptor lies 64-byte aligned in local square memory or PSRAM (07/R257). -/
def descAddrOk (a : Nat) : Bool :=
  a % 64 == 0 && (match (sideOf a).1 with
    | .psram => true
    | .win _ _ off => regionOf off == .mem
    | _ => false)

/-- The fields of a descriptor (07/T7-17). -/
def parseDesc (addr : Nat) (b : List Byte) : DmaDesc :=
  let w := fun i => leAt b (8 * i) 8
  { addr := addr
    src := fld (w 0) 43 0, sfix := (w 0).testBit 44, sw := fld (w 0) 47 45
    dst := fld (w 1) 43 0, dfix := (w 1).testBit 44, dw := fld (w 1) 47 45
    len := fld (w 2) 31 0, barrier := (w 2).testBit 32 || (w 2).testBit 34, irq := (w 2).testBit 33
    rowload := (w 2).testBit 34, nextV := (w 2).testBit 35, next := fld (w 3) 39 0
    dirEnt := w 4, dirIdx := fld (w 5) 20 0, dirV := (w 5).testBit 21 }

/-- The reserved fields of a descriptor are zero and its width codes exist (07/R258). -/
def reservedOk (b : List Byte) : Bool :=
  let w := fun i => leAt b (8 * i) 8
  fld (w 0) 63 48 == 0 && fld (w 1) 63 48 == 0 && fld (w 2) 63 36 == 0 && fld (w 3) 63 40 == 0 && fld (w 5) 63 22 == 0
    && w 6 == 0 && decide (fld (w 0) 47 45 ≤ 4) && decide (fld (w 1) 47 45 ≤ 4)

/-- The source and destination ranges overlap. -/
def rangesOverlap (a n b m : Nat) : Bool := decide (a < b + m ∧ b < a + n)

/-- The checks of 07/R258 and R265 on a whole descriptor. R258 names only the place of NEXT: one that is not 64-byte aligned is refused
with BAD_PARAM as well (DESIGN CHOICE, log 205). -/
def Hw.descOk (hw : Hw) (d : DmaDesc) (forced : Bool) : Bool :=
  hw.sideOk d.src d.len d.sfix d.sw false forced
  && hw.sideOk d.dst d.len d.dfix d.dw true forced
  && !(rangesOverlap d.src (if d.sfix then 2 ^ d.sw else d.len) d.dst (if d.dfix then 2 ^ d.dw else d.len))
  && (!d.nextV || descAddrOk d.next)
  && (!d.rowload || (!d.dfix && !d.sfix && (match (sideOf d.dst).1 with | .win _ _ off => regionOf off == .syn | _ => false)))

/-- The next piece of a side at stream position `pos`: its address and length (07/R259 to R261). An access of a fixed register
side wider than 4 bytes is made of 4-byte ones. -/
def pieceAt (a : Nat) (fix : Bool) (w : Nat) (four : Bool) (len pos : Nat) : Nat × Nat :=
  if fix then (if four then (a + pos % 2 ^ w, 4) else (a, 2 ^ w))
  else if four then (a + pos, 4)
  else (a + pos, Nat.min (16 - (a + pos) % 16) (len - pos))

/-- Whether a PSRAM access can be made now: its channel is free and its pair ON; a failed channel or a pair in OFF answers
ABSENT (12/R411, R412, 01/R36). -/
inductive PscGate where
  | serve | wait | absent
  deriving DecidableEq, Repr

/-- The channel of a PSRAM address (12/R408). -/
def pscChan (loc : Nat) : Nat := fld (loc - 0x100000000) 13 10

def Hw.pscGate (hw : Hw) (loc : Nat) : PscGate :=
  let k := pscChan loc
  let c := hw.chanOf k
  let d := hw.domOf (domPsc (k / 2))
  if c.state = 3 then .absent
  else if d.state = .off ∧ d.moving = none then .absent
  else if !(hw.isOn (domPsc (k / 2))) then .wait
  else if c.state = 1 ∨ c.state = 2 then .wait
  else .serve

/-- An attachment square of the hub whose router is not fenced, for the engine's packets (07/R262). -/
def Hw.hubPort (hw : Hw) : Nat :=
  ((List.range 64).find? fun s => edgeHub s && !(hw.rtOf s).fenced).getD hubSquare

/-- Put a packet of the engine into the hub's queue. The spec gives that queue no size: `edgeIn` holds it and, behind it, what the
hub's sources keep back while it is full, and nothing that the model shows depends on where one ends (06/R204, log 170). -/
def Hw.dmaSend (hw : Hw) (p : Packet) : Hw := hw.modRt hw.hubPort fun r => { r with edgeIn := r.edgeIn ++ [p] }

/-- The descriptor in progress ends with a status; nothing more of it is requested or written (07/R262, R264). -/
def Hw.dmaFail (hw : Hw) (c st : Nat) : Hw :=
  hw.modDma c fun k => { k with
    reads := []
    d := k.d.map fun d => { d with status := if d.status = 0 then st else d.status, asked := d.len, fencing := [], fenced := true } }

/-- The first tag from the channel's next one on that no request of it holds (07/R262). -/
def Dma.freeTag (k : Dma) : Nat :=
  let used : Nat → Bool := fun t =>
    (k.reads.any fun r => r.tag == t && r.data == none) || (k.d.any fun d => d.fencing.any fun f => f.1 == t)
  (((List.range 256).map fun i => (k.nextTag + i) % 256).find? fun t => !used t).getD k.nextTag

/-- Ask for the next piece of the source (07/R259, R262). The Bool says whether it went on. -/
def Hw.dmaAsk (hw : Hw) (c : Nat) : Hw × Bool :=
  let k := hw.dmaOf c
  match k.d with
  | none => (hw, false)
  | some d =>
    if d.len ≤ d.asked ∨ d.status ≠ 0 ∨ k.kmode = 2 then (hw, false)
    else
      let four := fourBytes hw.rt.moduleId d.src d.sfix (k.kmode == 1 && d.sw == 2 && !d.sfix)
      let pc := pieceAt d.src d.sfix d.sw four d.len d.asked
      let a := pc.1
      let n := pc.2
      let loc := a % 2 ^ 40
      let got : Hw → List Byte → Hw × Bool := fun h bs =>
        (h.modDma c fun k => { k with
          reads := k.reads ++ [(DmaRead.mk 256 a 0 n (some bs) 0)], d := some { d with asked := d.asked + n } }, true)
      match (sideOf a).1 with
      | .psram =>
        match hw.pscGate loc with
        | .serve => got (hw.touchDom (domPsc (pscChan loc / 2))) (hw.rd loc n)
        | .wait => (hw.wakeDom (domPsc (pscChan loc / 2)), false)
        | .absent => (hw.dmaFail c stABSENT, false)
      | .greg =>
        match hw.regGate loc false with
        | .hold d _ => (hw.wakeDom d, false)
        | .absent => (hw.dmaFail c stABSENT, false)
        | .serve =>
        let r := hw.busRead4 (.dma (Fin.ofNat 16 c)) loc
        if r.2.2 = stOK then got r.1 (leBytes n r.2.1) else (r.1.dmaFail c r.2.2, false)
      | .win m s off =>
        if 64 ≤ (k.reads.filter fun r => r.data == none).length then (hw, false)
        else
          let tag := k.freeTag
          let hp := hw.hubPort
          let p := mkRead hw m s (off / 16) hw.rt.moduleId hp (0x3F0000 + 256 * c + tag) tag
          (((hw.dmaSend p).modDma c fun k => { k with
            nextTag := (tag + 1) % 256
            reads := k.reads ++ [(DmaRead.mk tag a (off % 16) n none hw.elapsed)]
            d := some { d with asked := d.asked + n } }), true)
      | .none => (hw.dmaFail c stBADPARAM, false)

/-- Move the answered reads at the head of the queue into the funnel, in order (07/R259). -/
def drainReads : List DmaRead → List Byte × List DmaRead
  | [] => ([], [])
  | r :: rest =>
    match r.data with
    | some b => let x := drainReads rest; (b ++ x.1, x.2)
    | none => ([], r :: rest)

def Hw.dmaTake (hw : Hw) (c : Nat) : Hw :=
  hw.modDma c fun k => match k.d with
    | none => k
    | some d =>
      let x := drainReads k.reads
      { k with reads := x.2, d := some { d with funnel := d.funnel ++ x.1, taken := d.taken + x.1.length } }

/-- Send one WRITE packet of the channel and count it for its square (07/R263). -/
def Hw.dmaWrite (hw : Hw) (c m s off : Nat) (b : List Byte) (mark : PacketMark := .plain) : Hw :=
  let wid := hw.rt.moduleId * 16 + c
  (hw.dmaSend { mkWrite hw m s (off / 16) wid b with mark := mark }).modDma c fun k =>
    { k with writes := mupd 0 k.writes (64 * m + s) (· + 1) }

/-- The granule that holds bytes in their lanes, and `fill` elsewhere. -/
def inLanes (lo : Nat) (b : List Byte) (fill : List Byte := List.replicate 16 0) : List Byte :=
  fill.take lo ++ b ++ (fill.drop (lo + b.length)).take (16 - lo - b.length)

/-- A narrow write: the bit-set and bit-clear packets of 07/R261. -/
def Hw.dmaNarrow (hw : Hw) (c m s off : Nat) (b : List Byte) : Hw :=
  let lo := off % 16
  let g := (off - 0x3000000) % 0x200000 / 16 * 16
  (hw.dmaWrite c m s (0x3200000 + g) (inLanes lo b)).dmaWrite c m s (0x3400000 + g) (inLanes lo (b.map fun x => ~~~ x))

/-- A piece of a window goes out by packets: a whole granule, the two packets of a narrow write to square memory, one marked packet for
a 4-byte access to a register of another module, or for a fixed side narrower than a granule elsewhere one packet with the bytes in
their lanes. In an alias the others are zero, which changes nothing (12/R398); elsewhere 07/R261 names no narrow write, and what
the packet carries in them is a free value (log 16). -/
def Hw.dmaPiece (hw : Hw) (c m s off : Nat) (b : List Byte) : Hw :=
  if b.length = 16 ∧ off % 16 = 0 then hw.dmaWrite c m s off b
  else if regionOf off = .mem then hw.dmaNarrow c m s off b
  else if regionOf off = .setA ∨ regionOf off = .clrA then hw.dmaWrite c m s (off / 16 * 16) (inLanes (off % 16) b)
  else
    let h := { hw with fresh := hw.fresh + 1 }
    h.dmaWrite c m s (off / 16 * 16) (inLanes (off % 16) b (leBytes 16 (Config.freeValue hw.fresh)))
      (if regionOf off = .reg then .lane (Fin.ofNat 4 (off / 4)) else .plain)

/-- Write the next piece of the destination if the funnel holds it (07/R259 to R261). The Bool says whether it went on. A register write
of the own module that is ignored (BUSY, BAD_PARAM) ends the descriptor with that status and stops its further writes: DESIGN CHOICE,
log 206. -/
def Hw.dmaPut (hw : Hw) (c : Nat) : Hw × Bool :=
  let k := hw.dmaOf c
  match k.d with
  | none => (hw, false)
  | some d =>
    if d.len ≤ d.written ∨ d.status ≠ 0 then (hw, false)
    else
      let four := fourBytes hw.rt.moduleId d.dst d.dfix (k.kmode == 2 && d.dw == 2 && !d.dfix)
      let pc := pieceAt d.dst d.dfix d.dw four d.len d.written
      let a := pc.1
      let n := if k.kmode = 1 then Nat.min d.funnel.length (d.len - d.written) else pc.2
      if d.funnel.length < n ∨ n = 0 then (hw, false)
      else
        let b := d.funnel.take n
        let loc := a % 2 ^ 40
        let fin : Hw → Hw × Bool := fun h =>
          (h.modDma c fun k => { k with d := k.d.map fun d => { d with funnel := d.funnel.drop n, written := d.written + n } }, true)
        let st : Hw × Nat → Hw × Bool := fun r =>
          let x := fin r.1
          if r.2 = stOK then x
          else (x.1.modDma c fun k => { k with d := k.d.map fun d => { d with status := if d.status = 0 then r.2 else d.status } }, true)
        if k.kmode = 1 then fin (hw.modDma c fun k => { k with kezil := some (k.kezil.getD [] ++ b) })
        else match (sideOf a).1 with
        | .psram =>
          match hw.pscGate loc with
          | .serve => fin ((hw.wr loc b).touchDom (domPsc (pscChan loc / 2)))
          | .wait => (hw.wakeDom (domPsc (pscChan loc / 2)), false)
          | .absent => (hw.dmaFail c stABSENT, false)
        | .greg =>
          match hw.regGate loc true with
          | .hold d _ => (hw.wakeDom d, false)
          | .absent => (hw.dmaFail c stABSENT, false)
          | .serve => st (hw.busWrite4 (.dma (Fin.ofNat 16 c)) loc (ofLe b))
        | .win m s off =>
          if four && regionOf off == .reg && m == hw.rt.moduleId then
            match hw.regGate loc true with
            | .hold d g => (hw.wakeAt s d g, false)
            | .absent => (hw.dmaFail c stABSENT, false)
            | .serve => st (hw.busWrite4 (.dma (Fin.ofNat 16 c)) loc (ofLe b))
          else fin (hw.dmaPiece c m s off b)
        | .none => (hw.dmaFail c stBADPARAM, false)

/-- The row-load header and directory entry go out before the first data (07/R265). -/
def Hw.dmaHeader (hw : Hw) (c : Nat) : Hw :=
  match (hw.dmaOf c).d with
  | some d =>
    if d.rowload && !d.header && d.status == 0 && d.len != 0 then
      match (sideOf d.dst).1 with
      | .win m s off =>
        let dir := d.dirIdx + (if d.dirV then 2 ^ 21 else 0)
        let hw := hw.dmaWrite c m s 0x384F000 (leBytes 4 off ++ leBytes 4 d.len ++ leBytes 4 dir ++ leBytes 4 0) .rowHead
        let hw := if d.dirV then hw.dmaWrite c m s 0x384F010 (leBytes 8 d.dirEnt ++ leBytes 8 0) else hw
        hw.modDma c fun k => { k with d := k.d.map fun d => { d with header := true } }
      | _ => hw
    else hw
  | none => hw

/-- With BARRIER, once every write is issued, one FENCE goes to each square written since its last FENCE (07/R263). -/
def Hw.dmaFences (hw : Hw) (c : Nat) : Hw :=
  let k := hw.dmaOf c
  match k.d with
  | some d =>
    if d.barrier && !d.fenced && d.status == 0 && decide (d.len ≤ d.written) then
      let wid := hw.rt.moduleId * 16 + c
      let hw := hw.modDma c fun k => { k with d := k.d.map fun d => { d with fenced := true } }
      let hp := hw.hubPort
      k.writes.foldl (fun (h : Hw) (w : Nat × Nat) =>
        if w.2 = 0 then h
        else
          let tag := (h.dmaOf c).freeTag
          let p := mkFence h (w.1 / 64) (w.1 % 64) wid w.2 h.rt.moduleId hp (0x3F0000 + 256 * c + tag) tag
          (h.dmaSend p).modDma c fun k => { k with
            nextTag := (tag + 1) % 256
            writes := mset k.writes w.1 0
            d := k.d.map fun d => { d with fencing := d.fencing ++ [(tag, h.elapsed)] } }) hw
    else hw
  | none => hw

/-- Everything the channel can do now on its descriptor: ask, take, write, fence. `n` bounds the pieces. -/
def Hw.dmaPump (hw : Hw) (c : Nat) : Nat → Hw
  | 0 => hw
  | n + 1 =>
    if (hw.dmaOf c).paused then hw
    else
      let a := (hw.dmaHeader c).dmaAsk c
      let p := (a.1.dmaTake c).dmaPut c
      if a.2 || p.2 then p.1.dmaPump c n else p.1.dmaFences c

/-- Pieces that a descriptor can need at most. -/
def pumpFuel (d : DmaDesc) : Nat := 4 * d.len + 8

/-- An answer to a READ or FENCE of the channel (07/R262, R263). An answer that no request waits for is dropped. -/
def Hw.dmaAnswer (hw : Hw) (c tag : Nat) (data : Option (List Byte)) (st : Nat) : Hw :=
  let k := hw.dmaOf c
  match k.d with
  | none => hw
  | some d =>
    if d.fencing.any fun f => f.1 == tag then
      let hw := hw.modDma c fun k => { k with d := some { d with fencing := d.fencing.filter fun f => f.1 != tag } }
      if st = stOK then hw else hw.dmaFail c st
    else if k.reads.any fun r => r.tag == tag && r.data == none then
      if st ≠ stOK then hw.dmaFail c st
      else
        let b := data.getD []
        let hw := hw.modDma c fun k => { k with
          reads := k.reads.map fun r => if r.tag == tag && r.data == none then { r with data := some ((b.drop r.lo).take r.n) } else r }
        hw.dmaPump c (pumpFuel d)
    else hw

/-- The descriptor in progress has completed (07/R263). -/
def Dma.complete (k : Dma) : Bool :=
  match k.d with
  | some d =>
    if d.status ≠ 0 then d.fencing.isEmpty
    else decide (d.len ≤ d.written) && (!d.barrier || d.len == 0 || (d.fenced && d.fencing.isEmpty))
  | none => false

/-- Every WRITE packet of the channel has been injected (07/R263). -/
def Hw.dmaIssued (hw : Hw) (c : Nat) : Bool :=
  let wid := hw.rt.moduleId * 16 + c
  (List.range 64).all fun s => !(edgeHub s) || !((hw.rtOf s).edgeIn.any fun p => p.ty == tyWRITE && p.wid == wid)

/-- The descriptor in progress has completed, with its last write issued (07/R263). -/
def Hw.dmaFinished (hw : Hw) (c : Nat) : Bool := (hw.dmaOf c).complete && hw.dmaIssued c

/-- The 64 bytes of a descriptor, or nothing while its domain, bank group or channel is not ready, which the fetch wakes (01/R36,
12/R396, R411). -/
def Hw.descRead (hw : Hw) (a : Nat) : Hw × Option (List Byte × Nat) :=
  match (sideOf a).1 with
  | .win _ s off =>
    match hw.gate s off with
    | .serve => let r := hw.loadWin s off 64; (r.1, some r.2)
    | .hold d g => (hw.wakeAt s d g, none)
    | .absent => (hw, some ([], stABSENT))
  | _ =>
    match hw.pscGate a with
    | .serve => let h := hw.touchPsram a 64; (h, some (h.rd a 64, stOK))
    | .wait => (hw.wakeDom (domPsc (pscChan a / 2)), none)
    | .absent => (hw, some ([], stABSENT))

/-- Fetch and check the descriptor at DMA_CURc (07/R257, R258); a refused one moves no byte. The checks come before LEN = 0, which
completes at once. -/
def Hw.dmaFetch (hw : Hw) (c : Nat) : Hw :=
  let a := (hw.dmaOf c).cur
  let refuse : Hw → Nat → Hw := fun h st =>
    h.modDma c fun k => { k with d := some { parseDesc a (List.replicate 64 0) with status := st, fenced := true } }
  if !(descAddrOk a) then refuse hw stBADPARAM
  else
    let r := hw.descRead a
    match r.2 with
    | none => r.1
    | some (b, st) =>
      if st ≠ stOK then refuse r.1 st
      else
        let d := parseDesc a b
        if !(reservedOk b) then refuse r.1 stBADPARAM
        else if !(r.1.descOk d false) then refuse r.1 stBADPARAM
        else r.1.modDma c fun k => { k with d := some { d with fenced := d.len == 0 }, reads := [] }

/-- DMA_DESCRIPTOR (07/R258): fetch the next descriptor if none is in progress, and move what can be moved. -/
def Hw.dmaDescriptor (hw : Hw) (c : Nat) : Hw :=
  let k := hw.dmaOf c
  if !k.run then hw
  else
    let hw := if k.d.isNone then hw.dmaFetch c else hw
    match (hw.dmaOf c).d with
    | some d => hw.dmaPump c (pumpFuel d)
    | none => hw

/-- Write STATUS and DONE back into word 7 of a descriptor; the Bool says that it was made or is never made, and not held
(07/R264, 01/R36, 12/R396). -/
def Hw.descBack (hw : Hw) (d : DmaDesc) : Hw × Bool :=
  let back := leBytes 1 d.status ++ leBytes 3 0 ++ leBytes 4 d.written
  match (sideOf d.addr).1 with
  | .win _ s off =>
    match hw.gate s off with
    | .serve => ((hw.storeWin s (off + 56) back).1, true)
    | .hold e g => (hw.wakeAt s e g, false)
    | .absent => (hw, true)
  | _ =>
    match hw.pscGate d.addr with
    | .serve => ((hw.wrWhole (d.addr + 56) back).touchPsram d.addr 64, true)
    | .wait => (hw.wakeDom (domPsc (pscChan d.addr / 2)), false)
    | .absent => (hw, true)

/-- DMA_DESCRIPTOR_COMPLETE (07/R263, R264): write back STATUS and DONE, signal the interrupt, go on or stop. -/
def Hw.dmaComplete (hw : Hw) (c : Nat) : Hw :=
  let k := hw.dmaOf c
  match k.d with
  | none => hw
  | some d =>
    if !(hw.dmaFinished c) then hw
    else
      let r := if k.kmode ≠ 0 ∨ !(descAddrOk d.addr) then (hw, true) else hw.descBack d
      if !r.2 then r.1
      else
        let goOn := d.status == stOK && d.nextV && !k.stop
        let stopped := d.status != stOK || (k.stop && d.nextV)
        let hw := r.1.modDma c fun k => { k with
          code := d.status, err := k.err || d.status != stOK, d := none, reads := []
          run := goOn, stop := false, cur := if goOn then d.next else k.cur
          done := k.done || (d.status == stOK && !goOn) }
        let hw := hw.rise (.dma c) (if d.status ≠ stOK then 4 else if goOn then 0 else 2)
        let hw := if d.irq || stopped then hw.irq (160 + c) else hw
        if goOn then hw else hw.chainEnded c d.status

/-- A READ or FENCE has gone unanswered for DMA_TMO (07/R262); an answer in the cycle of expiry counts (00/R18). -/
def Hw.dmaTimeout (hw : Hw) (c : Nat) : Hw :=
  let k := hw.dmaOf c
  match k.d with
  | none => hw
  | some d =>
    let old := fun t => decide (t + hw.dmaTmo < hw.elapsed)
    if (k.reads.any fun r => r.data == none && old r.sent) || (d.fencing.any fun f => old f.2)
    then hw.dmaFail c stTIMEOUT else hw

end Sys2Proof.Machine
end

