-- ==== Sys2Proof/Machine/Residue.lean ====
section
/-! DEFINITION. The checks that a unit makes on its own results and on the words it reads: residues modulo 7, the second
comparator of a clamp, the two binary32 units, and the parity that a bank adds after correction (03/R111, 05/R190, 09/R306,
R309). -/

namespace Sys2Proof.Machine

/-- The residue modulo 7, from 0 to 6 for negative values as well. -/
def r7 (x : Int) : Nat := (Int.emod x 7).toNat

/-- A product, its shifted quotient and the remainder of the shift: a × b = q × 2^s + f. -/
def checkMulShift (a b q f : Int) (s : Nat) : Bool :=
  r7 a * r7 b % 7 == (r7 q * r7 (((2 ^ s : Nat) : Int)) + r7 f) % 7

/-- A sum z = x + y, and a difference z = x − y. -/
def checkAdd (x y z : Int) : Bool := r7 z == (r7 x + r7 y) % 7
def checkSub (x y z : Int) : Bool := r7 z == (r7 x + (7 - r7 y)) % 7

/-- A slot accumulator at slot close. -/
def checkSlotClose (acc : Int) (parts : List Int) : Bool := r7 acc == (parts.map r7).sum % 7

/-- The check of one result passes. -/
def laneOk (c : LaneCheck) : Bool :=
  match c with
  | .mulShift a b q f s => checkMulShift a b q f s
  | .add x y z => checkAdd x y z
  | .sub x y z => checkSub x y z
  | .slotClose acc parts => checkSlotClose acc parts
  | .clamp x lo hi got => got == (if x < lo then lo else if hi < x then hi else x)
  | .binary32 one two => one == two

/-- The path parity of a word: odd over each 16-bit group with its bit (09/R306). -/
def pathOk (w : DWord) (par : BitVec 4) : Bool := (List.range 4).all fun i => parBit w.toNat i == b2n (par.getLsbD i)

/-- The fault that something seen in square s raises: a residue mismatch charged to the slot that computed (0x07), or the path
parity of a word (0x04). -/
def Hw.seenFault (hw : Hw) (s : Nat) (x : Seen) : Found :=
  match x with
  | .result l n c =>
    if laneOk c then none
    else some { det := 0x07, status := stRESIDUE, core := l, slot := (hw.sqOf s).slotFor l, detail := n }
  | .slotResult p n c =>
    if laneOk c then none
    else some { det := 0x07, status := stRESIDUE, core := ((hw.sqOf s).coreFor p).getD 31, slot := p, detail := n }
  | .word g b r w par => if pathOk w par then none else some (hw.pathFind s g b r)

/-- The first fault among what a square saw. -/
def Hw.seenFind (hw : Hw) (s : Nat) (l : List Seen) : Found := l.findSome? (hw.seenFault s)

/-- What square s saw, of a command that lists it for several squares. -/
def seenBy (s : Nat) (l : List (Fin 64 × Seen)) : List Seen := (l.filter fun x => x.1.val == s).map (·.2)

/-- A word that was read, and no result. -/
def seenWord (x : Seen) : Bool := match x with | .word _ _ _ _ _ => true | .result _ _ _ | .slotResult _ _ _ => false

/-- The first of some squares that saw a fault, with the fault. -/
def Hw.sawFault (hw : Hw) (sqs : List Nat) (l : List (Fin 64 × Seen)) : Option (Nat × FaultInfo) :=
  sqs.findSome? fun s => (hw.seenFind s (seenBy s l)).map fun f => (s, f)

end Sys2Proof.Machine
end

