-- ==== Sys2Proof/Machine/Agent.lean ====
section
/-! DEFINITION. The memory agent of a square: WRITE, READ, FENCE, RESP, QUEUE and QSTAT packets, and the headers of row loads
(06/R194, R198, R199, R217, 07/R262, R265, R266). -/

namespace Sys2Proof.Machine

/-- The first packet of a type in an inbox, and the inbox without it. -/
def takeType (ty : Nat) : List InEntry → Option (Packet × List InEntry)
  | [] => none
  | e :: r =>
    if e.pkt.ty = ty then some (e.pkt, r)
    else match takeType ty r with
      | some (p, r') => some (p, e :: r')
      | none => none

/-- The entries of the directory that wait for a snapshot point, with those that open row loads of the square will add
(04/R161, log 168). -/
def Square.dirReserved (q : Square) : List Nat :=
  q.rowLoads.foldl (fun l r => if r.2.dirV then sins l r.2.dirIdx else l) (q.pendDir.map (·.1))

/-- A row-load header arrives (07/R266, 04/R159, R161): START, LEN and DIR. It is accepted unless four loads are open, the
header did not come from a ROWLOAD descriptor, the range breaks R159, or, in a job, 64 entries are pending or reserved. Its packet's
bits do not say what wrote it: its mark does (log 169). -/
def Hw.rowHeader (hw : Hw) (s : Nat) (p : Packet) (b : List Byte) : Hw :=
  let q := hw.sqOf s
  let wid := p.wid
  let start := leAt b 0 4
  let len := leAt b 4 4
  let dir := leAt b 8 4
  let inRegion := start % 16 == 0 && len % 16 == 0 && decide (start + len ≤ 0x1000000)
  let lo := hw.stageLo s * 128
  let hi := hw.stageHi s * 128
  let lines := (List.range ((start + len + 127) / 128 - start / 128)).map (· + start / 128)
  let inJob := (hw.jobOfSq s).isSome
  let window := !inJob || (decide (lo ≤ start ∧ start + len ≤ hi)
    && lines.all fun l => !(q.staged.any fun r => decide (r.1 ≤ l ∧ l < r.2)))
  let dirV := dir.testBit 21
  let i := fld dir 20 0
  let room := !dirV || !inJob || decide (q.dirReserved.length < 64) || q.dirReserved.contains i
  if p.mark == .rowHead && inRegion && window && room && decide (q.rowLoads.length < 4) then
    hw.modSq s fun q => { q with rowLoads := mset q.rowLoads wid { start := start, len := len, dirV := dirV, dirIdx := i } }
  else hw.modWid s wid fun w => { w with refused := true }

/-- Make a write of 16 bytes at a window offset for a WID (06/R199, 07/R266). -/
def Hw.agentStore (hw : Hw) (s : Nat) (p : Packet) (b : List Byte) : Hw × Nat :=
  let q := hw.sqOf s
  let wid := p.wid
  let off := p.addr * 16
  if off = 0x384F000 then (hw.rowHeader s p b, stOK)
  else if off = 0x384F010 then
    match mfind q.rowLoads wid with
    | some r => (hw.modSq s fun q => { q with rowLoads := mset q.rowLoads wid { r with dirEnt := leAt b 0 8 } }, stOK)
    | none => (hw, stOK)
  else if regionOf off = .reg then
    match p.mark with
    | .lane k => hw.busWrite4 .other (winBase s + off + 4 * k) (leAt b (4 * k) 4)
    | .plain | .rowHead => hw.sqUnitWrite s off b
  else match mfind q.rowLoads wid with
    | some r => hw.storeWin s off b (decide (r.start ≤ off ∧ off + 16 ≤ r.start + r.len))
    | none => hw.storeWin s off b

/-- A WRITE whose access is served: it is made, counted and noted (06/R199). One whose parity fails is not made (06/T6-3). -/
def Hw.writeServe (hw : Hw) (s : Nat) (p : Packet) : Hw :=
  let r := if !p.parOk then (hw.packetFault s p, stPARITY)
           else if (mget {} (hw.sqOf s).wid p.wid).refused then (hw, stOK)
           else hw.agentStore s p (leBytes 16 p.pay.toNat)
  (r.1.widCount s p (·.note r.2)).fenceRelease s

/-- A READ whose access is served (06/R198, 01/R37, 06/T6-3). `seen` lists words that it read, with their path parity: one that
fails answers PARITY (09/R306, T9-1 0x04). -/
def Hw.readServe (hw : Hw) (s : Nat) (p : Packet) (seen : List Seen) : Hw :=
  if !p.parOk then (hw.packetFault s p).respStatus s p stPARITY
  else
    let off := p.addr * 16
    match hw.seenFind s seen with
    | some f => (hw.jobFault { f with job := hw.jobOfSq s, sq := some s }).respStatus s p f.status
    | none =>
      let r : Hw × List Byte × Nat :=
        if regionOf off = .reg then let x := hw.sqUnitRead s off; (hw, x.1, x.2) else hw.loadWin s off 16
      let q := p.requester
      if r.2.2 = stOK then r.1.injectAt s [mkRespData hw q.1 q.2.1 q.2.2.1 r.2.1] else r.1.respStatus s p r.2.2

/-- A data RESP is written at its landing address, in memory or in registers (06/R198). The square makes no requests of its own:
one that fails its parity is recorded and not written. -/
def Hw.respServe (hw : Hw) (s : Nat) (p : Packet) : Hw :=
  let off := p.addr * 16
  let b := leBytes 16 p.pay.toNat
  if !p.parOk then hw.packetFault s p
  else if regionOf off = .reg then (hw.sqUnitWrite s off b).1 else (hw.storeWin s off b).1

/-- What of the window a packet reaches: its target unit, the buffer of a queue, or the registers of the square (01/R36). -/
def Hw.agentOff (hw : Hw) (s : Nat) (p : Packet) : Nat :=
  if p.ty = tyQUEUE then
    let qix := fld p.addr 14 8
    if qix / 4 < 18 then 0x3000000 + (hw.queueOf s (qix / 4) (qix % 4)).buf * 4096 + 16 * fld p.addr 7 0 else 0x3840000
  else if p.ty = tyFENCE ∨ p.ty = tyQSTAT then 0x3840000
  else p.addr * 16

/-- A packet of the memory agent whose access is served. -/
def Hw.agentServe (hw : Hw) (s : Nat) (p : Packet) (seen : List Seen) : Hw :=
  if p.ty = tyREAD then hw.readServe s p seen
  else if p.ty = tyWRITE then hw.writeServe s p
  else if p.ty = tyFENCE then
    if !p.parOk then (hw.packetFault s p).respStatus s p stPARITY else hw.fenceEnter s p
  else if p.ty = tyQUEUE then hw.takeQueue s p
  else if p.ty = tyQSTAT then hw.takeQstat s p
  else hw.respServe s p

/-- A packet of the memory agent whose domain or bank group is OFF. Its parity is checked first (06/T6-3); a QUEUE passes the checks
of Table 7-2 before the place of its message is looked at. -/
def Hw.agentAbsent (hw : Hw) (s : Nat) (p : Packet) : Hw :=
  if p.ty = tyQUEUE then hw.takeQueue s p
  else if !p.parOk then hw.agentServe s p []
  else if p.ty = tyREAD ∨ p.ty = tyFENCE then hw.respStatus s p stABSENT
  else if p.ty = tyWRITE then (hw.widCount s p (·.note stABSENT)).fenceRelease s
  else hw

/-- An access of a packet to the square's window: served, held, or answered ABSENT (01/R36, 12/R396). -/
def Hw.agentAccess (hw : Hw) (s : Nat) (p : Packet) (seen : List Seen := []) (owed : Bool := false) : Hw :=
  match hw.gate s (hw.agentOff s p) owed with
  | .serve => hw.agentServe s p seen
  | .hold d g => hw.holdAt s d g { dom := d, group := g, square := s, pkt := some p }
  | .absent => hw.agentAbsent s p

/-- A take resets the watchdog's count (06/R218). -/
def Hw.takeFrom (hw : Hw) (s : Nat) (rest : List InEntry) : Hw :=
  hw.modSq s fun q => { q with inbox := rest, wdogCount := 0 }

/-- Whether the first packet of a type had reached the square before its domain began to leave for OFF (06/R228). -/
def owedType (ty : Nat) (l : List InEntry) : Bool := ((l.find? fun e => e.pkt.ty == ty).map (·.owed)).getD false

/-- The memory agent takes the first packet of a type from the inbox (06/R217). -/
def Hw.agentTake (hw : Hw) (s ty : Nat) (seen : List Seen := []) : Hw :=
  match takeType ty (hw.sqOf s).inbox with
  | some (p, rest) => (hw.takeFrom s rest).agentAccess s p seen (owedType ty (hw.sqOf s).inbox)
  | none => hw

/-- WRITE_PACKET (06/R199). -/
def Hw.writePacket (hw : Hw) (s : Nat) : Hw := hw.agentTake s tyWRITE

/-- READ_PACKET (06/R198). -/
def Hw.readPacket (hw : Hw) (s : Nat) (seen : List Seen) : Hw := hw.agentTake s tyREAD seen

/-- FENCE_PACKET (06/R199): held until its WID's count reaches COUNT. -/
def Hw.fencePacket (hw : Hw) (s : Nat) : Hw := hw.agentTake s tyFENCE

/-- The DMA channel that a landing address names: RADDR unit 0x3F0000 + 256 × channel + tag. -/
def landing (c tag : Nat) : Nat := 0x3F0000 + 256 * c + tag

/-- A RESP handed to the DMA engine (07/R262): data lands by its address, a status by its tag. -/
def Hw.respDma (hw : Hw) (p : Packet) : Hw :=
  let c := (p.addr - 0x3F0000) / 256 % 16
  let tag := (p.addr - 0x3F0000) % 256
  if !p.parOk then (hw.requestFault { det := 0x02, status := stPARITY, link := p.link }).dmaAnswer c tag none stPARITY
  else if p.last then hw.dmaAnswer c (p.y 15 8) none (p.y 7 0)
  else hw.dmaAnswer c tag (some (leBytes 16 p.pay.toNat)) stOK

/-- RESP_PACKET (06/R198, 07/R262): a RESP for the DMA landing range goes to the engine through the edge port; any other
data RESP is written to its landing address, and a status RESP completes a request of the square, which makes none. -/
def Hw.respPacket (hw : Hw) (s : Nat) : Hw :=
  match (if edgeHub s then (hw.rtOf s).edgeOut else []) with
  | p :: rest => (hw.modRt s fun r => { r with edgeOut := rest }).respDma p
  | [] =>
    match takeType tyRESP (hw.sqOf s).inbox with
    | some (p, rest) =>
      let hw := hw.takeFrom s rest
      if !p.last then hw.agentAccess s p else if p.parOk then hw else hw.packetFault s p
    | none => hw

/-- QUEUE_PACKET (07/R245). -/
def Hw.queuePacket (hw : Hw) (s : Nat) : Hw := hw.agentTake s tyQUEUE

/-- QSTAT_PACKET (07/R247). -/
def Hw.qstatPacket (hw : Hw) (s : Nat) : Hw := hw.agentTake s tyQSTAT

/-- Serve the accesses held at a domain or group that is ON again, in order (01/R36, 12/R396). One that was held at a group had reached
the square while its domain was ON (06/R228). -/
def Hw.serveHeld (hw : Hw) (ready : HeldAccess → Bool) (reg : Hw → HeldAccess → Hw) : Hw :=
  let now := hw.heldAcc.filter ready
  let hw := { hw with heldAcc := hw.heldAcc.filter fun h => !ready h }
  now.foldl (fun x h => match h.pkt with
    | some p => x.agentAccess h.square p [] h.group.isSome
    | none => reg x h) hw

end Sys2Proof.Machine
end

