-- ==== Sys2Proof/Machine/Inputs.lean ====
section
/-! DEFINITION. The I/O hub as a source: the tempo of every input, the input journal, and the injection of a tempo's input
(02/R49 to R52, R64, R73, 09/R330, R331). -/

namespace Sys2Proof.Machine

/-! ### The tempo of an input (02/R49 to R51). -/

/-- The earliest tempo whose cutoff has not passed. -/
def Hw.inputTempo (hw : Hw) (j : Nat) : Nat :=
  let k := hw.jobOf j
  if k.released then
    Nat.max k.inTempo (fdiv ((hw.tb.now : Int) - k.origin) (k.period : Int) + 1).toNat
  else k.t0

/-- Key of the count of one source's events of one group in one tempo. -/
def portKey (t src group : Nat) : Nat := (t * 16 + (src - 18)) * 16384 + group

/-- The first tempo from t on in which the source may still send the group an event (02/R51). -/
def roomFrom (cnt : List (Nat × Nat)) (src group : Nat) : Nat → Nat → Nat
  | 0, t => t
  | n + 1, t => if mget 0 cnt (portKey t src group) < 65535 then t else roomFrom cnt src group n (t + 1)

/-- Assign one event to tempo `t`, or to a later one under 02/R51, and journal it. `late` says that 02/R50 moved it. -/
def Hw.assign (hw : Hw) (j src t : Nat) (late : Bool) (group neuron value : Nat) : Hw :=
  let k := hw.jobOf j
  let u := roomFrom k.portCnt src group (k.portCnt.length + 1) t
  let hw := hw.modJob j fun k => { k with
    portCnt := mupd 0 k.portCnt (portKey u src group) (· + 1)
    lateIn := if late || u != t then mupd 0 k.lateIn u (· + 1) else k.lateIn }
  hw.journalAdd j u [jEvent src group neuron value]

/-! ### Injection (02/R52, R64, R73). -/

/-- The groups that the hub sources in a job: SRC, GROUP, ORD and attachment square (10/R359, 14/R489). -/
def Hw.hubGroups (hw : Hw) (j : Nat) : List (Nat × Nat × Nat × Nat) :=
  (hw.csi.filter fun p => p.2.joined == some j).flatMap (fun p =>
    p.2.tiles.map fun t => (18 + p.1, tileGroup t, tileOrd t, tileAsq t))
  ++ (hw.kz.streams.filter fun p => p.2.joined == some j).flatMap (fun p =>
    p.2.groups.map fun g => (26 + p.1, g.group, g.ord, g.asq))

/-- The entries by which KIND [1:0] says what they are: the MASK that follows a KIND 2 entry belongs to it (09/T9-4). -/
def kindWords : List Nat → List Nat
  | w :: mask :: rest => if w % 4 = 2 then w :: kindWords rest else w :: kindWords (mask :: rest)
  | ws => ws

/-- The unreleased journal words of a tempo of job slot j. -/
def Hw.journalWords (hw : Hw) (j t : Nat) : List Nat :=
  (hw.journal.filter fun e => e.slot == j && e.tempo == t && !e.free).map fun e => e.word

/-- The events of one source and group that the journal assigns to a tempo. -/
def Hw.journalled (hw : Hw) (j t src group : Nat) : List (Nat × Nat) :=
  (kindWords (hw.journalWords j t)).filterMap fun w =>
    if w % 4 = 0 ∧ fld w 42 38 = src ∧ fld w 37 24 = group then some (fld w 15 2, fld w 23 16) else none

/-- The hub's packets of tempo t, close packets included, at the edge inputs of the attachment squares. -/
def Hw.hubInject (hw : Hw) (j t : Nat) : Hw :=
  (hw.hubGroups j).foldl (fun (h : Hw) g =>
    let ps := eventPackets h.cur 1 h.rt.moduleId g.2.2.2 (g.2.1 % 16384 + g.2.2.1 % 256 * 2 ^ 14) (t % 4) g.1
      (h.journalled j t g.1 g.2.1)
    h.modRt g.2.2.2 fun r => { r with edgeIn := r.edgeIn ++ ps }) hw

/-- No tempo follows the running one. -/
def Job.lastTempo (k : Job) : Bool :=
  (k.stopReq && decide (k.stopT ≤ k.tempo)) || (k.ntempo != 0 && k.tempo + 1 == k.t0 + k.ntempo)

/-- Lateness that the present hold has caused the running tempo so far: it counts from the tempo's start, since a hold of the
tempo after it delays nothing before then (02/R73, log 162). -/
def Job.holding (k : Job) (now : Nat) : Nat :=
  if k.held && k.started && k.phase != 3 then now - Nat.max k.holdAt k.sT else 0

/-- Input injection of the next tempo to close, once its cutoff and the global closure before it have passed (02/R52). The
hold of 02/R73 keeps it back. -/
def Hw.injectInput (hw : Hw) (j : Nat) : Hw :=
  let k := hw.jobOf j
  let t := k.feedT
  if !k.active || !k.released || k.restart.isSome || k.injected || decide (k.inTempo ≤ t) || (k.phase == 3 && k.lastTempo) then hw
  else if hw.outFull then
    if k.held then hw else hw.modJob j fun k => { k with held := true, holdAt := hw.tb.now }
  else
    let hw := hw.modJob j fun k => { k with
      held := false, injected := true, lag := k.lag + k.holding hw.tb.now, lagT := k.lagT + k.holding hw.tb.now }
    (hw.hubInject j t).treeUp j

end Sys2Proof.Machine
end

