-- ==== Sys2Proof/Machine/Update.lean ====
section
/-! DEFINITION. The update phase of one core: due units, the fire record, the sweep, samples for the shadow core, modulation
passes and the packets of the fired events (02/R57 to R63, 03/R112 to R120, 06/R221, 09/R310 to R315, R494). -/

namespace Sys2Proof.Machine

/-- Job j runs and is in no restart. -/
def Hw.going (hw : Hw) (j : Nat) : Bool := (hw.jobOf j).active && (hw.jobOf j).restart.isNone

/-! ### Due units (03/R114, R117, R118). -/

/-- The neurons that their model keeps due in every tempo. -/
def Hw.alwaysDue (hw : Hw) (s l : Nat) (img : List Byte) (n : Nat) : List Nat :=
  if (List.range 16).any fun m => modelAlways img m then
    (List.range n).filter fun i => modelAlways img (recModel (hw.nrec s l i))
  else []

/-- The due units of tempo t in ascending order: single neurons and pairs. -/
def Hw.dueUnits (hw : Hw) (s l t : Nat) (img : List Byte) : List (List Nat) :=
  let n := (hw.sqOf s).flt.nsnapOf l
  let isPair : Nat → Bool := fun i => paired img (hw.nrec s l i)
  let due := (mget [] (hw.lslot s l).due (t % 8)).filter (fun i => decide (i < n)) ++ hw.alwaysDue s l img n
  let firsts := due.foldl (fun a i => sins a (if isPair i then i / 2 * 2 else i)) []
  firsts.map fun i => if isPair i then [i, i + 1] else [i]

/-- The lane slots that a list of units takes (03/R118). -/
def laneSlots (passes : Nat → Nat) (us : List (List Nat)) : Nat :=
  us.foldl (fun (u : Nat) x => match x with
    | [a, b] => u + u % 2 + 2 * Nat.max (passes a) (passes b)
    | [a] => u + passes a
    | _ => u) 0

/-- UC of 02/R75: the update-unit cycles (03/R118). -/
def updateCycles (passes : Nat → Nat) (us : List (List Nat)) : Nat := (laneSlots passes us + 7) / 8 + 1

/-! ### The fire record (09/R494). -/

/-- Clear a core's fire record: every word is written. -/
def Hw.fireClear (hw : Hw) (s l : Nat) : Hw :=
  (forAll (List.range 36) (fun p h => (h.unitWrite s (.fire l p)).sramWhole s (.fire l p)) hw).modL s l fun k => { k with fire := [] }

/-- Record a fire. -/
def Hw.fireNote (hw : Hw) (s l n v : Nat) : Hw :=
  ((hw.unitWrite s (.fire l (n / 8 / 512))).unitWrite s (.fire l ((2048 + n) / 512))).modL s l fun k =>
    { k with fire := mset k.fire n v, firedN := k.firedN + 1 }

/-- Send a core's fire record under its send table as the job's start found it, tagged `tag`: for each valid entry its events, then its close packet
(06/R221, R64). A poisoned word of the record is found. -/
def Hw.sendFires (hw : Hw) (s l tag : Nat) : Hw × Found :=
  let fires := (hw.lslot s l).fire
  let ps := ((mget [] (hw.sqOf s).sends l).filter fun e => e.testBit 30).flatMap fun e =>
    let es := fires.filter fun f => decide (fld e 13 0 ≤ f.1 ∧ f.1 < fld e 13 0 + fld e 28 14)
    if e.testBit 29 then
      eventPackets hw.cur 1 hw.rt.moduleId s (fld e 45 32 + fld e 53 46 * 2 ^ 14) tag l es
    else eventPackets hw.cur 0 (fld e 57 54) (fld e 63 58) (fld e 43 32) tag l es
  match (List.range 36).findSome? fun p => hw.sramAt s (.fire l p) with
  | some f => (hw, some f)
  | none => (hw.injectAt s ps, none)

/-! ### Shadow sampling (09/R310, R311). -/

/-- RATE as a number (09/T9-10). -/
def sampleRate (r : Nat) : Nat := if r = 1 then 8 else if r = 2 then 32 else 16

/-- Where the capture buffer holds the k-th record sampled in a tempo: one after another in dispatch order (DESIGN CHOICE,
log 21). -/
def captureAt (s k : Nat) : Nat := mirTier s + 0xE00000 + 32 * k

/-- Sample a unit: its records go to the capture buffer, and the comparison is awaited. -/
def Hw.sampleUnit (hw : Hw) (s l t : Nat) (u : List Nat) (before after : List (List Byte)) (fires : List (Option Nat)) : Hw :=
  let f := (hw.sqOf s).flt
  let i := u.headD 0
  if (hw.sqOf s).shadow ≠ 31 ∧ (i / 2 + t) % sampleRate f.rate = 0 then
    ((hw.useAt s [captureAt s f.sampled]).wrWhole (captureAt s f.sampled) before.flatten).modFlt s fun f => { f with
      sampled := f.sampled + u.length, waiting := f.waiting ++ [Sample.mk l i before.flatten after fires] }
  else hw

/-! ### One unit, one core. -/

/-- The update of one due unit (02/R57, 03/R115). A poisoned word of its records is found (12/R404). -/
def Hw.updateUnit (hw : Hw) (s l t : Nat) (tb : Tables) (u : List Nat) : Hw × Found :=
  match u.findSome? (hw.recFault s l) with
  | some f => (hw, some f)
  | none =>
  let before := u.map (hw.nrec s l)
  let res : List (List Byte × Option Nat) := match before with
    | [r] => [updateSingle tb t r]
    | [r0, r1] => let x := updatePair tb t r0 r1; [x.1, x.2]
    | _ => []
  let hw := (u.zip res).foldl (fun (h : Hw) x => h.putRec s l x.1 x.2.1) hw
  let hw := (u.zip res).foldl (fun (h : Hw) x => match x.2.2 with | some v => h.fireNote s l x.1 v | none => h) hw
  (hw.sampleUnit s l t u before (res.map (·.1)) (res.map (·.2)), none)

/-- The sweep touch of tempo t, unless the swept neuron was updated or is inert (02/R61, R62). -/
def Hw.sweepTouch (hw : Hw) (s l t : Nat) (tb : Tables) (done : List Nat) : Hw × Found :=
  let i := t % 16384
  if done.contains i ∨ (hw.sqOf s).flt.nsnapOf l ≤ i then (hw, none)
  else match hw.recFault s l i with
    | some f => (hw, some f)
    | none => (hw.putRec s l i (touchRec tb (hw.nrec s l i) t), none)

/-- Clear a due bitmap: every word is written. -/
def Hw.dueClear (hw : Hw) (s l b : Nat) : Hw :=
  (forAll [0, 1, 2, 3] (fun q h => (h.unitWrite s (.due l b q)).sramWhole s (.due l b q)) hw).modL s l fun k => { k with due := mset k.due b [] }

/-- The neurons of core L in the update phase of tempo t: fires, samples, the sweep and the counts (03/R117 to R119). -/
def Hw.updateNeurons (hw : Hw) (s l t : Nat) (img : Image) : Hw × Found :=
  match [0, 1, 2, 3].findSome? fun q => hw.sramAt s (.due l (t % 8) q) with
  | some f => (hw, some f)
  | none =>
  let tb : Tables := ⟨img.bytes, (hw.lslot s l).rules⟩
  let us := hw.dueUnits s l t img.bytes
  let passes : Nat → Nat := fun i => modelPasses img.bytes (recModel (hw.nrec s l i))
  let cycles := updateCycles passes us
  let hw := (hw.fireClear s l).dueClear s l (t % 8)
  let hw := hw.modL s l fun k => { k with firedN := 0, updated := us.flatten.length, updCycles := cycles }
  let r := chain (fun h u => h.updateUnit s l t tb u) hw us
  match r.2 with
  | some f => (r.1, some f)
  | none => r.1.sweepTouch s l t tb us.flatten

/-- The work of core L in the update phase of tempo t, in its order: neurons, modulation passes, the packets of the fires. -/
def Hw.updateWork (hw : Hw) (s l t : Nat) (img : Image) : Hw × Found :=
  chain (fun h (f : Hw → Hw × Found) => f h) hw
    [fun h => h.updateNeurons s l t img,
     fun h => (h.modL s l fun k => { k with modRecs := 0, modNew := [] }).modulate s l t,
     fun h => h.sendFires s l ((t + 1) % 4)]

/-- The update phase of core L in tempo t. A bound consolidation leaves the core with phase A to do (05/R185). -/
def Hw.updateCore (hw : Hw) (j s l t : Nat) : Hw :=
  match (hw.lslot s l).table with
  | none => hw
  | some img =>
    let r := hw.updateWork s l t img
    match r.2 with
    | some f => r.1.found s f
    | none =>
      let cons := (r.1.jobOf j).bindings.any fun b => b.ts == t && b.mask.testBit s
      r.1.modL s l fun k => { k with updating := true, phaseA := cons && k.rules.isSome, phaseB := false }

end Sys2Proof.Machine
end

