-- ==== Sys2Proof/Machine/SnapPoint.lean ====
section
/-! DEFINITION. Snapshot points, the end of a snapshot's copy, exports, and the release of the input journal
(09/R322 to R328, R331, 12/R416, R419, 04/R162, 05/R184, R187). -/

namespace Sys2Proof.Machine

/-! ### One square at a point. -/

/-- Pending table and rule images are put in force (09/R328). -/
def Hw.imagesInForce (hw : Hw) (s : Nat) : Hw :=
  (hw.sqOf s).cores.foldl (fun (h : Hw) l => h.modL s l fun k => { k with
    table := if k.pendT.isSome then k.pendT else k.table, pendT := none
    rule := if k.pendR.isSome then k.pendR else k.rule, pendR := none }) hw

/-- Pending directory entries are written into the directory (04/R162). -/
def Hw.dirInForce (hw : Hw) (s : Nat) : Hw :=
  ((hw.sqOf s).pendDir.foldl (fun (h : Hw) p => h.wrWhole (synTier s + 8 * p.1) (leBytes 8 p.2))
    hw).modSq s fun q => { q with pendDir := [] }

/-- The plastic records in use with COMMIT = 2. -/
def Hw.committed (hw : Hw) (s : Nat) : List Nat :=
  ((hw.sqOf s).usedSlots.map (·.1)).filter fun i => hw.recCommit s i == 2

/-- The snapshot point of tempo t in one square (09/R324, R327, R328). The control block is written last, since the images in
force and the stepped LFSR belong to it. -/
def Hw.pointSquare (hw : Hw) (s t : Nat) : Hw :=
  let hw := ((hw.unitWrite s .control).imagesInForce s).dirInForce s
  let cons := hw.committed s
  let hw := hw.modFlt s fun f => { f with
    pend := f.pend ++ f.dirty.filter (fun u => !f.pend.contains u), dirty := []
    consPend := cons.foldl sins f.consPend, snapAt := t }
  cons.foldl (fun (h : Hw) i => h.setCommit s i 0) hw

/-! ### The journal (09/R331, 12/R416). -/

/-- The released entries of a job in the order of tempos; the entries of one tempo begin with its marker. -/
def releasedWords (l : List JEntry) : List Nat :=
  let ts := l.foldl (fun a e => sins a e.tempo) []
  ts.flatMap fun t => (l.filter fun e => e.tempo == t).map fun e => e.word

/-- Entries of job slot j up to tempo t are released, and go to incident journal pages with IN_EN. -/
def Hw.journalRelease (hw : Hw) (j t : Nat) : Hw :=
  let out : JEntry → Bool := fun e => e.slot == j && !e.free && decide (e.tempo ≤ t)
  let ws := releasedWords (hw.journal.filter out)
  let hw := { hw with journal := hw.journal.map fun (e : JEntry) => if out e then { e with free := true } else e }
  if hw.psc.inEn then
    { hw with psc := { hw.psc with inWait := mupd [] hw.psc.inWait j (· ++ ws.map (leBytes 8)) } }
  else hw

/-! ### The copier (09/R324, R329). -/

/-- SNAPSHOT_COPY_UNIT (09/R324): the copier copies the first pending unit of a square. -/
def Hw.copyNext (hw : Hw) (s : Nat) : Hw :=
  match (hw.sqOf s).flt.pend with
  | [] => hw
  | u :: _ => if hw.works s then hw.copyUnit s u else hw

/-! ### The point of a job (09/R323, R328). -/

/-- Tasks that the point of tempo t ends, or that then wait for the copy (05/R184, 08/T8-2). -/
def Hw.pointTasks (hw : Hw) (j t : Nat) : Hw :=
  let ends := ((hw.jobOf j).bindings.filter fun b => b.ts == t).map (·.tid)
  let hw := hw.modJob j fun k => { k with bindings := k.bindings.filter fun b => b.ts != t }
  let hw := ends.foldl (fun (h : Hw) x => h.taskEnd x stOK) hw
  let snaps := hw.seq.tasks.filter fun p => p.2.state == .running && p.2.ty == tySnapshot && p.2.jslot == j && p.2.snapT.isNone
  snaps.foldl (fun (h : Hw) p =>
    if p.2.param 8 5 = 0 then h.taskEnd p.1 stOK else h.modTask p.1 fun k => { k with snapT := some t }) hw

/-- A committed record of the job whose COMMIT cannot be written in part, with its square: the point is not reached (12/R401). -/
def Hw.pointBad (hw : Hw) (j : Nat) : Option (Nat × FaultInfo) :=
  (hw.jobSqs j).findSome? fun s => ((hw.committed s).findSome? fun i => hw.eccAt (recordAt s i + 176) 1).map fun f => (s, f)

/-- SNAPSHOT_POINT of tempo t. -/
def Hw.snapshotPoint (hw : Hw) (j t : Nat) : Hw :=
  match hw.pointBad j with
  | some (s, f) => hw.found s f
  | none =>
  let hw := forAll (hw.jobSqs j) (fun s h => h.pointSquare s t) hw
  let hw := (hw.journalRelease j t).modJob j fun k => { k with
    snapT := t, snapV := true, noSnap := 0, copying := true, jfull := false
    portCnt := k.portCnt.filter fun p => decide (t < p.1 / 262144), lateIn := k.lateIn.filter fun p => decide (t < p.1) }
  let hw := hw.pointTasks j t
  if hw.copyRuns j then hw else hw.copyDone j

/-- The snapshot of T0 − 1 at the start of a job copies every unit (09/R322). What an earlier job left pending comes in force
with it (03/R123, 04/R162). -/
def Hw.firstPoint (hw : Hw) (j : Nat) : Hw :=
  let t := ((hw.jobOf j).t0 + (2 ^ 48 - 1)) % 2 ^ 48
  let hw := forAll (hw.jobSqs j) (fun s h => ((h.imagesInForce s).dirInForce s).modFlt s fun f =>
    { f with pend := h.allUnits s, dirty := [], consPend := [], snapAt := t }) hw
  let hw := hw.modJob j fun k => { k with snapT := t, snapV := true, copying := true, initCopy := true }
  if hw.copyRuns j then hw else hw.copyDone j

end Sys2Proof.Machine
end

