-- ==== Sys2Proof/Machine/Tempo.lean ====
section
/-! DEFINITION. The tempos of a job: release, start, event distribution, global closure, the end of a square's update, the
shadow's comparison, consolidation phases, done, the result record, stall (02/R42 to R85, 03/R120, 04/R129, 05/R185 to R189,
08/R292 to R294, 09/R310 to R323). -/

namespace Sys2Proof.Machine

/-! ### The start of a tempo (02/R68, 08/R292, R294). -/

/-- The point at which a square starts a tempo: the one chosen at the done, and P7 for class-1 and class-2 work on a square that
has become hot since (08/R290), except in a consolidation tempo (05/R189, log 163). -/
def Hw.startPoint (hw : Hw) (s : Nat) : Nat := if hw.heldLow s then 7 else (hw.sqOf s).dvfsNext

/-- A square starts a tempo: a lower point and a completed raise take effect now, and a raise that is still in progress takes
effect when it completes (08/R294). Its cycles count from here to its local closure. -/
def Hw.startTempo (hw : Hw) (s : Nat) : Hw :=
  let hw := hw.modSq s fun q => { q with dvfsNext := hw.startPoint s }
  let q := hw.sqOf s
  let hw := hw.modSq s fun q => { q.account hw.elapsed with
    tStart := hw.elapsed, cycles := 0, pauses := 0, counting := !q.reported }
  if q.dvfsCur < q.dvfsNext then (hw.dropRaise s).lowerPoint s q.dvfsNext
  else if q.dvfsNext = q.dvfsCur then hw.dropRaise s
  else if q.volt.isSome then hw.modSq s fun q => q.switchTo q.dvfsNext hw.elapsed
  else hw

/-- The slowest point among a job's squares. -/
def Hw.slowest (hw : Hw) (j : Nat) : Nat := ((hw.jobSqs j).map fun s => (hw.sqOf s).dvfsCur).foldl Nat.max 0

/-- The running tempo starts, once its cutoff and the done before it have come: S_T = max(C_T, D_(T−1)). A tempo whose input was
injected before the limit of 02/R73 was reached has not started under the hold, though it starts with the limit reached: DESIGN
CHOICE, log 198. -/
def Hw.tempoStart (hw : Hw) (j : Nat) : Hw :=
  let k := hw.jobOf j
  if !(hw.going j) || !k.released || k.started || k.phase == 0 || k.phase == 3 || decide (k.inTempo ≤ k.tempo) then hw
  else
    let c := asTime (k.cutoff k.tempo)
    let hw := forAll (hw.jobSqs j) (fun s h => h.startTempo s) hw
    hw.modJob j fun k => { k with
      started := true, sT := Nat.max c k.dPrev, dvfsT := hw.slowest j, heldStart := !k.injected && hw.outFull }

/-- Every core of the job sends its fire record, tagged for tempo `t`, with close packets (02/R64, 09/R494). -/
def Hw.sendAllFires (hw : Hw) (j t : Nat) : Hw :=
  (hw.jobSqs j).foldl (fun (h : Hw) s => (h.sqOf s).cores.foldl (fun (h : Hw) l =>
    if (h.lslot s l).table.isSome && h.going j then
      let r := h.sendFires s l (t % 4)
      match r.2 with
      | some f => r.1.found s f
      | none => r.1
    else h) h) hw

/-- INPUT_CUTOFF (02/R49, R52): the timebase reaches the cutoff of the input tempo. -/
def Hw.inputCutoff (hw : Hw) (j : Nat) : Hw :=
  let k := hw.jobOf j
  if k.active ∧ k.released ∧ k.cutoff k.inTempo ≤ (hw.tb.now : Int) then
    (((hw.modJob j fun k => { k with inTempo := k.inTempo + 1 }).tempoStart j).injectInput j)
  else hw

/-- JOB_RELEASE (02/R68): S, the origin and tempo T0; every source closes T0 as well, from an empty fire record. -/
def Hw.jobRelease (hw : Hw) (j : Nat) : Hw :=
  let k := hw.jobOf j
  if !(hw.going j) || k.released || k.initCopy || decide (hw.tb.now < k.startAt) then hw
  else
    let hw := hw.modJob j fun k => { k with
      released := true, origin := (hw.tb.now : Int) - (k.t0 * k.period : Nat), tempo := k.t0, inTempo := k.t0
      sT := hw.tb.now, dPrev := hw.tb.now, phase := 1, started := false, injected := false, ran := 0 }
    let hw := hw.outStart j ((k.t0 + (2 ^ 48 - 1)) % 2 ^ 48)
    let hw := hw.sendAllFires j k.t0
    let hw := forAll (hw.jobSqs j) (fun s h => h.localClosure s) hw
    (hw.modJob j fun k => { k with
      phase := if (ofMask 64 k.mask).all (fun s => k.closedSq.contains s) then 2 else k.phase }).throttleTest

/-! ### Integrate (04/R129, R132). -/

/-- EVENT_DISTRIBUTE: the event distributor takes one packet; a packet that fails its parity or its form is not expanded
(06/R194, R197). What fails a check of the square is not used (09/R307). -/
def Hw.eventDistribute (hw : Hw) (s : Nat) (seen : List Seen) : Hw :=
  match hw.jobOfSq s with
  | none => hw
  | some j =>
    if !(hw.going j) || (hw.sqOf s).inUpdate || !(hw.works s) then hw
    else match takeEvent (hw.sqOf s).inbox, (hw.sqOf s).ledgerT with
      | some (e, rest), some t =>
        let p := e.pkt
        let hw := hw.modSq s fun q => { q with inbox := rest, wdogCount := 0 }
        if !p.parOk then
          hw.jobFault { det := 0x02, status := stPARITY, job := some j, sq := some s, link := p.link }
        else if !p.last && (p.count == 0 || decide (5 < p.count)) then hw.jobFault (mismatch j s e.slot)
        else
          let hw := hw.useBanks s [19, 20, 21, 22, 23]
          let bind := (mget {} (hw.sqOf s).ledger e.slot).bind
          let evs := if p.last then [] else (List.range p.count).map fun i => (p.evNeuron i, p.evValue i)
          let bad := if evs = [] then none else hw.seenFind s seen
          let r := if bad.isSome then (hw, bad) else chain (fun h x => h.distributeEvent s bind t x) hw evs
          match r.2 with
          | some f => r.1.found s f
          | none => r.1.localClosure s
      | _, _ => hw

/-! ### The end of a square's update (02/R44, 03/R120, R128, 05/R174, R187). -/

/-- The counters of a core take the counts of the tempo that has ended; RULE_CNT_CONS changes at the done of a consolidation. -/
def Slot.takeCounts (k : Slot) (t : Nat) (cons : Option Nat) : Slot :=
  let c := satAdd 0xFFFFFFFF 0
  { k with
    cntDue := c k.updated, cntUpd := c k.updCycles, cntLane := c k.laneHalf, cntWide := c k.wide, cntFire := c k.firedN
    cntTempo := t % 2 ^ 32, cntPre := c k.plastic, cntMod := c k.modRecs, mods := k.modNew
    cntCons := match cons with | some n => c n | none => k.cntCons
    laneWork := k.laneHalf, laneHalf := 0, wide := 0, plastic := 0, sop := 0 }

/-- Tempo t of job j is a snapshot tempo (09/R322). -/
def Job.isSnap (k : Job) (t : Nat) : Bool := (t + 1) % k.snapIv == 0

/-- The square reports done once its cores, its samples and its consolidation phases have ended. In a snapshot tempo it goes
on holding back packets of T + 1 until the done (09/R323). In a consolidation, RULE_CNT_CONS of a core without rules in force, which takes
no part (05/R169), becomes 0 (DESIGN CHOICE, log 202). -/
def Hw.squareDone (hw : Hw) (s : Nat) : Hw :=
  match hw.jobOfSq s with
  | none => hw
  | some j =>
    let k := hw.jobOf j
    let q := hw.sqOf s
    let ended := q.cores.all fun l => let c := hw.lslot s l; !c.updating && !c.phaseA && !c.phaseB
    if !(hw.going j) || k.phase != 3 || k.doneSq.contains s || !q.flt.waiting.isEmpty || !ended then hw
    else
      let t := k.tempo
      let bound := k.bindings.any fun b => b.ts == t && b.mask.testBit s
      let sop := (q.cores.map fun l => (hw.lslot s l).sop).sum
      let hw := q.cores.foldl (fun (h : Hw) l => h.modL s l fun c =>
        c.takeCounts t (if bound then some (match c.rules with | some img => (consRecords img).length | none => 0) else none)) hw
      let hw := hw.modSq s fun q =>
        let q := q.account hw.elapsed
        let b := q.pauses + q.cycles
        { q with
          counting := false, busy := b, busyHist := (b :: q.busyHist).take 8, pauses := 0, inUpdate := k.isSnap t
          flt := { q.flt with samples := q.flt.sampled } }
      let hw := hw.modJob j fun k => { k with doneSq := sins k.doneSq s, sopT := k.sopT + sop }
      (hw.treeUp j).localClosure s

/-- UPDATE_COMPLETE: a core ends its update phase. -/
def Hw.updateComplete (hw : Hw) (s l : Nat) : Hw :=
  if (hw.lslot s l).updating && hw.works s then (hw.modL s l fun k => { k with updating := false }).squareDone s else hw

/-- A consolidation phase of a core can run. -/
def Hw.phaseDue (hw : Hw) (s l : Nat) : Bool :=
  match hw.jobOfSq s with
  | some j => hw.going j && (hw.jobOf j).phase == 3 && !(hw.lslot s l).updating && hw.works s
  | none => false

/-- CONSOLIDATION_PHASE_A (05/R185). -/
def Hw.consolidateA (hw : Hw) (s l : Nat) (seen : List Seen) : Hw :=
  if hw.phaseDue s l && (hw.lslot s l).phaseA then
    let bad := hw.seenFind s seen
    let r := if bad.isSome then (hw, bad) else (hw.useBanks s [20, 21, 22, 23]).phaseACore s l
    match r.2 with
    | some f => r.1.found s f
    | none => (r.1.modL s l fun k => { k with phaseA := false, phaseB := true }).squareDone s
  else hw

/-- CONSOLIDATION_PHASE_B (05/R187). -/
def Hw.consolidateB (hw : Hw) (s l : Nat) (seen : List Seen) : Hw :=
  if hw.phaseDue s l && (hw.lslot s l).phaseB then
    let bad := hw.seenFind s seen
    let r := if bad.isSome then (hw, bad) else hw.phaseBCore s l
    match r.2 with
    | some f => r.1.found s f
    | none => (r.1.modL s l fun k => { k with phaseB := false }).squareDone s
  else hw

/-! ### Shadow comparison (09/R312 to R315). -/

/-- The core that computes a third time (01/R26): an unused reserve core, else the lowest unfenced core but the two. -/
def Square.thirdCore (q : Square) (p : Nat) : Option Nat :=
  let ok := fun c => !(q.slotFence.contains c) && c != p && c != q.shadow
  match firstOf [16, 17] (fun c => ok c && (q.coreFor c).isNone) with
  | some c => some c
  | none => firstOf (List.range 19) ok

/-- A sample of core L that holds neuron n. -/
def Sample.has (x : Sample) (l n : Nat) : Bool :=
  x.core == l && decide (x.neuron ≤ n ∧ n < x.neuron + x.after.length)

/-- Note an arbitration in SQF_STATUS (09/T9-11). -/
def Hw.noteArb (hw : Hw) (s code slot : Nat) : Hw := hw.modFlt s fun f => { f with arb := code, arbSlot := slot }

/-- A disagreement is settled (09/R314, R315). -/
def Hw.arbitrate (hw : Hw) (s l n : Nat) (x : ShadowFind) : Hw :=
  let q := hw.sqOf s
  let p := q.slotFor l
  let f : FaultInfo := { det := 0x0A, status := stRESIDUE, job := hw.jobOfSq s, sq := some s, core := l, detail := n }
  let third := (q.thirdCore p).isSome
  match x, third with
  | .agree, _ => hw
  | .primaryOut again, true =>
    (hw.noteArb s (if again then 2 else 1) p).jobFault { f with det := 0x08, slot := p, perm := again }
  | .shadowOut again, true =>
    (hw.noteArb s (if again then 4 else 3) q.shadow).jobFault
      { f with det := 0x09, status := 0, slot := q.shadow, perm := again }
  | _, _ => (hw.noteArb s 5 0).jobFault f

/-- SHADOW_COMPARE: the sample that holds neuron n of core L is compared, unless a check of the slots that recomputed it fails. -/
def Hw.shadowCompare (hw : Hw) (s l n : Nat) (x : ShadowFind) (seen : List Seen) : Hw :=
  let q := hw.sqOf s
  match hw.jobOfSq s, q.flt.waiting.find? fun y => y.has l n with
  | some j, some y =>
    if hw.going j && hw.works s then
      let hw := hw.modFlt s fun f => { f with waiting := f.waiting.filter (· != y) }
      match hw.seenFind s seen with
      | some f => hw.found s { f with core := l }
      | none => (hw.arbitrate s l n x).squareDone s
    else hw
  | _, _ => hw

/-! ### Global closure (02/R44, R45, R47, R87). -/

/-- A shadow found permanent is fenced at the tempo boundary (09/R317). -/
def Hw.shadowFence (hw : Hw) (s : Nat) : Hw :=
  if (hw.sqOf s).flt.shadowOut then
    (hw.modFlt s fun f => { f with shadowOut := false }).fenceSlot s (hw.sqOf s).shadow
  else hw

/-- A square observes global closure of t: its ledger counts t + 1, and its cores update, unless a check of the square fails. -/
def Hw.updateSquare (hw : Hw) (j s t : Nat) (seen : List Seen) : Hw :=
  let hw := hw.modSq s fun q =>
    { q.account hw.elapsed with
      counting := true, inUpdate := true, tUpdate := hw.elapsed, flt := { q.flt with sampled := 0, waiting := [] } }
  let hw := if hw.going j then hw.ledgerStart s j (t + 1) else hw
  match hw.seenFind s seen with
  | some f => hw.found s f
  | none =>
    let hw := (hw.sqOf s).cores.foldl (fun (h : Hw) l => if h.going j then h.updateCore j s l t else h) hw
    hw.squareDone s

/-- When the last event that the running tempo awaited came: once every ledger of the job has closed it. -/
def Hw.lastArrival (hw : Hw) (j : Nat) : Option Nat :=
  if (hw.jobOf j).phase = 3 then (hw.jobOf j).arrival
  else if (hw.jobSqs j).all fun s => (hw.sqOf s).closed then
    some (((hw.jobSqs j).map fun s => (hw.sqOf s).ledgerAt).foldl Nat.max 0)
  else none

/-- GLOBAL_CLOSURE of the running tempo. -/
def Hw.globalClosure (hw : Hw) (j : Nat) (seen : List (Fin 64 × Seen)) : Hw :=
  if !(hw.closureDue j) then hw
  else
    let t := (hw.jobOf j).tempo
    let hw := (hw.tempoStart j).treeDown j 3
    let hw := forAll (hw.jobSqs j) (fun s h => h.shadowFence s) hw
    let hw := hw.flipAtClosure j t
    let hw := hw.modJob j fun k => { k with
      boundLatch := k.boundNext, arrival := hw.lastArrival j, phase := 3, closedSq := [], doneSq := [], closedCh := [], doneCh := []
      sentUp := false, sentDone := false, gClosed := false, gDone := false, injected := false, sopT := 0
      shadowLost := (hw.jobSqs j).any fun s => (hw.sqOf s).shadow == 31 }
    let hw := hw.outStart j t
    let hw := forAll (hw.jobSqs j) (fun s h => if h.going j then h.updateSquare j s t (seenBy s seen) else h) hw
    if hw.going j then (hw.injectInput j).treeUp j else hw

/-! ### The tempo budget (02/R74 to R76). -/

/-- Square cycles of the tempo that has ended, from its counters (02/R75). -/
def Hw.squareCycles (hw : Hw) (s : Nat) : Nat :=
  let ls := (hw.sqOf s).cores.map fun l => hw.lslot s l
  let up := fun a b => (a + b - 1) / b
  let im := (ls.map fun k => Nat.max (Nat.max (up k.laneWork 128) k.cntWide) (up k.cntPre 64)).foldl Nat.max 0
  let um := (ls.map fun k => Nat.max k.cntUpd k.cntMod).foldl Nat.max 0
  im + Nat.max um (up (hw.sqOf s).flt.samples 8)

/-- A count of the square exceeds its limit of Table 2-4. -/
def Hw.sqOver (hw : Hw) (s p : Nat) : Bool :=
  ((hw.sqOf s).cores.any fun l =>
    let k := hw.lslot s l
    decide (2 * (288 * p / 10) < k.laneWork ∨ 45 * p / 100 < k.cntWide ∨ 45 * p / 100 < k.cntUpd))
  || decide (4 * p / 10 < (hw.sqOf s).ejectedT ∨ 45 * p / 100 < hw.squareCycles s)

/-! ### DVFS at the done (08/R292, R294). -/

/-- The point that the measured work of a square allows. -/
def Hw.choosePoint (hw : Hw) (s p : Nat) : Nat :=
  let q := hw.sqOf s
  let w := q.busyHist.foldl Nat.max 0
  let ok : Nat → Bool := fun i => decide (w * 25600 ≤ freqOf i * p * hw.bud.slack)
  ((List.range (Nat.min 6 q.dvfsFloor + 1)).reverse.find? ok).getD 0

/-- The point of T + 1: P0 in a consolidation tempo (05/R189, log 163), else chosen for a class-0 job; a raise begins its
voltage change now. -/
def Hw.dvfsSelect (hw : Hw) (j s : Nat) : Hw :=
  let k := hw.jobOf j
  let class0 := (hw.taskOf k.tid).all fun t => t.cls == 0
  let t := k.tempo + 1
  if k.bindings.any fun b => b.ts == t then hw.nextPoint s 0
  else if class0 then
    hw.nextPoint s (if decide (t < k.t0 + 8) || k.recovery || decide (k.sinceLate < 8) then 0 else hw.choosePoint s k.period)
  else hw.nextPoint s (hw.idlePoint s)

/-! ### Done (02/R44, R68 to R72, R79, 09/R308, R323). -/

/-- Every core's LFSR steps at the done (05/R182). -/
def Hw.stepLfsrs (hw : Hw) (s : Nat) : Hw :=
  let hw := hw.unitWrite s .control
  (hw.sqOf s).cores.foldl (fun (h : Hw) l => h.modL s l fun k => { k with lfsr := lfsrStep k.lfsr }) hw

/-- The flags of the result record (02/T2-6), but FIRST of a record after a restart. -/
def Job.flags (k : Job) (late overrun : Bool) (inLate : Nat) : Nat :=
  b2n late + 2 * b2n k.recovery + 4 * b2n overrun + 8 * b2n (inLate != 0) + 16 * b2n k.heldStart + 32 * b2n k.shadowLost
    + 64 * b2n (k.tempo == k.t0)

/-- The end of a job or the next tempo (02/R68, 08/R276). The spec gives T 48 bits and no wrap: the count goes on past
2^48 − 1 (DESIGN CHOICE, log 189). -/
def Hw.nextTempo (hw : Hw) (j : Nat) : Hw :=
  let k := hw.jobOf j
  if k.lastTempo then hw.taskEnd k.tid stOK
  else
    let all := (hw.jobSqs j).all fun s => k.closedSq.contains s
    let hw := hw.modJob j fun k => { k with
      tempo := k.tempo + 1, phase := if all then 2 else 1, started := false, ran := k.ran + 1, heldStart := false, lagT := 0, arrival := none
      bound := k.boundLatch, doneSq := [], doneCh := [], sentDone := false, gDone := false, overNow := false
      gClosed := k.gNext, gNext := false
      dPrev := hw.tb.now }
    let hw := hw.modJob j fun k => { k with late := k.late && k.isLate (k.lateAt k.tempo hw.tb.now) }
    let hw := forAll (hw.jobSqs j) (fun s h => (h.modSq s fun q => { q with inUpdate := false }).localClosure s) hw
    ((hw.tempoStart j).injectInput j).treeUp j

/-- What the done of the running tempo fixes: lateness, flags, the budget and the record's header (02/R70, R72, R76, R80). -/
def Hw.fixTempo (hw : Hw) (j : Nat) : Hw :=
  let k := hw.jobOf j
  let t := k.tempo
  let d := hw.tb.now
  let n := k.lateAt t d
  let late := !k.recovery && k.isLate n
  let overrun := (hw.jobSqs j).any fun s => hw.sqOver s k.period
  let inLate := mget 0 k.lateIn t
  let hdr := [Nat.min n 0xFFFFFFFF, Nat.min ((d - k.sT) * 4096 / k.period) 0xFFFF, d, k.flags late overrun inLate, k.dvfsT,
    Nat.min inLate 0xFFFF, k.sopT, k.snapT, t, if late then stLATE else 0]
  let hw := if overrun then hw.faultRecord { det := 0x13, job := some j } else hw
  (hw.rise (.tempo j) (if overrun then 32 else 0)).modJob j fun k => { k with
    overrun := k.overrun || overrun, overNow := overrun, pendHdr := some hdr, recovery := k.recovery && n != 0
    lag := if n = 0 then 0 else k.lag, sinceLate := if n = 0 then satAdd 8 k.sinceLate 1 else 0 }

/-- The snapshot tempo that the record's header names is that of the last completed snapshot. The record of a snapshot tempo
names that tempo itself: its snapshot counts as completed at its point (log 164). -/
def Hw.stampSnap (hw : Hw) (j : Nat) : Hw :=
  hw.modJob j fun k => { k with pendHdr := k.pendHdr.map fun h => h.set 7 k.snapT }

/-- GLOBAL_DONE of the running tempo. -/
def Hw.globalDone (hw : Hw) (j : Nat) : Hw :=
  if !(hw.doneDue j) then hw
  else
    let t := (hw.jobOf j).tempo
    let hw := hw.treeDown j 4
    let hw := forAll (hw.jobSqs j) (fun s h => h.stepLfsrs s) hw
    let hw := hw.fixTempo j
    let hw := forAll (hw.jobSqs j) (fun s h => h.dvfsSelect j s) hw
    let hw := if (hw.jobOf j).isSnap t then hw.snapshotPoint j t else hw
    if hw.going j then ((hw.stampSnap j).recordOut j).nextTempo j else hw

/-! ### Late and stalled tempos (02/R71, R72, 11/T11-1). -/

/-- RUNNING_TEMPO_LATE: LATE rises and source 11 + j is signalled. -/
def Hw.tempoLate (hw : Hw) (j : Nat) : Hw :=
  let k := hw.jobOf j
  if hw.going j && k.released && !k.late && k.isLate (hw.lateness j) then
    (hw.modJob j fun k => { k with late := true }).irq (11 + j)
  else hw

/-- What TEMPO_STALL looks at, at timebase `at_`, less the lateness that the hold of 02/R73 caused (log 162): outside recovery
the lateness of the running tempo, in recovery its own busy time. -/
def Job.stallTime (k : Job) (at_ : Nat) : Nat :=
  if k.recovery then (if k.started then at_ - k.sT - (k.lagT + k.holding at_) else 0)
  else k.lateAt k.tempo at_ - (k.lag + k.holding at_)

/-- It is past four times the bound. -/
def Job.stallPast (k : Job) (at_ : Nat) : Bool := decide (4 * k.bound * k.period < 16 * k.stallTime at_)

/-- The last event that the running tempo awaited came in the very ns in which the threshold falls: the arrival wins, and the
tempo is not declared stalled (00/R18, 02_tempo.md, the edge case after R66). -/
def Hw.stallSpared (hw : Hw) (j : Nat) : Bool :=
  let k := hw.jobOf j
  (hw.lastArrival j).any fun t => k.stallPast t && !(k.stallPast (t - 1))

/-- The stall condition (02/R71 to R73). -/
def Hw.stallDue (hw : Hw) (j : Nat) : Bool :=
  let k := hw.jobOf j
  hw.going j && k.released && k.stallPast hw.tb.now && !(hw.stallSpared j)

/-- TEMPO_STALL. -/
def Hw.tempoStall (hw : Hw) (j : Nat) : Hw :=
  if hw.stallDue j then hw.jobFault { det := 0x10, status := stSTALL, job := some j } else hw

end Sys2Proof.Machine
end

