-- ==== Sys2Proof/Machine/Restart.lean ====
section
/-! DEFINITION. The inbox watchdog and the steps of a restart: purge, fences and remaps, readiness of links, restore, replay
(06/R218, R219, R237, 09/R317, R332 to R338, R494, 13/R441). -/

namespace Sys2Proof.Machine

/-! ### The inbox watchdog (06/R218, R219). -/

def wdogLimit : Nat := 16000

/-- INBOX_WATCHDOG: the count has reached its limit; the job restarts and the router enters SINK with an empty inbox. -/
def Hw.inboxWatchdog (hw : Hw) (s : Nat) : Hw :=
  let q := hw.sqOf s
  if q.wdogCount < wdogLimit ∨ !q.anyTakeable then hw
  else
    let n := q.inbox.length
    let hw := (hw.modSq s fun q => { q with
      wdog := true, wdogCount := 0, inbox := [], rt := { q.rt with sink := satAdd 0xFFFFFFFF q.rt.sink n } }).rise (.inbox s) (2 ^ 10)
    let hw := hw.jobFault { det := 0x0F, status := stTIMEOUT, job := hw.jobOfSq s, sq := some s }
    (q.inbox.foldl (fun (h : Hw) e => h.absorbWrite s e.pkt) (hw.setRtState s .sink)).fenceRelease s

/-! ### Step 2: purge (09/R332). -/

/-- The multicast entry of group g in version e at square s, when it is valid. -/
def Hw.groupAt (hw : Hw) (s e g : Nat) : Option Nat :=
  let x := mget 0 (hw.rtOf s).mcast (16384 * e + g)
  if x.testBit 6 then some x else none

/-- A multicast group of a version delivers to a square of job j, or to an output pair of the job. -/
def Hw.groupOfJob (hw : Hw) (j e g ord : Nat) : Bool :=
  ((hw.jobSqs j).any fun s => (hw.groupAt s e g).any fun x => x.testBit 5)
  || (List.range 64).any fun s => edgeHub s && (hw.groupAt s e g).any fun x =>
      x.testBit 4 && (let o := mget {} hw.ol (fld x 18 7 + ord); o.expect && o.jobId == (hw.jobOf j).jobId)

/-- An EVENT packet of job j: it is addressed to a square of the job, or runs on a tree that reaches one (log 22). -/
def Hw.eventOfJob (hw : Hw) (j : Nat) (p : Packet) : Bool :=
  p.ty == tyEVENT && (
    if p.mc then hw.groupOfJob j p.epoch p.group p.ord
    else if p.dmod = hw.rt.moduleId then (hw.jobOf j).mask.testBit p.dsq else (hw.jobOf j).fabric)

/-- A router without the job's EVENT packets; each one absorbed counts in its sink. -/
def Router.purge (r : Router) (out : Packet → Bool) : Router :=
  let keep : Packet → Bool := fun p => !out p
  let r' := { r with
    latch := r.latch.filter fun p => keep p.2, repl := r.repl.filter fun x => keep x.pkt, inject := r.inject.filter keep
    packer := r.packer.filter keep, edgeIn := r.edgeIn.filter keep, edgeOut := r.edgeOut.filter keep }
  let n : Router → Nat := fun r =>
    r.latch.length + r.repl.length + r.inject.length + r.packer.length + r.edgeIn.length + r.edgeOut.length
  { r' with sink := satAdd 0xFFFFFFFF r.sink (n r - n r') }

/-- The replay buffers hold none of the job's EVENT packets either. -/
def Link.purge (l : Link) (out : Packet → Bool) : Link :=
  { l with replay := l.replay.map fun f => { f with pkts := f.pkts.filter fun p => !out p } }

/-- Packets of the job in the receive queues of a port: absorbing them frees their places, so their credits return (06/R234,
log 177). -/
def Hw.purgedIn (hw : Hw) (n : Nat) (out : Packet → Bool) : Nat :=
  (((List.range 64).filter fun s => edgeLink s == some n).map fun s => ((hw.rtOf s).edgeIn.filter out).length).sum

def Hw.purge (hw : Hw) (j : Nat) : Hw :=
  let out := hw.eventOfJob j
  let hw := forAll (List.range 6) (fun n (h : Hw) =>
    let k := h.purgedIn n out
    if k = 0 then h else h.modLink n fun l => { l with creditOwed := l.creditOwed + k }) hw
  { hw with
    sq := hw.sq.map fun (p : Nat × Square) => (p.1, { p.2 with rt := p.2.rt.purge out })
    link := hw.link.map fun (p : Nat × Link) => (p.1, p.2.purge out) }

/-! ### Step 2: fences, remaps, links. -/

/-- The units of logical core L. -/
def SnapUnit.ofCore (l : Nat) : SnapUnit → Bool
  | .row c _ => c == l
  | .due c _ _ => c == l
  | .fire c _ => c == l
  | .plastic _ => false
  | .control => false

/-- Before a remap, the pending units of a logical core are copied out of the failing core (09/R334), and a pending control
block, which names the images in force (09/R335). -/
def Hw.copyOut (hw : Hw) (s l : Nat) : Hw :=
  let hw := hw.controlSaved s
  ((hw.sqOf s).flt.pend.filter (SnapUnit.ofCore l)).foldl (fun (h : Hw) u => h.unitRead s u) hw

/-- Images that were still pending at the fault stay pending on the slot that takes the logical number (03/R124); what the fenced
slot's own window shows does not change (03/R126). A reload check that was in progress on the fenced slot goes on nowhere: DESIGN CHOICE,
log 199. -/
def Hw.movePending (hw : Hw) (s p r : Nat) : Hw :=
  let old := hw.slotOf s p
  hw.modSlot s r fun k => { k with pendT := old.pendT, pendR := old.pendR }

/-- The bank group of a slot that takes a logical number comes ON (12/R397); one that leaves OFF is wiped. -/
def Hw.bankOn (hw : Hw) (s g : Nat) : Hw :=
  let b := (hw.sqOf s).bankOf g
  let hw := if b.state = .off then hw.wipe (bankRange s g).1 (bankRange s g).2 else hw
  hw.modSq s fun q => q.setBank g fun b => { b with state := .on, moving := none }

/-- A permanent slot is fenced at step 2. A core that moves has every unit restored from the Mirror tier (09/R334). -/
def Hw.fenceAtStep2 (hw : Hw) (s p : Nat) : Hw :=
  match (hw.sqOf s).coreFor p with
  | none => hw.fenceSlot s p
  | some l =>
    let hw := (hw.copyOut s l).fenceSlot s p
    if (hw.sqOf s).slotFor l < 19 then
      let units := (hw.allUnits s).filter (SnapUnit.ofCore l)
      let r := (hw.sqOf s).slotFor l
      ((hw.bankOn s r).movePending s p r).modSq s fun q => { q with
        moved := sins q.moved l
        left := mset q.left l (q.flt.dirty.filter (SnapUnit.ofCore l))
        flt := { q.flt with dirty := units ++ q.flt.dirty.filter fun u => !(SnapUnit.ofCore l u) } }
    else hw

/-- What 09/R314 to R319 decided for a square is applied. -/
def Hw.applyFences (hw : Hw) (s : Nat) : Hw :=
  let f := (hw.sqOf s).flt
  let hw := hw.modFlt s fun f => { f with fenceAt2 := [], fenceSq := false, fenceRt := false }
  let hw := hw.shadowFence s
  let hw := f.fenceAt2.foldl (fun (h : Hw) p => h.fenceAtStep2 s p) hw
  let hw := if f.fenceRt then hw.fenceRouter s else hw
  if f.fenceSq && !(hw.sqOf s).fenced then hw.fenceSquare s else hw

/-- Part 1 of the readiness check (13/R441): a marked port that is not fit is taken down, which restarts nothing again. -/
def Hw.fitLinks (hw : Hw) (j : Nat) : Hw :=
  forAll (List.range 6) (fun n h =>
    if (h.linkOf n).jobs.testBit j && !(h.linkFit n) then
      let h := (h.modLink n fun l => { l with en := false }).linkDown n 4 (some j)
      let h := ({ h with bring := { h.bring with unfit := sins h.bring.unfit n } } : Hw).rise .ready (2 ^ (4 + n))
      h.modJob j fun k => { k with restart := k.restart.map fun r => { r with flip := true } }
    else h) hw

/-- The inbox of a square without EVENT packets, and its ledger empty. -/
def Square.emptied (q : Square) : Square :=
  { q with
    inbox := q.inbox.filter fun e => e.pkt.ty != tyEVENT, wdogCount := 0
    ledger := q.ledger.map fun (p : Nat × LgSlot) => (p.1, { p.2 with received := 0, carried := 0, closeSeen := false })
    closed := false, reported := false, inUpdate := false, ejected := 0, flt := { q.flt with waiting := [] } }

/-- Job j is at step n of a restart. -/
def Hw.atStep (hw : Hw) (j n : Nat) : Bool := (hw.jobOf j).active && (hw.jobOf j).restart.any fun r => r.step == n

/-- RESTART_PURGE_DONE. -/
def Hw.purgeDone (hw : Hw) (j : Nat) : Hw :=
  if !(hw.atStep j 1) then hw
  else
    let sqs := hw.jobSqs j
    let hw := hw.purge j
    let hw := sqs.foldl (fun (h : Hw) s => if h.atStep j 1 then h.applyFences s else h) hw
    if !(hw.atStep j 1) then hw
    else
      let hw := hw.fitLinks j
      let hw := if (hw.jobOf j).restart.any fun r => r.flip then hw.flipArmed else hw
      let hw := forAll sqs (fun s h => h.modSq s Square.emptied) hw
      hw.modJob j fun k => { k with
        restart := k.restart.map fun r => { r with step := 2 }, held := false, injected := false, started := false
        closedSq := [], doneSq := [], outHeld := [] }

/-! ### Step 3: restore (09/R333 to R337). -/

/-- The first tempo that a replay from the snapshot of `ts` runs. -/
def replayFrom (ts : Nat) : Nat := (ts + 1) % 2 ^ 48

/-- The first held record of a job carries RECOVERY and FIRST; the CRC follows (02/R81, R85). -/
def markFirst (b : List Byte) : List Byte :=
  let b := b.take 3 ++ leBytes 1 (leAt b 3 1 ||| 66) ++ b.drop 4
  b.take 60 ++ leBytes 4 (crc32 (b.take 60 ++ b.drop 64)) ++ b.drop 64

/-- A held record belongs to a run of slot j. -/
def Record.of (r : Record) (j run : Nat) : Bool := r.slot == j && r.run == run

/-- Mark the first held record of a run of slot j; the Bool says that there was one. -/
def markHeld (j run : Nat) : List Record → List Record × Bool
  | [] => ([], false)
  | r :: rest =>
    if r.of j run then ({ r with bytes := markFirst r.bytes } :: rest, true)
    else let x := markHeld j run rest; (r :: x.1, x.2)

/-- Held records of tempos that the replay runs again are dropped, since the replay builds them (02/R85, 09/R332). -/
def Hw.dropHeld (hw : Hw) (j ts : Nat) : Hw :=
  let run := (hw.jobOf j).run
  let kept := hw.results.filter fun r => !(r.of j run && decide (replayFrom ts ≤ r.tempo))
  let x := markHeld j run kept
  ({ hw with results := x.1 }).modJob j fun k => { k with
    firstDue := !x.2, afterRst := !x.2
    pendHdr := k.pendHdr.bind fun h => if replayFrom ts ≤ h.getD 8 0 then none else some h }

/-- For a point that is taken after step 2: each moved core is at the slot it left, which still holds the state of that tempo, with
the DIRTY units of then. Under REMAP only a core at its own slot moves (01/R22). -/
def Hw.takeHome (hw : Hw) (s : Nat) : Hw :=
  (hw.sqOf s).left.foldl (fun (h : Hw) x => h.modSq s fun q => { q with
    lmap := mset q.lmap x.1 x.1
    flt := { q.flt with dirty := x.2 ++ q.flt.dirty.filter fun u => !(SnapUnit.ofCore x.1 u) } }) hw

/-- The point has been taken: the pending units of each moved core are copied out of the slot it left (09/R334), which then shows what
it showed before (03/R126), and every unit comes back from the Mirror tier on its new slot. `old` is the machine before the point. -/
def Hw.leaveHome (hw old : Hw) (s : Nat) : Hw :=
  (old.sqOf s).left.foldl (fun (h : Hw) x =>
    let l := x.1
    let r := (old.sqOf s).slotFor l
    let h := ((h.copyOut s l).movePending s l r).modSlot s l fun _ => old.slotOf s l
    let units := (h.allUnits s).filter (SnapUnit.ofCore l)
    h.modSq s fun q => { q with
      lmap := mset q.lmap l r
      flt := { q.flt with dirty := units ++ q.flt.dirty.filter fun u => !(SnapUnit.ofCore l u) } }) hw

/-- The point of the running tempo, which only a RESTART message names, is taken (09/R337). -/
def Hw.namedPoint (hw : Hw) (j : Nat) : Hw :=
  let h := forAll (hw.jobSqs j) (fun s h => (h.takeHome s).stepLfsrs s) hw
  let h := (h.fixTempo j).snapshotPoint j (hw.jobOf j).tempo
  let h := if h.atStep j 2 then (h.stampSnap j).recordOut j else h
  forAll (hw.jobSqs j) (fun s h => h.leaveHome hw s) h

/-- RESTORE_START (09/R337): at least 4 µs after step 1, the later of the two snapshot points is taken. A point that only a
RESTART message names is the done of the tempo whose update every square has finished. -/
def Hw.restoreStart (hw : Hw) (j : Nat) : Hw :=
  let k := hw.jobOf j
  if !(hw.atStep j 2) || k.restart.any (fun r => decide (hw.elapsed < r.at_ + 4000)) then hw
  else
    let named := (k.restart.bind fun r => r.named).getD k.snapT
    let hw := if named ≠ k.snapT ∧ k.phase = 3 ∧ named = k.tempo then hw.namedPoint j else hw
    if !(hw.atStep j 2) then hw else
    (hw.dropHeld j (hw.jobOf j).snapT).modJob j fun k => { k with restart := k.restart.map fun r => { r with step := 3 } }

/-- The neurons that a piece of a bitmap names. -/
def bitmapNeurons (base : Nat) (b : List Byte) : List Nat :=
  (List.range (8 * b.length)).filterMap fun i => if (b.getD (i / 8) 0).getLsbD (i % 8) then some (base + i) else none

/-- Each RULE_LFSR is loaded from the control block (05/R182, 09/R333). -/
def Hw.lfsrsBack (hw : Hw) (s : Nat) : Hw :=
  (hw.sqOf s).cores.foldl (fun (h : Hw) l => h.modL s l fun k => { k with
    lfsr := BitVec.ofNat 32 (h.rdN (mirTier s + 0xF88000 + 8 + 4 * l) 4) }) hw

/-- Copy one unit back from the Mirror tier (09/R333). A plastic record restored with COMMIT = 1 writes its WN into the
entries, and its live COMMIT becomes 0 (05/R188, 09/R327). -/
def Hw.restoreUnit (hw : Hw) (s : Nat) (u : SnapUnit) : Hw :=
  let piece := ((hw.unitMirror s u).map fun x => hw.rd x.1 x.2.2).flatten
  match u with
  | .row _ _ => (hw.unitMirror s u).foldl (fun (h : Hw) x => h.wrWhole x.2.1 (h.rd x.1 x.2.2)) hw
  | .plastic i =>
    let hw := hw.wrWhole (recordAt s i) piece
    if hw.recCommit s i = 1 then (hw.wnBack s i).setCommit s i 0 else hw
  | .due l b q => (hw.sramWhole s u).modL s l fun k => { k with
      due := mupd [] k.due b fun d =>
        (bitmapNeurons (4096 * q) piece).foldl sins (d.filter fun n => n / 4096 != q) }
  | .fire l p =>
    let hw := hw.sramWhole s u
    if p < 4 then
      let now := bitmapNeurons (4096 * p) piece
      hw.modL s l fun k => { k with
        fire := now.foldl (fun f n => mset f n (mget 0 k.fire n)) (k.fire.filter fun x => x.1 / 4096 != p) }
    else hw.modL s l fun k => { k with
        fire := k.fire.map fun (x : Nat × Nat) =>
          if (2048 + x.1) / 512 = p then (x.1, leAt piece ((2048 + x.1) % 512) 1) else x }
  | .control => (hw.sramWhole s u).lfsrsBack s

/-- A reserve core that took a logical number loads the images that the control block names (09/R335); the status of the
first check that fails. Its CORE_TBL_BASE and RULE_BASE then read the bases of those images (log 165). -/
def Hw.loadMoved (hw : Hw) (s l : Nat) : Hw × Nat :=
  let cb := mirTier s + 0xF88000
  let tbase := hw.rdN (cb + 80 + 4 * l) 4
  let hw := hw.checkReads s (imageRead s tbase tableSize)
  let tb := hw.sampleImage s tbase tableSize
  let n := (hw.sqOf s).flt.nsnapOf l
  let st := if tb.2 then stECC else tableCheck tb.1.bytes (fun i => hw.nrec s l i) n (hw.r92Bad s l tb.1.bytes)
  if st ≠ stOK then (hw, st)
  else
    let hw := hw.modL s l fun k => { k with table := some tb.1, tblBase := tb.1.base }
    let rb := hw.rdN (cb + 152 + 4 * l) 4
    if rb = 0xFFFFFFFF then (hw.modL s l fun k => { k with rule := none }, stOK)
    else
      let hw := hw.checkReads s (imageRead s rb ruleSize)
      let ru := hw.sampleImage s rb ruleSize
      let st := if ru.2 then stECC else ruleStatus (hw.ruleBad s l ru.1.bytes)
      if st ≠ stOK then (hw, st)
      else (hw.modL s l fun k => { k with rule := some ru.1, ruleBase := ru.1.base }, stOK)

/-- A piece of a fire record that holds value bytes; it is restored after the bitmap. -/
def SnapUnit.fireValue : SnapUnit → Bool
  | .fire _ p => decide (4 ≤ p)
  | .row _ _ | .due _ _ _ | .plastic _ | .control => false

/-- The restore of one square: consolidations whose point was not reached are undone, each LFSR is loaded unless the control block
is still pending, then the dirty units come back. -/
def Hw.restoreSquare (hw : Hw) (s : Nat) : Hw :=
  let hw := hw.wnBackAll s
  let f := (hw.sqOf s).flt
  let hw := if f.pend.contains .control then hw else hw.lfsrsBack s
  let us := f.dirty.filter fun u => !f.pend.contains u
  let hw := (us.filter (fun u => !u.fireValue) ++ us.filter SnapUnit.fireValue).foldl (fun (h : Hw) u => h.restoreUnit s u) hw
  let hw := hw.modSq s fun q => { q with left := [], flt := { q.flt with dirty := [], waiting := [] } }
  (hw.sqOf s).cores.foldl (fun (h : Hw) l => h.modL s l fun k => { k with
    modSum := [], laneHalf := 0, wide := 0, plastic := 0, sop := 0, updating := false, phaseA := false, phaseB := false }) hw

/-- The copy of a unit in the Mirror tier cannot be read, or the block whose weights a consolidated record gives back: the fault of
its first word. -/
def Hw.copyBad (hw : Hw) (s : Nat) (u : SnapUnit) : Found :=
  match (hw.unitMirror s u).findSome? fun x => hw.eccAt x.1 x.2.2 with
  | some f => some f
  | none => match u with
    | .plastic i =>
      let m := mirTier s + 0x800000 + 256 * i
      if fld (hw.rdN (m + 176) 1) 4 3 = 1 then hw.eccAt (synTier s + 128 * fld (hw.rdN (m + 180) 4) 16 0) (4 * (hw.sqOf s).used i)
      else none
    | .row _ _ | .due _ _ _ | .fire _ _ | .control => none

/-- What the restore of a square reads and cannot use: the control block, with the LFSRs and the bases of moved cores, the copies
of the dirty units, and the weights of a consolidation that it undoes. -/
def Hw.unreadable (hw : Hw) (j s : Nat) : Found :=
  let f := (hw.sqOf s).flt
  match ((SnapUnit.control :: f.dirty).filter fun u => !f.pend.contains u).findSome? (hw.copyBad s) with
  | some f => some f
  | none => if hw.consolidates j s then hw.wnBad s else none

/-- Load the images of every moved core of the job; the first status that is not OK. -/
def Hw.loadAllMoved (hw : Hw) (j : Nat) : Hw × Nat :=
  ((hw.jobSqs j).flatMap fun s => (hw.sqOf s).moved.map fun l => (s, l)).foldl (fun (r : Hw × Nat) x =>
    if r.2 ≠ stOK then r else r.1.loadMoved x.1 x.2) (hw, stOK)

/-- Replay begins (09/R332 step 4, R494): SINK ends, the restored fire records are sent, the input is injected again. The done
before the first replayed tempo, from which its start and its busy time count (02/R68), is taken as the time at which the replay
begins (log 166). A bound that the last tempo boundary took over holds for it (02/R87). -/
def Hw.beginReplay (hw : Hw) (j : Nat) : Hw :=
  let ts := (hw.jobOf j).snapT
  let t := replayFrom ts
  let sqs := hw.jobSqs j
  let hw := forAll sqs (fun s h =>
    (if (h.rtOf s).state = .sink then h.setRtState s .normal else h).modSq s fun q => { q with moved := [], dvfsNext := 0 }) hw
  let hw := { hw with bring := { hw.bring with pass := sins hw.bring.pass j } }
  let hw := hw.modJob j fun k => { k with restart := none }
  if (hw.jobOf j).released then
    let hw := hw.modJob j fun k => { k with
      tempo := t, phase := 1, started := false, injected := false, dPrev := hw.tb.now, heldStart := false, recovery := true
      bound := k.boundLatch, lagT := 0, arrival := none
      sopT := 0, ran := t - k.t0 }
    let hw := hw.outStart j ts
    let hw := forAll sqs (fun s h => h.ledgerStart s j t) hw
    let hw := hw.sendAllFires j t
    let hw := forAll sqs (fun s h => h.localClosure s) hw
    ((hw.tempoStart j).injectInput j).treeUp j
  else hw

/-- A unit that the restore reads and that its ECC or its path parity (`seen`) finds bad, with its square. -/
def Hw.restoreBad (hw : Hw) (j : Nat) (seen : List (Fin 64 × Seen)) : Option (Nat × FaultInfo) :=
  ((hw.jobSqs j).findSome? fun s => (hw.unreadable j s).map fun f => (s, f)) <|> hw.sawFault (hw.jobSqs j) (seen.filter fun x => seenWord x.2)

/-- RESTORE_DONE (09/R333, 13/R441): the units are read and restored, then each square runs its readiness pattern, whose results
`seen` lists; a failure in either is a detector firing, and replay begins when both have passed. -/
def Hw.restoreDone (hw : Hw) (j : Nat) (seen : List (Fin 64 × Seen)) : Hw :=
  if !(hw.atStep j 3) then hw
  else match hw.restoreBad j seen with
    | some (s, f) => hw.found s f
    | none =>
      let hw := forAll (hw.jobSqs j) (fun s h => h.restoreSquare s) hw
      match hw.sawFault (hw.jobSqs j) (seen.filter fun x => !(seenWord x.2)) with
      | some (s, f) => hw.found s f
      | none =>
        let r := hw.loadAllMoved j
        if !(r.1.atStep j 3) then r.1
        else if r.2 ≠ stOK then r.1.stopJob j r.2 0x1A else r.1.beginReplay j

end Sys2Proof.Machine
end

