-- ==== Sys2Proof/Machine/Links.lean ====
section
/-! DEFINITION. Frames of a link port, the messages of the tempo tree between modules, the end of a link, lanes and training
(06/R229 to R237, 09/R336, 13/R437 to R440). -/

namespace Sys2Proof.Machine

/-! ### The bits of a frame (06/R192, R231). -/

/-- A packet as 192 bits (06/T6-1). -/
def Packet.bits (p : Packet) : Nat :=
  p.hdr.toNat + p.pay.toNat * 2 ^ 48 + p.par.toNat * 2 ^ 176 + p.age % 32 * 2 ^ 187

/-- The packet that 192 bits spell. -/
def packetOf (v : Nat) : Packet :=
  { hdr := BitVec.ofNat 48 v, pay := BitVec.ofNat 128 (v / 2 ^ 48), par := BitVec.ofNat 11 (v / 2 ^ 176), age := fld v 191 187 }

/-- Frame bits [479:0] (06/T6-13). -/
def Frame.body (f : Frame) : Nat :=
  f.pkts.length % 4 + b2n f.nak * 4 + f.seq % 4096 * 2 ^ 8 + f.ack % 4096 * 2 ^ 20 + f.credit % 256 * 2 ^ 32
    + f.ctrl % 2 ^ 24 * 2 ^ 40
    + (match f.pkts with | p :: _ => p.bits * 2 ^ 64 | [] => 0)
    + (match f.pkts with | _ :: p :: _ => p.bits * 2 ^ 256 | _ => 0)

/-- The CRC-32 over frame bits [479:0], as 60 bytes. -/
def frameCrc (v : Nat) : Nat := crc32 (leBytes 60 v)

/-- All 512 bits of a frame. -/
def Frame.bits (f : Frame) : Nat := f.body + frameCrc f.body * 2 ^ 480

/-- The frame that 512 bits spell, when their CRC is correct. A frame that says three packets carries the two there are. -/
def frameOf (v : Nat) : Option Frame :=
  if frameCrc (v % 2 ^ 480) ≠ fld v 511 480 then none
  else
    let n := fld v 1 0
    some { nak := v.testBit 2, seq := fld v 19 8, ack := fld v 31 20, credit := fld v 39 32, ctrl := fld v 63 40
           pkts := ([packetOf (fld v 255 64), packetOf (fld v 447 256)]).take n }

/-! ### Transmission (06/R194, R231 to R234). -/

/-- A link transmitter consumes a packet: what it checks and what it sends on (06/R194, T6-3). -/
def Hw.txCheck (hw : Hw) (s : Nat) (p : Packet) : Hw × Option Packet :=
  if p.parOk then (hw, some p)
  else if p.ty = tyEVENT then
    (hw.allJobsFault { det := 0x02, status := stPARITY, sq := some s, link := p.link }, none)
  else if p.ty = tyREAD ∨ p.ty = tyFENCE then ((hw.packetFault s p).respStatus s p stPARITY, none)
  else if p.ty = tyQUEUE then ((hw.packetFault s p).queueBack s p stPARITY, none)
  else (hw, some p)

/-- Take up to `want` packets for a frame: the transmit queues of the attachment squares take turns, the lower first; each
packet spends a credit. `fuel` bounds the packets looked at. -/
def Hw.txTake (hw : Hw) (n : Nat) : Nat → List Nat → Nat → Hw × List Packet
  | 0, _, _ => (hw, [])
  | fuel + 1, order, want =>
    if want = 0 ∨ (hw.linkOf n).credits = 0 then (hw, [])
    else match order.find? fun s => (hw.rtOf s).edgeOut != [] with
      | none => (hw, [])
      | some s =>
        match (hw.rtOf s).edgeOut with
        | [] => (hw, [])
        | p :: rest =>
          let r := (hw.modRt s fun r => { r with edgeOut := rest }).txCheck s p
          match r.2 with
          | none => r.1.txTake n fuel order want
          | some p =>
            let x := (r.1.modLink n fun l => { l with credits := l.credits - 1 }).txTake n fuel order.reverse (want - 1)
            (x.1, p :: x.2)

/-- One more at position i of a list, which grows with zeros to reach it. -/
def bump : List Nat → Nat → List Nat
  | [], 0 => [1]
  | [], i + 1 => 0 :: bump [] i
  | n :: r, 0 => (n + 1) :: r
  | n :: r, i + 1 => n :: bump r i

/-- Resend the frame at position i of the replay buffer, with the acknowledgement of now (06/R232). -/
def Link.resend (l : Link) (i : Nat) (f : Frame) : Link :=
  { l with
    lastSent := some { f with ack := l.lastRx, nak := l.nakOwed }, nakOwed := false, ackOwed := false
    retry := satAdd 0xFFFFFFFF l.retry 1, resends := bump l.resends i
    resendAt := if i + 1 < l.replay.length then some (i + 1) else none }

/-- Send a new frame. -/
def Link.sendNew (l : Link) (pkts : List Packet) (now : Nat) : Link :=
  let c := Nat.min 255 l.creditOwed
  let f : Frame := { nak := l.nakOwed, seq := l.nextSeq, ack := l.lastRx, credit := c, ctrl := l.ctrlQ.headD 0, pkts := pkts }
  { l with
    lastSent := some f, nextSeq := (l.nextSeq + 1) % 4096, nakOwed := false, ackOwed := false
    creditOwed := l.creditOwed - c, ctrlQ := l.ctrlQ.drop 1, replay := l.replay ++ [f]
    lastOk := if l.replay = [] then now else l.lastOk }

/-- LINK_FRAME_TX: frames are resent first; while the replay buffer is full no new frame is sent (06/R232). -/
def Hw.frameTx (hw : Hw) (n : Nat) : Hw :=
  let l := hw.linkOf n
  if !l.up then hw
  else match l.resendAt.bind fun i => (l.replay[i]?).map fun f => (i, f) with
    | some (i, f) => hw.modLink n fun l => l.resend i f
    | none =>
      if 256 ≤ l.replay.length then hw.modLink n fun l => { l with resendAt := none }
      else
        let sqs := portSquares n
        let r := hw.txTake n ((sqs.map fun s => (hw.rtOf s).edgeOut.length).sum) sqs 2
        if (r.1.linkOf n).up then r.1.modLink n fun l => (l.sendNew r.2 hw.elapsed) else r.1

/-! ### Messages of the tempo tree (06/R235, 09/R336, R337). -/

/-- The tempo that a report of CLOSED from below names: the tempo to close next, in a restart the first one replayed. -/
def Job.closesT (k : Job) : Nat :=
  match k.restart with
  | some r => replayFrom (r.named.getD k.snapT)
  | none => k.feedT

/-- The snapshot tempo that TLOW names, when it is not before `ts`. -/
def laterPoint (ts tlow : Nat) : Option Nat :=
  let d := (tlow + 65536 - ts % 65536) % 65536
  if d < 32768 then some ((ts + d) % 2 ^ 48) else none

/-- A restart hears of a snapshot point before its step 3: the later one counts (09/R337). -/
def Restart.hear (r : Restart) (ts tlow : Nat) : Restart :=
  if 3 ≤ r.step then r
  else match laterPoint (r.named.getD ts) tlow with
    | some t => { r with named := some t }
    | none => r

/-- A RESTART message (09/R336, R337). What a child reported closed counts no longer once it restarts again, or once another tempo
will be the first replayed. The status of a restart that a message begins is a free value (log 24). -/
def Hw.restartMessage (hw : Hw) (port j w : Nat) : Hw :=
  let k := hw.jobOf j
  let hw : Hw :=
    if k.restart.isSome then hw
    else
      let st := freeCode hw.fresh
      let hw := { hw with fresh := hw.fresh + 1 }
      if decide (hw.flt.maxRst ≤ k.noSnap) || k.jfull then hw.stopJob j st 0x1A else hw.beginRestart j st none none false
  let hw := ((hw.treePorts j).filter fun p => p != port).foldl (fun (h : Hw) p => h.sendCtrl p w) hw
  hw.modJob j fun k =>
    let k' : Job := { k with restart := k.restart.map fun r => r.hear k.snapT (fld w 20 5) }
    { k' with closedCh := if k'.closesT = k.closesT then sdel k.closedCh port else [] }

/-- A CTRL message arrives on a port. One that names another tempo than the one it can report, or comes from a port that is not
the tree's, is dropped (log 23). GCLOSED of the next tempo may come before the module has observed the done of this one. -/
def Hw.ctrlIn (hw : Hw) (port w : Nat) : Hw :=
  let j := fld w 4 3
  let t := fld w 20 5
  let k := hw.jobOf j
  let child := (hw.childrenOf j).contains port
  let parent := hw.parentOf j == port
  if !k.active || !k.fabric then hw
  else match fld w 2 0 with
    | 1 =>
      if child && t == k.closesT % 65536 then (hw.modJob j fun k => { k with closedCh := sins k.closedCh port }).treeUp j else hw
    | 2 =>
      if child && t == k.tempo % 65536 && k.restart.isNone then
        (hw.modJob j fun k => { k with doneCh := sins k.doneCh port }).treeUp j else hw
    | 3 =>
      if !parent || k.restart.isSome then hw
      else if t == k.tempo % 65536 then hw.modJob j fun k => { k with gClosed := true }
      else if t == (k.tempo + 1) % 65536 && k.phase == 3 then hw.modJob j fun k => { k with gNext := true }
      else hw
    | 4 => if parent && t == k.tempo % 65536 && k.restart.isNone then hw.modJob j fun k => { k with gDone := true } else hw
    | 5 => if child || parent then hw.restartMessage port j w else hw
    | _ => hw

/-! ### Reception (06/R229, R232, R234). -/

/-- ACK names the last frame that the other side has accepted: the replay buffer drops every frame up to it. -/
def Link.acked (l : Link) (a : Nat) : Link :=
  match (List.range l.replay.length).find? fun i => ((l.replay[i]?).map (·.seq)) == some a with
  | none => l
  | some i => { l with
      replay := l.replay.drop (i + 1), resends := l.resends.drop (i + 1)
      resendAt := l.resendAt.bind fun k => if k - (i + 1) < (l.replay.drop (i + 1)).length then some (k - (i + 1)) else none }

/-- An accepted frame as the port itself takes it. -/
def Link.accept (l : Link) (f : Frame) (now : Nat) : Link :=
  let l := ({ l with lastRx := f.seq, lastOk := now, ackOwed := true, credits := Nat.min 512 (l.credits + f.credit) }).acked f.ack
  if f.nak ∧ l.replay ≠ [] then { l with resendAt := some 0 } else l

/-- Received packets wait at the attachment square with the shorter queue, the lower among equals. -/
def Hw.rxPacket (hw : Hw) (n : Nat) (p : Packet) : Hw :=
  match portSquares n with
  | [] => hw
  | s :: rest =>
    let best := rest.foldl (fun b x => if (hw.rtOf x).edgeIn.length < (hw.rtOf b).edgeIn.length then x else b) s
    hw.modRt best fun r => { r with edgeIn := r.edgeIn ++ [{ p with link := some n }] }

/-- LINK_FRAME_RX, with the 512 bits that arrived; `first` and `second` are the marks of its packets, which their bits do
not show (07/R261, R266, log 169). -/
def Hw.frameRx (hw : Hw) (n v : Nat) (first second : PacketMark) : Hw :=
  let l := hw.linkOf n
  if !l.up then hw
  else match frameOf v with
    | none => hw.modLink n fun l => { l with
        crcErr := satAdd 0xFFFFFFFF l.crcErr 1, fitNow := satAdd 65535 l.fitNow 1, nakOwed := true }
    | some f =>
      if f.seq ≠ (l.lastRx + 1) % 4096 then hw.modLink n fun l => { l with nakOwed := true }
      else
        let hw := hw.modLink n fun l => l.accept f hw.elapsed
        let hw := (f.pkts.zipIdx).foldl (fun (h : Hw) (p : Packet × Nat) => h.rxPacket n { p.1 with mark := if p.2 = 0 then first else second }) hw
        hw.ctrlIn n f.ctrl

/-! ### A link that ends, lanes, training (06/R230, R233, 13/R437 to R440). -/

/-- LINK_RESEND_LIMIT: a frame that is not accepted has been resent eight times (06/R233). -/
def Hw.resendLimit (hw : Hw) (n : Nat) : Hw :=
  let l := hw.linkOf n
  if l.up ∧ l.resends.any (8 ≤ ·) ∧ l.replay ≠ [] then hw.linkDown n 1 else hw

/-- LINK_SILENCE_TIMEOUT: 2 µs have passed; a frame that arrives in the cycle in which they end counts (00/R18). -/
def Hw.silence (hw : Hw) (n : Nat) : Hw :=
  let l := hw.linkOf n
  if l.up ∧ l.replay ≠ [] ∧ l.lastOk + 2000 < hw.elapsed then hw.linkDown n 2 else hw

/-- LINK_UP: training has completed; the sender holds 512 credits. With two lanes failed the attempt ends with cause 3
(13/R437). -/
def Hw.linkUp (hw : Hw) (n : Nat) : Hw :=
  let l := hw.linkOf n
  if l.up || !l.en || !l.training || !(hw.isOn (domLink n)) then hw
  else if 2 ≤ l.failed.length then hw.modLink n fun l => { l with training := false, cause := 3 }
  else
    let hw := hw.modLink n fun l => { l with
      up := true, training := false, credits := 512, nextSeq := 0, replay := [], resendAt := none, resends := [], lastRx := 4095
      nakOwed := false, ackOwed := false, creditOwed := 0, ctrlQ := [], lastOk := hw.elapsed, lastSent := none }
    (hw.irq (192 + n)).noteBoth ⟨0x0B, 0, n, hw.tb.now, (hw.linkOf n).status, []⟩

/-- LINK_TRAINING_REQUEST: a port in service trains with its partner, its link down meanwhile (13/R437). CAUSE keeps its
value, since the request is none of the cases of 06/R233. -/
def Hw.trainRequest (hw : Hw) (n : Nat) : Hw :=
  let l := hw.linkOf n
  if l.en && decide (l.failed.length < 2) then
    (hw.linkDown n l.cause).modLink n fun l => { l with training := true }
  else hw

/-- LANE_RETRAIN_DONE: passed within its 2 ms, or failed. -/
def Hw.laneDone (hw : Hw) (n : Nat) (ok : Bool) : Hw := hw.laneRetrainEnd n ok

/-- LANE_RETRAIN_TIMEOUT: the 2 ms have passed; a retrain that ends in the cycle in which they end counts (00/R18). -/
def Hw.laneTimeout (hw : Hw) (n : Nat) : Hw :=
  let l := hw.linkOf n
  if l.rtRun ∧ l.rtAt + 2000000 < hw.elapsed then hw.laneRetrainEnd n false else hw

end Sys2Proof.Machine
end

