-- ==== Sys2Proof/Machine/Load.lean ====
section
/-! DEFINITION. Network images: the signed envelope, the body, the load of a square, and spill images (12/R417, R418,
13/R447 to R449, R454). -/

namespace Sys2Proof.Machine

/-! ### The envelope (13/T13-8, R448). -/

/-- The context string MERATH-NET of an image's signature. -/
def netContext : List Byte := [0x4D, 0x45, 0x52, 0x41, 0x54, 0x48, 0x2D, 0x4E, 0x45, 0x54]

/-- SHA3-512 of bytes, as the 64 bytes that digests are stored in. -/
def shaBytes (b : List Byte) : List Byte := leBytes 64 (Config.sha3 b).toNat

/-- The digest that a key class names (13/R448, R453). -/
def Hw.keyDigest (hw : Hw) (key : Nat) : Option (BitVec 512) :=
  if key = 0 then some Config.networkKeyDigest
  else if hw.fuses.keysUsed = 0 then none else some hw.fuses.keyInForce

/-- The envelope checks make an access that is held (12/R411, 01/R36). -/
def Hw.envHeld (hw : Hw) (addr : Nat) (len : Option Nat) : Bool :=
  inPsram addr envLen && !(len.any (· < envLen)) && !(hw.psramAbsent addr envLen) && hw.psramHeld addr (hw.envRange addr len)

/-- Checks 1 to 3 of 13/R448: the status, the envelope and the body. `len` and `key` are what IMAGE_CHECK asks for: a stated
length below that of the envelope fails check 1 with nothing read. -/
def Hw.envelope (hw : Hw) (addr : Nat) (len key : Option Nat) : Nat × List Byte × List Byte :=
  if !inPsram addr envLen || len.any (· < envLen) then (stBADPARAM, [], [])
  else if hw.psramAbsent addr envLen then (stABSENT, [], [])
  else
    let env := hw.rd addr envLen
    let n := leAt env 4 4
    let body := hw.rd (addr + envLen) n
    if hw.poisoned addr envLen then (stECC, [], [])
    else if !envelopeOk addr env || len.any (· != envLen + n) then (stBADPARAM, [], [])
    else if hw.psramAbsent addr (envLen + n) then (stABSENT, [], [])
    else if hw.poisoned addr (envLen + n) then (stECC, [], [])
    else
      let pk := (env.drop 128).take 2592
      if key.any (· != leAt env 3 1) || hw.keyDigest (leAt env 3 1) != some (Config.sha3 pk) then (stAUTH, [], [])
      else if !(Config.mlDsaVerify pk (env.take 2720) netContext ((env.drop 2720).take 4627))
          || shaBytes body != (env.drop 8).take 64 then (stAUTH, [], [])
      else (stOK, env, body)

/-- The life-cycle state accepts a key class (13/T13-11). -/
def lcAccepts (lc key : Nat) (enrolled : Bool) : Bool :=
  lc == 1 || lc == 3 || (lc == 2 && key == b2n enrolled)

/-! ### The body (12/T12-8). -/

/-- A section: target offset, length, offset of its data, KIND. -/
structure Section where
  target : Nat
  len    : Nat
  data   : Nat
  kind   : Nat
  deriving DecidableEq, Repr

def sectionAt (b : List Byte) (i : Nat) : Section :=
  let o := 64 + 16 * i
  ⟨leAt b o 4, leAt b (o + 4) 4, leAt b (o + 8) 4, leAt b (o + 12) 1⟩

def bodySections (b : List Byte) : List Section := (List.range (leAt b 4 2)).map (sectionAt b)

/-- POLICY, RATE and NSNAP of a body. -/
def bodyPolicy (b : List Byte) : Bool := (leAt b 3 1).testBit 0
def bodyRate (b : List Byte) : Nat := fld (leAt b 3 1) 2 1
def bodyNsnap (b : List Byte) (l : Nat) : Nat := leAt b (12 + 2 * l) 2

/-- Logical core L is present under a mapping of cores. -/
def presentIn (lmap : List (Nat × Nat)) (l : Nat) : Bool := decide (mget (if l < 16 then l else 31) lmap l < 19)

/-- The target of a section of KIND 0 or 1 lies in a range of 12/R417. -/
def targetOk (lmap : List (Nat × Nat)) (x : Section) : Bool :=
  let e := x.target + x.len
  decide (e ≤ 0x1000000) || decide (0x3000000 ≤ x.target ∧ e ≤ 0x3200000)
    || (decide (0x2000000 ≤ x.target ∧ e ≤ 0x2900000)
        && (List.range 18).all fun l =>
          decide (e ≤ 0x2000000 + 0x80000 * l ∨ 0x2000000 + 0x80000 * (l + 1) ≤ x.target) || presentIn lmap l)

/-- A register that a section of KIND 2 may write (12/R417). -/
def regTargetOk (lmap : List (Nat × Nat)) (off : Nat) : Bool :=
  off % 4 == 0 && (
    if 0x3810000 ≤ off ∧ off < 0x3820000 then presentIn lmap ((off - 0x3810000) / 0x1000)
    else if 0x3820000 ≤ off ∧ off < 0x3840000 then true
    else if 0x3870000 ≤ off ∧ off < 0x3872000 then presentIn lmap (16 + (off - 0x3870000) / 0x1000)
    else false)

/-- The register writes of a section of KIND 2: offset and value. -/
def sectionWrites (b : List Byte) (x : Section) : List (Nat × Nat) :=
  (List.range (x.len / 8)).map fun i => (leAt b (x.data + 8 * i) 4, leAt b (x.data + 8 * i + 4) 4)

def sectionOk (b : List Byte) (lmap : List (Nat × Nat)) (i : Nat) : Bool :=
  let x := sectionAt b i
  allZero ((b.drop (64 + 16 * i + 13)).take 3) && (x.kind == 1 || decide (x.data + x.len ≤ b.length)) && (
    if x.kind = 2 then x.target == 0 && x.len % 8 == 0 && (sectionWrites b x).all fun w => regTargetOk lmap w.1
    else decide (x.kind < 2) && targetOk lmap x)

/-- NSNAP is in range, zero for absent cores, and as 09/R326 fixes it under REMAP. -/
def nsnapOk (b : List Byte) (lmap : List (Nat × Nat)) : Bool :=
  let ns := (List.range 18).map (bodyNsnap b)
  ns.all (fun n => decide (n ≤ 16384)) && decide (ns.sum ≤ 262144)
    && (List.range 18).all (fun l => bodyNsnap b l == 0 || presentIn lmap l)
    && (bodyPolicy b || (List.range 18).all fun l => bodyNsnap b l == if l < 16 then 16384 else 0)

/-- Step 2 of 12/R417 on a body, for a mapping of the square's cores. -/
def bodyOk (b : List Byte) (lmap : List (Nat × Nat)) : Bool :=
  let n := leAt b 4 2
  let secs := bodySections b
  decide (64 ≤ b.length) && leAt b 0 2 == 0x4953 && leAt b 2 1 == 1 && leAt b 3 1 / 8 == 0 && bodyRate b != 3
    && decide (1 ≤ n ∧ n ≤ 4096) && allZero ((b.drop 6).take 2) && allZero ((b.drop 48).take 12)
    && leAt b 8 4 == b.length && decide (64 + 16 * n ≤ b.length) && leAt b 60 4 == crc32 (b.take 60)
    && (List.range n).all (sectionOk b lmap)
    && !(overlaps ((secs.filter fun x => x.kind != 2 && x.len != 0).map fun x => (x.target, x.target + x.len)))
    && nsnapOk b lmap

/-! ### The load (12/R417). -/

/-- What a LOAD_SQUARE has checked before it writes: the image digest, the body, and the spilled region if there is one. -/
structure LoadJob where
  digest : BitVec 512
  body   : List Byte
  spill  : Option (List Byte)
  deriving DecidableEq, Repr

/-- The region of a spill image (12/R418, 13/R449). -/
def Hw.spillRead (hw : Hw) (s a : Nat) : Nat × List Byte :=
  if a % 256 ≠ 0 ∨ !inPsram a spillLen then (stBADPARAM, [])
  else if hw.psramAbsent a spillLen then (stABSENT, [])
  else if hw.poisoned a spillLen then (stECC, [])
  else
    let h := hw.rd a 128
    let region := hw.rd (a + 128) tierSize
    let d := Config.sha3 region
    if leAt h 0 2 ≠ 0x4C53 ∨ leAt h 2 1 ≠ 1 ∨ leAt h 3 1 ≠ s ∨ !(allZero ((h.drop 4).take 60)) ∨ leAt h 64 64 ≠ d.toNat then
      (stBADPARAM, [])
    else if hw.fuses.lc = 2 ∧ !(hw.sec.spillDigest.contains d) then (stAUTH, [])
    else (stOK, region)

/-- Steps 1 to 3: nothing is written. -/
def Hw.loadChecks (hw : Hw) (s : Nat) (k : Task) : Nat × Option LoadJob :=
  let r := hw.envelope (k.param 8 5) none none
  if r.1 ≠ stOK then (r.1, none)
  else if !(lcAccepts hw.fuses.lc (leAt r.2.1 3 1) (hw.fuses.keysUsed != 0)) then (stLIFECYCLE, none)
  else
    let b := r.2.2
    let m := mapFor (bodyPolicy b) (hw.sqOf s).slotFence
    -- REMAP leaves no core absent: a row that it cannot map is the matter of step 3
    if !(bodyOk b (if m.2 then m.1 else [])) then (stBADPARAM, none)
    else if !m.2 then (stFENCED, none)
    else if (k.param 13 1).testBit 0 then
      let x := hw.spillRead s (k.param 16 5)
      if x.1 ≠ stOK then (x.1, none) else (stOK, some ⟨BitVec.ofNat 512 (leAt r.2.1 8 64), b, some x.2⟩)
    else (stOK, some ⟨BitVec.ofNat 512 (leAt r.2.1 8 64), b, none⟩)

/-- Step 4: the wipe; core registers, RTR_SENDL and LG_SLOT at reset, queues closed, tables and generations kept. -/
def Hw.loadReset (hw : Hw) (s : Nat) : Hw :=
  let hw := (hw.wipe (winBase s) 0x4000000).closeQueues s
  let hw := { hw with slot := hw.slot.filter fun p => p.1 / 19 != s }
  hw.modSq s fun q => { q with
    loaded := false, digest := 0, root := none, ledger := [], pendDir := [], oldDir := [], staged := [], usedSlots := []
    banks := [], rt := { q.rt with send := [] }
    flt := { q.flt with nsnap := [], dirty := [], pend := [], consPend := [], waiting := [] } }

/-- One section is written; the status of a register write that was not made ends the load. -/
def Hw.loadSection (hw : Hw) (s : Nat) (b : List Byte) (x : Section) : Hw × Nat :=
  if x.kind = 2 then
    (sectionWrites b x).foldl (fun (r : Hw × Nat) w => if r.2 ≠ stOK then r else r.1.sqWrite .other s w.1 w.2) (hw, stOK)
  else if x.kind = 1 then (hw, stOK)
  else
    let q := hw.sqOf s
    let data := (b.drop x.data).take x.len
    if 0x2000000 ≤ x.target ∧ x.target < 0x2900000 then
      ((List.range 18).foldl (fun (h : Hw) l =>
        let lo := 0x2000000 + 0x80000 * l
        let a := Nat.max lo x.target
        let e := Nat.min (lo + 0x80000) (x.target + x.len)
        if a < e then h.wr (storeAddr q s a) ((data.drop (a - x.target)).take (e - a)) else h) hw, stOK)
    else (hw.wr (winBase s + x.target) data, stOK)

/-- Step 5. A section of KIND 1 leaves the zeros of the wipe, since no two sections of KIND 0 and 1 overlap. -/
def Hw.loadSections (hw : Hw) (s : Nat) (b : List Byte) : Hw × Nat :=
  (bodySections b).foldl (fun (r : Hw × Nat) x => if r.2 ≠ stOK then r else r.1.loadSection s b x) (hw, stOK)

/-- The cores whose RULE_BASE the register sections write: those that get a rule image (05/R169). -/
def ruleCores (b : List Byte) : List Nat :=
  (((bodySections b).filter fun x => x.kind == 2).flatMap (sectionWrites b)).foldl (fun l w =>
    if 0x3810000 ≤ w.1 ∧ w.1 < 0x3820000 ∧ w.1 % 0x1000 = 0x208 then sins l ((w.1 - 0x3810000) / 0x1000)
    else if 0x3870000 ≤ w.1 ∧ w.1 < 0x3872000 ∧ w.1 % 0x1000 = 0x208 then sins l (16 + (w.1 - 0x3870000) / 0x1000)
    else l) []

/-- Every table image, rule image and send table of the square: start and length. -/
def Hw.imageParts (hw : Hw) (s : Nat) (rules : List Nat) : List (Nat × Nat) :=
  let cs := (hw.sqOf s).cores
  cs.map (fun l => ((hw.lslot s l).tblBase, tableSize)) ++ rules.map (fun l => ((hw.lslot s l).ruleBase, ruleSize))
    ++ cs.map (fun l => let v := mget 0 (hw.rtOf s).send l; (sendBase v, 8 * sendN v))

/-- The images that the registers name are in force, with the seeds of the rule images (03/R110, 05/R169, R182). -/
def Hw.loadImages (hw : Hw) (s : Nat) (rules : List Nat) : Hw :=
  (hw.sqOf s).cores.foldl (fun (h : Hw) l =>
    let t := (h.sampleImage s (h.lslot s l).tblBase tableSize).1
    let r := (h.sampleImage s (h.lslot s l).ruleBase ruleSize).1
    h.modL s l fun k => { k with
      table := some t, rule := if rules.contains l then some r else none
      lfsr := if rules.contains l then BitVec.ofNat 32 (ruleSeed r.bytes) else k.lfsr }) hw

/-- The first status of a list that is not OK. -/
def firstBad (l : List Nat) : Nat := (l.find? (· != stOK)).getD stOK

/-- Step 6: the checks in their order, on the images in force. A table image that passes the end of square memory has no check
of its own in the spec; it fails with BAD_PARAM in its core's place, before Table 3-9 reads it, and a rule image so before Table 5-4 (log 167). -/
def Hw.loadedStatus (hw : Hw) (s : Nat) (rules : List Nat) : Nat :=
  let cs := (hw.sqOf s).cores
  let img : Nat → List Byte := fun l => match (hw.lslot s l).table with | some i => i.bytes | none => []
  let rOutside := rules.any fun l => decide (0x200000 < (hw.lslot s l).ruleBase + ruleSize)
  let bad := hw.synBad s (hw.imageParts s rules)
  if cs.any (fun l => hw.inertBad s l (img l)) || bad.contains 0 then stBADPARAM
  else firstBad (
    (cs.map fun l => if 0x200000 < (hw.lslot s l).tblBase + tableSize then stBADPARAM else tableCheck (img l) (fun i => hw.nrec s l i) ((hw.sqOf s).flt.nsnapOf l) (hw.r92Bad s l (img l)))
    ++ [rowStatus bad, if cs.any (fun l => hw.sendBad s l) then stBADPARAM else stOK, if rOutside then stBADPARAM else stOK,
      ruleStatus (rules.flatMap fun l => match (hw.lslot s l).rule with | some i => hw.ruleBad s l i.bytes | none => [])])

/-- Steps 4 to 6 of a load: the new state and the status of the task. A failure leaves the square wiped. -/
def Hw.loadWrite (hw : Hw) (s : Nat) (x : LoadJob) : Hw × Nat :=
  let hw := (hw.loadReset s).setPolicy s (bodyPolicy x.body)
  let ns := (List.range 18).map fun l => (l, bodyNsnap x.body l)
  let hw := hw.modFlt s fun f => { f with rate := bodyRate x.body, nsnap := ns }
  let r := hw.loadSections s x.body
  if r.2 ≠ stOK then (r.1.loadReset s, r.2)
  else
    let hw : Hw := match x.spill with | some b => r.1.wr (synTier s) b | none => r.1
    let rules := (ruleCores x.body).filter fun l => (hw.sqOf s).hasCore l
    let hw := hw.loadImages s rules
    let st := hw.loadedStatus s rules
    if st ≠ stOK then (hw.loadReset s, st)
    else
      let used := rules.flatMap fun l => hw.usedOf s l
      let hw := hw.modSq s fun q => { q with
        loaded := true, digest := x.digest, usedSlots := used.foldl (fun m u => mset m u.1 u.2) [] }
      (hw.setRtState s .normal, stOK)

/-! ### Spill images (12/R418, 13/R449). -/

/-- The spill image of a square's synapse tier region. -/
def Hw.spillImage (hw : Hw) (s : Nat) : List Byte :=
  let region := hw.rd (synTier s) tierSize
  leBytes 2 0x4C53 ++ leBytes 1 1 ++ leBytes 1 s ++ List.replicate 60 0 ++ shaBytes region ++ region

/-- What a spill reads: the synapse tier region. -/
def spillReads (s : Nat) : List (Nat × Nat) := [(synTier s, tierSize)]

/-- Why the spill image of a square cannot be made: a word of its tier is uncorrectable, and never used (09/R307, 12/R404), or a
quarter of the tier is OFF (12/R396). -/
def Hw.spillStatus (hw : Hw) (s : Nat) : Nat := hw.readStatus s (spillReads s)

/-- Write the spill image of a square, whose bank groups come ON for it, and record its digest; the engine keeps 64. -/
def Hw.spillWrite (hw : Hw) (s a : Nat) : Hw :=
  if hw.spillStatus s ≠ stOK then hw
  else
    let hw := hw.checkReads s (spillReads s)
    let img := hw.spillImage s
    let d := Config.sha3 (hw.rd (synTier s) tierSize)
    let l := hw.sec.spillDigest ++ [d]
    let hw := (hw.wr a img).unpoison a img.length
    { hw with sec := { hw.sec with spillDigest := l.drop (l.length - 64) } }

end Sys2Proof.Machine
end

