-- ==== Sys2Proof/Machine/Tasks.lean ====
section
/-! DEFINITION. The arbiter's choice and the start of every task type, the end of drains and checks, deadlines and waits
(08/R271 to R284, R302, 01/R42, 02/R63, 05/R184, 06/R228, 09/R318, R322, 12/R417). -/

namespace Sys2Proof.Machine

/-! ### TEMPO_RUN (08/R272, R273, R276, R281, 09/R322). -/

/-- FLAGS and fields of Table 8-3. -/
def Task.resume (k : Task) : Bool := (k.param 14 1).testBit 0
def Task.fabric (k : Task) : Bool := (k.param 14 1).testBit 1

/-- A parameter, or the default that 0 selects. -/
def orDefault (v d : Nat) : Nat := if v = 0 then d else v

/-- The job slot as a TEMPO_RUN task writes it; FLT_SNAPj, FLT_RSTj and FLT_OUTj become zero (09/R321). -/
def newJob (old : Job) (t : Nat) (k : Task) : Job :=
  let b := orDefault (k.param 20 2) 32
  { active := true, tid := t, jobId := k.param 0 4, mask := k.mask, ntempo := k.param 4 4, t0 := k.param 8 6, fabric := k.fabric
    snapIv := orDefault (k.param 15 1) 8, startAt := k.param 24 8, period := orDefault (k.param 16 4) 50000
    bound := b, boundNext := b, boundLatch := b, origin := old.origin, tempo := k.param 8 6, inTempo := k.param 8 6, overrun := old.overrun
    run := old.run + 1 }

/-- The first number above 3 of slot j that keeps no record aside. -/
def Hw.asideAt (hw : Hw) : Nat → Nat → Nat
  | 0, i => i
  | n + 1, i => if (hw.jobOf i).pendHdr.isNone then i else hw.asideAt n (i + 4)

/-- A job whose last record still awaits its output events makes way for the next job of its slot (02/R79). -/
def Hw.setAside (hw : Hw) (j : Nat) : Hw :=
  let k := hw.jobOf j
  if k.pendHdr.isNone then hw else hw.modJob (hw.asideAt (hw.jobs.length + 1) (j + 4)) fun _ => k

/-- A running job has a square of a mask. -/
def Hw.jobOverlap (hw : Hw) (m : Nat) : Bool := [0, 1, 2, 3].any fun j => (hw.jobOf j).active && ((hw.jobOf j).mask &&& m) != 0

/-- The state of a square at the start of a job (04/R133, 08/R292, 09/R494). The send tables do not change during it (06/R222): the
square keeps them as they are read now (DESIGN CHOICE, log 188). -/
def Hw.squareJoin (hw : Hw) (s : Nat) : Hw :=
  let root := hw.rd (sqMem s + 0x1FFFC0) 64
  let hw := hw.modSq s fun q => { q with
    root := some root, sends := q.cores.map fun l => (l, hw.sendTable s l)
    wdogCount := 0, dvfsNext := 0, busyHist := [], pauses := 0, inUpdate := false, moved := [], left := []
    flt := { q.flt with waiting := [], sampled := 0 } }
  (hw.sqOf s).cores.foldl (fun (h : Hw) l => h.modL s l fun k => { k with
    fire := [], modSum := [], laneHalf := 0, wide := 0, plastic := 0, sop := 0, updating := false, phaseA := false
    phaseB := false }) hw

/-- Streams and CSI-2 ports with the job's JOB_ID join it (10/R359, 14/R488). -/
def Hw.sourcesJoin (hw : Hw) (j id : Nat) : Hw :=
  { hw with
    kz := { hw.kz with streams := hw.kz.streams.map fun (p : Nat × Stream) =>
      (p.1, if p.2.enable && p.2.jobId == id then { p.2 with joined := some j } else p.2) }
    csi := hw.csi.map fun (p : Nat × CsiPort) =>
      (p.1, if p.2.en && p.2.jobId == id then { p.2 with joined := some j, fresh := false, refOk := false, refPix := [], stime := 0 } else p.2) }

/-- Why a TEMPO_RUN cannot run on its squares: no sweep, a fenced square, a square without a network (02/R63, 01/R23,
08/R278). -/
def Hw.runRefused (hw : Hw) (k : Task) : Nat :=
  if !(hw.seq.sweeps.contains (k.param 0 4)) then stBADPARAM
  else if k.sqs.any fun s => (hw.sqOf s).fenced then stFENCED
  else if k.sqs.any fun s => !(hw.sqOf s).loaded then stBADPARAM
  else stOK

/-- A square of the task whose synapse root or send table cannot be read at the job's start, with the fault (04/R133, 06/R222,
12/R404). -/
def Hw.rootLost (hw : Hw) (k : Task) : Option (Nat × FaultInfo) := k.sqs.findSome? fun s =>
  (((hw.eccAt (sqMem s + 0x1FFFC0) 64).or ((hw.sqOf s).cores.findSome? fun l => (hw.sendRange s l).bind fun x => hw.eccAt x.1 x.2))).map
    fun f => (s, f)

/-- CONSOLIDATE tasks that became READY before their job ran are bound as it starts (05/R184). -/
def Hw.bindReady (hw : Hw) (j : Nat) : Hw :=
  (hw.seq.tasks.filter fun p => p.2.state == .ready && p.2.ty == tyConsolidate).foldl (fun (h : Hw) p =>
    if h.bindJob p.2 = some j then h.bind p.1 p.2 else h) hw

/-- The start of a TEMPO_RUN task. -/
def Hw.startRun (hw : Hw) (t : Nat) (k : Task) : Hw :=
  if hw.jobOverlap k.mask then hw.taskEnd t stBUSY
  else match hw.freeSlot with
    | none => hw
    | some j =>
      let hw := hw.modTask t fun k => { k with jslot := j }
      let hw := (hw.setAside j).modJob j fun old => newJob old t k
      let st := hw.runRefused k
      if st ≠ stOK then hw.taskEnd t st
      else match hw.rootLost k with
      | some (s, f) => ((hw.pathDrop { f with sq := some s }).faultRecord { f with sq := some s }).taskEnd t f.status
      | none =>
        let hw := forAll k.sqs (fun s h => (h.useBanks s [19]).squareJoin s) hw
        let hw := hw.sourcesJoin j (k.param 0 4)
        let hw := forAll k.sqs (fun s h => h.nextPoint s (if k.cls = 0 then 0 else h.idlePoint s)) hw
        let hw := forAll k.sqs (fun s h => h.ledgerStart s j (hw.jobOf j).t0) hw
        (hw.firstPoint j).bindReady j

/-! ### Tasks of a running job (08/R277, R278, 05/R184, 09/R328, R331). -/

/-- The start of a CONSOLIDATE task: one that could not be bound when it became READY is bound now. -/
def Hw.startConsolidate (hw : Hw) (t : Nat) (k : Task) : Hw :=
  match hw.bindJob k with
  | none => hw.taskEnd t stBADPARAM
  | some j => if (hw.jobOf j).bindings.any fun b => b.tid == t then hw else hw.bind t k

/-- The start of a SNAPSHOT task. -/
def Hw.startSnapshot (hw : Hw) (t : Nat) (k : Task) : Hw :=
  match hw.jobById (k.param 0 4) with
  | none => hw.taskEnd t stBADPARAM
  | some j => hw.modTask t fun k => { k with jslot := j, snapT := none }

/-- A SWEEP task. -/
def Hw.startSweep (hw : Hw) (t : Nat) (k : Task) : Hw :=
  let id := k.param 0 4
  if hw.seq.sweeps.contains id then hw.taskEnd t stOK
  else if 4 ≤ hw.seq.sweeps.length then hw.taskEnd t stBUSY
  else ({ hw with seq := { hw.seq with sweeps := hw.seq.sweeps ++ [id] } }).taskEnd t stOK

/-- Input entries of a job slot wait for a journal page. -/
def Hw.inWaiting (hw : Hw) (j : Nat) : Bool := !(mget [] hw.psc.inWait j).isEmpty

/-- The start of a JOURNAL_FLUSH task: the released entries of the job that the journal still holds go to pages. -/
def Hw.startFlush (hw : Hw) (t : Nat) (k : Task) : Hw :=
  match hw.jobById (k.param 0 4) with
  | none => hw.taskEnd t stBADPARAM
  | some j =>
    let ws := releasedWords (hw.journal.filter fun e => e.slot == j && e.free)
    let hw := { hw with psc := { hw.psc with inWait := mupd [] hw.psc.inWait j (· ++ ws.map (leBytes 8)) } }
    let hw := hw.modTask t fun k => { k with jslot := j }
    if hw.inWaiting j then hw else hw.taskEnd t stOK

/-- Every page of a job's flush is written: its tasks end. -/
def Hw.flushDone (hw : Hw) (j : Nat) : Hw :=
  let l := hw.seq.tasks.filter fun p => p.2.state == .running && p.2.ty == tyFlush && p.2.jslot == j
  l.foldl (fun (h : Hw) p => h.taskEnd p.1 stOK) hw

/-! ### Squares that drain, load, resume (06/R228, 12/R417). -/

/-- Every reply that a draining square owes has been accepted by its router, also those to accesses that are held. -/
def Hw.owesNothing (hw : Hw) (s : Nat) : Bool :=
  hw.repliesOut s && !(hw.heldAcc.any fun h => h.square == s && h.pkt.isSome)


/-- The spill image of a square lies 256-byte aligned in PSRAM (12/R418). -/
def spillFits (k : Task) (s : Nat) : Bool := spillAt k s % 256 == 0 && inPsram (spillAt k s) 0x1000080

/-- The spill image of a square of a DRAIN_SQUARE task is written, or waits for PSRAM (12/R411). On a channel that has failed it
is not written (12/R412), nor where its region cannot be read (log 178). -/
def Hw.saveSpill (hw : Hw) (t s : Nat) (k : Task) : Hw :=
  let a := spillAt k s
  let n := spillLen
  let ends : Nat → Hw := fun st => hw.modTask t fun k => { k with memSt := if k.memSt = stOK then st else k.memSt }
  if hw.psramHeld a n then (hw.modTask t fun k => { k with memWait := sins k.memWait s }).wakePsram a n
  else if hw.psramAbsent a n then ends stABSENT
  else if hw.spillStatus s ≠ stOK then ends (hw.spillStatus s)
  else (hw.spillWrite s a).touchPsram a n

/-- A square of a DRAIN_SQUARE task becomes absent: its spill image is written, its network is no longer loaded, its queues
close. -/
def Hw.drained (hw : Hw) (t s : Nat) (k : Task) : Hw :=
  let hw := if (k.param 13 1).testBit 0 then hw.saveSpill t s k else hw
  (hw.closeQueues s).modSq s fun q => { q with loaded := false }

/-- The running task of a type that holds a square. -/
def Hw.holderOf (hw : Hw) (ty s : Nat) : Option (Nat × Task) :=
  hw.seq.tasks.find? fun p => p.2.state == .running && p.2.ty == ty && p.2.mask.testBit s

/-- A DRAIN_SQUARE task ends once every square of its mask is ABSENT and no spill image waits, with the status of the first that
could not be made. -/
def Hw.drainEnd (hw : Hw) (t : Nat) : Hw :=
  match hw.taskOf t with
  | some k =>
    if k.state = .running ∧ k.memWait = [] ∧ (k.sqs.all fun s => (hw.rtOf s).state == .absent) then hw.taskEnd t k.memSt else hw
  | none => hw

/-- What a LOAD_SQUARE task reads from PSRAM: its image, and a spill image. -/
def Hw.loadReads (hw : Hw) (k : Task) : List (Nat × Nat) :=
  (k.param 8 5, hw.envRange (k.param 8 5) none) ::
    (if (k.param 13 1).testBit 0 && inPsram (k.param 16 5) spillLen && (hw.envelope (k.param 8 5) none none).1 == stOK then
      [(k.param 16 5, spillLen)] else [])

/-- A LOAD_SQUARE task makes an access to PSRAM that is held (12/R411, 01/R36). -/
def Hw.loadHeld (hw : Hw) (k : Task) : Bool :=
  hw.envHeld (k.param 8 5) none || ((hw.loadReads k).drop 1).any fun x => hw.psramHeld x.1 x.2

/-- The task waits for PSRAM. -/
def Hw.loadWait (hw : Hw) (t s : Nat) (k : Task) : Hw :=
  (hw.loadReads k).foldl (fun (h : Hw) x => h.wakePsram x.1 x.2) (hw.modTask t fun k => { k with memWait := [s] })

/-- The task's reads count as use of PSRAM (08/R296). -/
def Hw.touchLoad (hw : Hw) (k : Task) : Hw :=
  ((hw.loadReads k).filter fun x => inPsram x.1 x.2).foldl (fun (h : Hw) x => h.touchPsram x.1 x.2) hw

/-- The load of a square that has become absent. -/
def Hw.loadNow (hw : Hw) (t s : Nat) (k : Task) : Hw :=
  if hw.loadHeld k then hw.loadWait t s k
  else
    let hw := hw.touchLoad k
    let r := hw.loadChecks s k
    match r.2 with
    | none => hw.taskEnd t r.1
    | some x =>
      let y := hw.loadWrite s x
      y.1.taskEnd t y.2

/-- A draining square moves to ABSENT, and an armed version flips in; then the task that drained it goes on. -/
def Hw.becomeAbsent (hw : Hw) (s : Nat) : Hw :=
  let hw := (hw.setRtState s .absent).flipArmed
  match hw.holderOf tyDrain s, hw.holderOf tyLoad s with
  | some (t, k), _ => (hw.drained t s k).drainEnd t
  | none, some (t, k) => hw.loadNow t s k
  | none, none => hw

/-- SQUARE_ABSENT. -/
def Hw.squareAbsent (hw : Hw) (s : Nat) : Hw :=
  if (hw.rtOf s).state = .draining && hw.owesNothing s then hw.becomeAbsent s else hw

/-- The start of a DRAIN_SQUARE task. Squares that owe no reply become absent at once. -/
def Hw.startDrain (hw : Hw) (t : Nat) (k : Task) : Hw :=
  if hw.jobOverlap k.mask then hw.taskEnd t stBUSY
  else if (k.param 13 1).testBit 0 && !(k.sqs.all (spillFits k)) then hw.taskEnd t stBADPARAM
  else
    let hw := forAll k.sqs (fun s h => if (h.rtOf s).state = .absent && !(h.sqOf s).fused && !(h.sqOf s).fenced then h.drained t s k else h.drain s) hw
    (forAll k.sqs (fun s h => h.squareAbsent s) hw).drainEnd t

/-- A LOAD_SQUARE or RESUME_SQUARE task does not start on a running job's square, or on one fused off or fenced (08/R278). -/
def Hw.squareRefused (hw : Hw) (k : Task) : Nat :=
  if hw.jobOverlap k.mask then stBUSY
  else if k.sqs.any fun s => (hw.sqOf s).fused || (hw.sqOf s).fenced then stABSENT
  else stOK

/-- The start of a LOAD_SQUARE task: the checks come first, then a square that is reloaded drains, then it is written
(06/R228). -/
def Hw.startLoad (hw : Hw) (t : Nat) (k : Task) : Hw :=
  let st := hw.squareRefused k
  if st ≠ stOK then hw.taskEnd t st
  else match k.sqs with
    | [] => hw.taskEnd t stBADPARAM
    | s :: _ =>
      let r := hw.loadChecks s k
      if hw.loadHeld k then hw.loadWait t s k
      else if r.1 ≠ stOK then (hw.touchLoad k).taskEnd t r.1
      else if (hw.rtOf s).state = .absent ∨ !(hw.sqOf s).loaded then hw.loadNow t s k
      else ((hw.touchLoad k).drain s).squareAbsent s

/-- A RESUME_SQUARE task. A SEND that waited for the square to come back looks again. -/
def Hw.startResume (hw : Hw) (t : Nat) (k : Task) : Hw :=
  let st := hw.squareRefused k
  if st ≠ stOK then hw.taskEnd t st
  else
    let hw := forAll k.sqs (fun s h => h.setRtState s .normal) hw
    let hw := forAll k.sqs (fun s h => forAll (List.range 18) (fun l h => forAll [0, 1, 2, 3] (fun c h => h.sendWake s l c) h) h) hw
    hw.taskEnd t stOK

/-! ### CHECK (09/R318). -/

/-- FLT_CHKSEED after the 64 steps before a run. -/
def chkStep (x : Word) : Nat → Word
  | 0 => x
  | n + 1 => chkStep (lfsrStep x) n

def Hw.chkRun (hw : Hw) : Hw := { hw with flt := { hw.flt with chkSeed := chkStep hw.flt.chkSeed 64 } }

/-- A slot has failed its known-answer work: it is permanent and fenced at once, with a record. -/
def Hw.knownFail (hw : Hw) (s p : Nat) : Hw :=
  if (hw.sqOf s).slotFence.contains p then hw
  else
    let hw := hw.fenceSlot s p
    hw.faultRecord { det := 0x18, sq := some s, slot := p, action := 32 + 2 + (if (hw.sqOf s).fenced then 4 else 0) }

/-- The start of a CHECK task: each square's run steps the seed. -/
def Hw.startCheck (hw : Hw) (t : Nat) (k : Task) : Hw :=
  if hw.jobOverlap k.mask then hw.taskEnd t stBUSY
  else forAll (k.sqs.filter fun s => (hw.sqOf s).usable) (fun _ h => h.chkRun) hw

/-- TASK_END of a task whose work goes on by itself: a CHECK task, while no clock of its squares is gated (08/R287), ends with
what its runs found, the slots that failed as pairs of square and slot; the other types end by the events that their rules name. -/
def Hw.taskFinish (hw : Hw) (t : Nat) (fails : List (Nat × Nat)) : Hw :=
  match hw.taskOf t with
  | some k =>
    if k.state = .running ∧ k.ty = tyCheck ∧ !(k.sqs.any fun s => (hw.sqOf s).gated) then
      let real := fails.filter fun f => k.mask.testBit f.1 && decide (f.2 < 19) && (hw.sqOf f.1).usable
        && !((hw.sqOf f.1).slotFence.contains f.2)
      let hw := real.foldl (fun (h : Hw) f => h.knownFail f.1 f.2) hw
      hw.taskEnd t (if real = [] then stOK else stFENCED)
    else hw
  | none => hw

/-! ### DMA, REPORT and doorbells. -/

/-- The channel that a DMA task takes: its own, or the lowest free one from 12 to 15. -/
def Hw.dmaChannel (hw : Hw) (k : Task) : Option Nat :=
  let want := k.param 0 1
  firstOf [12, 13, 14, 15] fun c => (want == 0xFF || want == c) && !(hw.dmaOf c).run

/-- The start of a DMA task. -/
def Hw.startDma (hw : Hw) (t : Nat) (k : Task) : Hw :=
  match hw.dmaChannel k with
  | none => hw
  | some c =>
    let hw := hw.modTask t fun k => { k with chan := c }
    (hw.modDma c fun d => { d with desc := k.param 8 5 }).dmaStart c (some t)

/-- A REPORT task: CODE and DATA go out as a notification. -/
def Hw.startReport (hw : Hw) (t : Nat) (k : Task) : Hw :=
  (hw.noteBoth ⟨5, 0, t, hw.tb.now, k.param 0 2, sliceB k.desc 48 16⟩).taskEnd t stOK

/-- A task starts by its type (08/T8-2). WAIT_TIME goes on until its time has come. -/
def Hw.startByType (hw : Hw) (t : Nat) (k : Task) : Hw :=
  match k.ty with
  | 1 => hw.startRun t k
  | 2 => hw.startSnapshot t k
  | 3 => hw.startConsolidate t k
  | 4 => hw.startDma t k
  | 5 => hw.startLoad t k
  | 6 => hw.startDrain t k
  | 7 => hw.startResume t k
  | 8 => hw.startCheck t k
  | 9 => hw.startSweep t k
  | 10 => hw.startFlush t k
  | 12 => hw.dbConsume (k.param 0 1)
  | 13 => hw.startReport t k
  | _ => hw

/-! ### The arbiter (08/R282 to R284, R290, R291). -/

/-- The resources of Table 8-6 are free for a task. -/
def Hw.resourcesFree (hw : Hw) (k : Task) : Bool :=
  let busy := hw.seq.tasks.any fun p => p.2.state == .running && p.2.ty != tyTempoRun && p.2.takesSquares && (p.2.mask &&& k.mask) != 0
  if k.takesSquares && busy then false
  else if k.ty = tyTempoRun then hw.jobOverlap k.mask || hw.freeSlot.isSome
  else if k.ty = tyDmaTask then (hw.dmaChannel k).isSome
  else true

/-- The absolute deadline, if there is one (08/R279). -/
def Task.dueAt (k : Task) : Option Nat := if k.deadline = 0 ∨ k.ty = tyTempoRun then none else some (k.readyAt + 1000 * k.deadline)

/-- The order of 08/R283 among tasks that pass: class, deadline, TID. -/
def Task.orderKey (k : Task) (t : Nat) : Nat := k.cls * 2 ^ 96 + (k.dueAt.getD (2 ^ 80)) * 2 ^ 12 + t

def insertTask (x : Nat × Task) : List (Nat × Task) → List (Nat × Task)
  | [] => [x]
  | a :: r => if x.2.orderKey x.1 < a.2.orderKey a.1 then x :: a :: r else a :: insertTask x r

/-- READY tasks that could start in this cycle but for energy, in the order of 08/R283. -/
def Hw.eligible (hw : Hw) : List (Nat × Task) :=
  let l := hw.seq.tasks.filter fun p => p.2.state == .ready && hw.resourcesFree p.2 && !(hw.bud.trip && p.2.takesSquares)
    && (p.2.cls == 0 || !(p.2.sqs.any fun s => hw.bud.hot.contains s))
  l.foldl (fun a x => insertTask x a) []

/-- A task that fails the energy test waits; a class-2 task's first such cycle is notified (08/R284). -/
def Hw.deferTask (hw : Hw) (t : Nat) (k : Task) : Hw :=
  let hw := hw.modTask t fun k => { k with deferred := true, episode := true }
  if k.cls = 2 && !k.episode then
    let hw := (({ hw with bud := { hw.bud with defer := true } } : Hw).rise .budget 1).irq 2
    hw.noteBoth ⟨4, stDEFER, t, hw.tb.now, toField 64 hw.avail, []⟩
  else hw

/-- A task becomes RUNNING. -/
def Hw.launch (hw : Hw) (t : Nat) (k : Task) : Hw :=
  let hw := hw.modTask t fun k => { k with state := .running, time := hw.tb.now, episode := false }
  let hw := if k.takesSquares && k.ty != tyTempoRun then hw.repoint k.mask else hw
  ((hw.startByType t { k with state := .running }).wakeAhead).throttleTest.noteAvail

/-- TASK_START: one SEQ cycle of the arbiter. Tasks that fail the energy test are deferred; the domains of those that could
start are brought ON; the first whose domains are ON starts. -/
def Hw.seqCycle (hw : Hw) : Hw :=
  if !hw.seq.run then hw
  else
    let l := hw.eligible
    let pass := l.filter fun p => p.2.cls == 0 || hw.passes p.2
    let fail := l.filter fun p => p.2.cls != 0 && !(hw.passes p.2)
    let hw := fail.foldl (fun (h : Hw) p => h.deferTask p.1 p.2) hw
    let on : Task → Bool := fun k => (hw.taskDomains k).all fun d => hw.isOn d
    let hw := (pass.filter fun p => !(on p.2)).foldl (fun (h : Hw) p => h.wakeFor p.2) hw
    match pass.find? fun p => on p.2 with
    | some (t, k) => hw.launch t k
    | none => hw.noteAvail

/-! ### Waits and deadlines (08/R271, R279, R302). -/

/-- WAIT_TIME_EXPIRY. -/
def Hw.waitExpiry (hw : Hw) (t : Nat) : Hw :=
  match hw.taskOf t with
  | some k => if k.state = .running ∧ k.ty = tyWaitTime ∧ k.waitUntil ≤ hw.tb.now then hw.taskEnd t stOK else hw
  | none => hw

/-- WAIT_TIME_LEAD_REACHED: what waits for the task becomes imminent. -/
def Hw.leadReached (hw : Hw) (t : Nat) : Hw :=
  match hw.taskOf t with
  | some k =>
    if k.state = .running ∧ k.ty = tyWaitTime ∧ k.waitUntil ≤ hw.tb.now + 1000 * hw.bud.leadUs then hw.wakeAhead else hw
  | none => hw

/-- TASK_DEADLINE: LATE is set, and one notification goes out. In the very ns of the deadline the task may still end and not
be late (00/R18). -/
def Hw.taskDeadline (hw : Hw) (t : Nat) : Hw :=
  match hw.taskOf t with
  | some k =>
    match k.dueAt with
    | some d =>
      if k.state ≠ .waiting ∧ !k.state.ended ∧ !k.lateSent ∧ d < hw.tb.now then
        ((hw.modTask t fun k => { k with late := true, lateSent := true }).irq 1).noteBoth ⟨3, stLATE, t, hw.tb.now, d, []⟩
      else hw
    | none => hw
  | none => hw

end Sys2Proof.Machine
end

