-- ==== Sys2Proof/Machine/Repair.lean ====
section
/-! DEFINITION. Corrected errors, row repair, PSRAM retraining and the incident journal (09/R306, 12/R402 to R405, R410 to R416). -/

namespace Sys2Proof.Machine

/-! ### Units. -/

def sqOfUnit (u : Nat) : Option Nat := if u < 64 then some u else none

/-- An error in a unit's SRAM falls in a running job: that of the square, or any job of the module for a unit outside the squares,
which serves all of them (09/R304, log 161). -/
def Hw.unitInJob (hw : Hw) (u : Nat) : Bool := if u < 64 then (hw.jobOfSq u).isSome else hw.anyJob

/-! ### Corrected errors (09/R306). -/

/-- SQF_ECC of a square, or the field of FLT_ECC of a unit outside the squares. -/
def Hw.countEcc (hw : Hw) (u : Nat) : Hw :=
  if u < 64 then
    (hw.modFlt u fun f => { f with eccCount := satAdd 0xFFFF f.eccCount 1, sticky := f.sticky ||| 2 ^ 22 }).rise (.faults u) (2 ^ 22)
  else { hw with flt := { hw.flt with ecc := mupd 0 hw.flt.ecc (u - 64) (satAdd 255 · 1) } }

/-- Corrected reads of a row that its 10 s still hold (12/R403). -/
def recent (now : Nat) (l : List Nat) : List Nat := l.filter fun t => decide (now ≤ t + 10000000000)

/-- The unit of a record outside the squares. -/
def outUnit (u g : Nat) : Option (Nat × Nat) := if u < 64 then none else some (u, g)

/-- The fault of a detector in a unit's SRAM: it takes the square's job onto the restart path, or every running job where a unit
outside the squares is concerned (09/R304, T9-1, log 161). -/
def Hw.unitFaults (hw : Hw) (u : Nat) (f : FaultInfo) : Hw :=
  if u < 64 then hw.jobFault { f with job := hw.jobOfSq u, sq := some u }
  else hw.allJobsFault f

/-- The bank has added the parity `par` to word i of the row, corrected to `w`. Where it does not hold, the unit that uses the word
meets it: for a word of a bank group or a snapshot unit that is the next read of the word, for any other SRAM now (09/R306). -/
def Hw.handOver (hw : Hw) (u g b r i : Nat) (w : DWord) (par : BitVec 4) : Hw :=
  if pathOk w par then hw
  else if u < 64 ∧ (isBank u g b ∨ (g = groupUnit ∧ (unitOfRow b r).isSome)) then
    { hw with banks := { hw.banks with path := sins hw.banks.path (rowAddr u g b r / 8 + i) } }
  else if u < 64 then hw.unitFaults u (hw.pathFind u g b r)
  else hw.unitFaults u { det := 0x04, status := stPARITY, detail := repairDetail u g b r, unit := outUnit u g }

/-- ECC_WRITEBACK: the word is stored corrected, so memory reads as before; the error is counted, and noted for the row.
Outside a running job the detector writes a record (09/R304). `used` is the word as its bank hands it to the unit that uses it. -/
def Hw.eccWriteback (hw : Hw) (u g b r : Nat) (used : Option (Fin 16 × DWord × BitVec 4)) : Hw :=
  let hw := hw.countEcc u
  let hw := { hw with banks := { hw.banks with corr := mupd [] hw.banks.corr (rowKey u g b r) fun l => recent hw.tb.now l ++ [hw.tb.now] } }
  let hw := if hw.unitInJob u then hw
    else hw.faultRecord { det := 0x05, sq := sqOfUnit u, detail := repairDetail u g b r, unit := outUnit u g }
  match used with
  | some (i, w, par) => hw.handOver u g b r i w par
  | none => hw

/-! ### Row repair (12/R403 to R405). -/

/-- A row is repaired at once after an uncorrectable read, or after four corrected ones within 10 s. -/
def Hw.repairDue (hw : Hw) (u g b r : Nat) (uncorr : Bool) : Bool :=
  uncorr || decide (4 ≤ (recent hw.tb.now (mget [] hw.banks.corr (rowKey u g b r))).length)

/-- Poison the words with the given numbers in the row. -/
def Hw.poisonRow (hw : Hw) (u g b r : Nat) (ws : List Nat) : Hw :=
  let base := rowAddr u g b r / 8
  { hw with banks := { hw.banks with poison := (ws.filter fun w => decide (w < rowLen g / 8)).foldl (fun p w => sins p (base + w)) hw.banks.poison } }

/-- Snapshot units that a row overlaps (12/R404). -/
def Hw.rowUnits (hw : Hw) (u g b r : Nat) : List SnapUnit :=
  let a := rowAddr u g b r
  if g < 19 then
    match (hw.sqOf u).coreFor g with
    | some l => [.row l ((a - slotState u g) / 512)]
    | none => []
  else if 20 ≤ g ∧ g < 24 then
    let o := a - synTier u
    if 0xA00000 ≤ o ∧ o < 0x1000000 then [.plastic ((o - 0xA00000) / 256)] else []
  else if g = groupUnit then (unitOfRow b r).toList
  else []

/-- After an uncorrectable error: DIRTY in every unit of the row; a pending one means that the snapshot point is lost. -/
def Hw.dirtyRow (hw : Hw) (u g b r : Nat) : Hw × Bool :=
  let us := hw.rowUnits u g b r
  let lost := us.any fun x => (hw.sqOf u).flt.pend.contains x
  (us.foldl (fun (h : Hw) x => h.modFlt u fun f => f.mark x) hw, lost)

/-- No spare row is left, or the soft table is full: the whole row is poisoned, and its unit is given up (12/R405). -/
def Hw.noSpare (hw : Hw) (u g b r : Nat) : Hw :=
  let hw := hw.poisonRow u g b r (List.range 16)
  if u < 64 then
    if g < 19 then
      match hw.jobOfSq u with
      | some _ =>
        if (hw.sqOf u).shadow = g then hw.modFlt u fun q => { q with shadowOut := true }
        else hw.modFlt u fun q => { q with fenceAt2 := sins q.fenceAt2 g }
      | none => hw.fenceSlot u g
    else if g < 28 then hw.fenceSquare u else hw
  else (hw.stick1 (unitBits u g).1).stick2 (unitBits u g).2

/-- The row is copied into a spare row and entered in the soft repair table. -/
def Hw.useSpare (hw : Hw) (u g b r : Nat) (bad : List Nat) : Hw :=
  let hw := { hw with banks := { hw.banks with
    soft := hw.banks.soft ++ [({ square := if u < 64 then u else 0, group := groupCode u g, bank := b, row := r } : SoftRepair)]
    spare := mupd 0 hw.banks.spare (bankKey u g b) (· + 1) } }
  hw.poisonRow u g b r bad

/-- Reads meet one of these words, numbered by address / 8. -/
def readsMeet (ws : List Nat) (rs : List (Nat × Nat)) : Bool :=
  ws.any fun w => rs.any fun r => decide (w * 8 < r.1 + r.2 ∧ r.1 < w * 8 + 8)

/-- The reload checks of physical slot p note that a read of theirs was uncorrectable: the table check, the rule check, or both, as
their reads meet the words, the image that each copied among them (03/R122, 05/R172). -/
def Hw.checkEcc (hw : Hw) (s p : Nat) (ws : List Nat) : Hw :=
  let k := hw.slotOf s p
  let core := (hw.sqOf s).coreFor p
  let t : Bool := k.checking && k.stagedT.any fun i =>
    readsMeet ws (imageRead s i.base tableSize ++ ((core.map (hw.tableReads s)).getD []))
  let r : Bool := k.rChecking && k.stagedR.any fun i =>
    readsMeet ws (imageRead s i.base ruleSize ++ if core.isSome then hw.ruleReads s i.bytes else [])
  hw.modSlot s p fun k => { k with tEcc := k.tEcc || t, rEcc := k.rEcc || r }

/-- ROW_REPAIR. `bad` numbers the words of the row that cannot be corrected; there are none after corrected errors alone.
`check` names the slot whose reload check made the uncorrectable read, which takes no job onto the restart path (03/R122). -/
def Hw.rowRepair (hw : Hw) (u g b r : Nat) (bad : List Nat) (uncorr : Bool) (check : Option Nat) : Hw :=
  if !hw.repairDue u g b r uncorr then hw
  else
    let bad := if uncorr then bad else []
    let room := decide (0 < hw.spareIn u g b) && decide (hw.banks.soft.length < 64)
    let hw := if room then hw.useSpare u g b r bad else hw.noSpare u g b r
    let hw := { hw with banks := { hw.banks with corr := mdel hw.banks.corr (rowKey u g b r) } }
    let d := repairDetail u g b r
    if !uncorr then
      if room then hw.faultRecord { det := 0x05, sq := sqOfUnit u, detail := d, unit := outUnit u g } else hw
    else
      let x := if u < 64 then hw.dirtyRow u g b r else (hw, false)
      let ws := bad.map (rowAddr u g b r / 8 + ·)
      let f : FaultInfo := { det := 0x06, status := stECC, sq := sqOfUnit u, detail := d, bank := true, unit := outUnit u g }
      if x.2 then
        let hw := match check with | some p => x.1.checkEcc u p ws | none => x.1
        let hw := hw.faultRecord f
        hw.jobFault { det := 0x19, status := stECC, job := hw.jobOfSq u, sq := sqOfUnit u }
      else match check with
        | some p => if u < 64 then (x.1.checkEcc u p ws).faultRecord { f with job := hw.jobOfSq u } else x.1.unitFaults u f
        | none => x.1.unitFaults u f

/-! ### PSRAM channels in service (12/R411, R412). -/

/-- PSRAM_DRIFT_CHECK, once in PERIOD ms (12/R411, log 179): the DS drift that ordinary reads showed, by channel in 1/256 UI,
and the change of T_CP. -/
def Hw.driftCheck (hw : Hw) (drifts : List (Nat × Nat)) : Hw :=
  if hw.elapsed < hw.psc.driftAt + hw.psc.period * 1000000 then hw
  else
    forAll (List.range 16) (fun k h =>
      let moved := (h.bud.tcp - (h.chanOf k).tcpAt).natAbs
      if h.psc.drift < mget 0 drifts k ∨ h.psc.dtemp < moved then h.retrainAsk k else h)
      { hw with psc := { hw.psc with driftAt := hw.elapsed } }

/-- Accesses to the channel that were held go on, or end. -/
def Hw.pscResume (hw : Hw) : Hw :=
  forAll (List.range 16) (fun c h => match (h.dmaOf c).d with
    | some d => h.dmaPump c (pumpFuel d)
    | none => h) hw

/-- A task whose access to PSRAM was held goes on. -/
def Hw.taskGoesOn (hw : Hw) (t : Nat) (k : Task) : Hw :=
  let hw := hw.modTask t fun k => { k with memWait := [] }
  if k.ty = tyLoad then hw.startLoad t k
  else if k.ty = tyDrain then (forAll k.memWait (fun s h => h.saveSpill t s k) hw).drainEnd t
  else if (hw.jobOf k.jslot).copying then hw else hw.exportOne k.jslot t k

/-- Tasks whose access to PSRAM was held go on, or are held again. An export whose job copies its next snapshot by then is
written once that copy has finished (log 195). -/
def Hw.tasksGoOn (hw : Hw) : Hw :=
  (hw.seq.tasks.filter fun p => p.2.state == .running && p.2.memWait != []).foldl (fun (h : Hw) p => h.taskGoesOn p.1 p.2) hw

/-- PSRAM_RETRAIN_DONE, with the narrowest passing window; the training pages hold what they held. -/
def Hw.retrainDone (hw : Hw) (k win : Nat) : Hw :=
  if (hw.chanOf k).state ≠ 2 then hw
  else
    let hw := (hw.modChan k fun c => { c with
      state := 0, rtEvt := true, win := win % 256, retrains := satAdd 0xFFFF c.retrains 1, tcpAt := hw.bud.tcp }).rise (.psc k) 16
    ((hw.irq (208 + k)).retrainNext).pscResume.tasksGoOn

/-- A channel fails in service: held and later accesses answer ABSENT. The record's DETECTOR is a free value (log 28). -/
def Hw.chanFail (hw : Hw) (k : Nat) : Hw :=
  let hw := (hw.modChan k fun c => { c with state := 3, rtEvt := true }).rise (.psc k) 16
  let det := Config.freeValue hw.fresh % 256
  let hw := { hw with fresh := hw.fresh + 1 }
  let hw := (hw.stick1 (2 ^ (6 + k))).faultRecord { det := 0, shown := some det }
  ((hw.irq (208 + k)).retrainNext).pscResume.tasksGoOn

/-- PSRAM_RETRAIN_TIMEOUT: the next lower frequency, or the channel is failed; a retrain that ends in the cycle of the timeout counts
(00/R18). -/
def Hw.retrainTimeout (hw : Hw) (k : Nat) : Hw :=
  let c := hw.chanOf k
  if c.state ≠ 2 ∨ hw.elapsed ≤ c.began + 400000 then hw
  else if c.freq < 2 then hw.modChan k fun c => { c with freq := c.freq + 1, began := hw.elapsed }
  else hw.chanFail k

/-! ### The incident journal (12/R413 to R416). -/

/-- A page of Table 12-7 with its CRC. -/
def journalPage (kind first jslot seq : Nat) (content : List Byte) : List Byte :=
  let b := leBytes 2 0x4A50 ++ leBytes 1 1 ++ leBytes 1 kind ++ leBytes 2 first ++ leBytes 2 content.length ++ leBytes 6 seq
    ++ leBytes 1 jslot ++ leBytes 1 0 ++ content ++ List.replicate (1004 - content.length) 0
  b ++ leBytes 4 (crc32 b)

/-- A page cannot be written: its channel retrains or has failed, or its pair is not ON. -/
def Hw.pageBusy (hw : Hw) (i : Nat) : Bool :=
  let k := i % 16
  (hw.chanOf k).state != 0 || !(hw.isOn (domPsc (k / 2)))

/-- The pages that come next in ring order, one on each channel. -/
def Hw.pagesAhead (hw : Hw) : List Nat := (List.range 16).map fun i => (hw.psc.jpage + i) % hw.psc.pages

/-- The next free page; skipped pages are not filled later. None when every channel is busy. -/
def Hw.nextPage (hw : Hw) : Option Nat := hw.pagesAhead.find? fun i => !(hw.pageBusy i)

/-- The pairs of the pages that are skipped are woken, as accesses wake them (01/R36). -/
def Hw.wakeSkipped (hw : Hw) : Hw :=
  (hw.pagesAhead.takeWhile hw.pageBusy).foldl (fun (h : Hw) i =>
    if (h.chanOf (i % 16)).state = 3 then h else h.wakeDom (domPsc (i % 16 / 2))) hw

/-- The content of the next KIND 2 page from the records that wait: the bytes, where the first record begins, the records
that still wait and the position in the first of them. -/
def takeResults : Nat → Nat → List (List Byte) → List Byte × Option Nat × List (List Byte) × Nat
  | _, pos, [] => ([], none, [], pos)
  | room, pos, r :: rest =>
    let piece := (r.drop pos).take room
    if piece.length < r.length - pos then (piece, if pos = 0 ∧ room ≠ 0 then some 0 else none, r :: rest, pos + piece.length)
    else
      let x := takeResults (room - piece.length) 0 rest
      (piece ++ x.1, if pos = 0 then some 0 else x.2.1.map (· + piece.length), x.2.2.1, x.2.2.2)

/-- A page is written: its bytes, the ring's next page and the next SEQ. -/
def Hw.putPage (hw : Hw) (i : Nat) (bs : List Byte) : Hw :=
  let hw := (hw.wr (hw.journalBase + 1024 * i) bs).touchDom (domPsc (i % 16 / 2))
  { hw with psc := { hw.psc with jpage := (i + 1) % hw.psc.pages, jseq := (hw.psc.jseq + 1) % 2 ^ 48 } }

/-- The job slot whose input entries wait for a page. -/
def Hw.pageSlot (hw : Hw) : Option Nat := firstOf [0, 1, 2, 3] hw.inWaiting

/-- JOURNAL_PAGE_WRITE: the next page, of input entries of one job, else of result records. -/
def Hw.journalPageWrite (hw : Hw) : Hw :=
  let next := hw.nextPage
  let hw := if hw.pageSlot.isSome || hw.psc.outWait != [] then hw.wakeSkipped else hw
  match next with
  | none => hw
  | some i =>
    match hw.pageSlot with
    | some j =>
      let l := mget [] hw.psc.inWait j
      let hw := hw.putPage i (journalPage 1 0 j hw.psc.jseq (l.take 125).flatten)
      let hw := { hw with psc := { hw.psc with inWait := mset hw.psc.inWait j (l.drop 125) } }
      if hw.inWaiting j then hw else hw.flushDone j
    | none =>
      if hw.psc.outWait = [] then hw
      else
        let x := takeResults 1004 hw.psc.outPos hw.psc.outWait
        let hw := hw.putPage i (journalPage 2 (x.2.1.getD 0xFFFF) 0 hw.psc.jseq x.1)
        { hw with psc := { hw.psc with outWait := x.2.2.1, outPos := x.2.2.2 } }

end Sys2Proof.Machine
end

