-- ==== Sys2Proof/Machine/Boot.lean ====
section
/-! DEFINITION. Resets, bring-up stages S0 to S8, fuses, the firmware image and its activation (13/R420 to R444, 12/R402, R406,
R410, 14/R472). -/

namespace Sys2Proof.Machine

/-! ### Stage reports (13/R421 to R424). -/

/-- The 16 bytes of a stage report; `us` is the duration of the stage. -/
def stageReport (n result fenced us detail : Nat) : List Byte :=
  leBytes 1 n ++ leBytes 1 result ++ leBytes 2 fenced ++ leBytes 4 (Nat.min us 0xFFFFFFFF) ++ leBytes 8 detail

/-- Write a stage's report and send its notification. -/
def Hw.putReport (hw : Hw) (n result : Nat) (b : List Byte) : Hw :=
  let hw := { hw with bring := { hw.bring with reports := mset hw.bring.reports n b } }
  hw.noteBoth ⟨0x0C, result, n, hw.tb.now, ofLe (b.take 8), b.drop 8⟩

/-- µs since the stage in progress began. -/
def Hw.stageUs (hw : Hw) : Nat := (hw.elapsed - hw.bring.began) / 1000

/-- A stage ends with OK, and the next one begins. -/
def Hw.stageOk (hw : Hw) (n fenced detail : Nat) : Hw :=
  let hw := hw.putReport n stOK (stageReport n stOK fenced hw.stageUs detail)
  { hw with bring := { hw.bring with last := n, stage := Nat.min (n + 1) 8, began := hw.elapsed } }

/-- A stage stops bring-up. -/
def Hw.stageStop (hw : Hw) (n st fenced detail : Nat) : Hw :=
  let hw := hw.putReport n st (stageReport n st fenced hw.stageUs detail)
  { hw with bring := { hw.bring with stopped := true } }

/-- A stop whose status the spec does not name: any listed code but OK (log 29). -/
def Hw.stageStopFree (hw : Hw) (n fenced detail : Nat) : Hw :=
  ({ hw with fresh := hw.fresh + 1 }).stageStop n (freeCode hw.fresh) fenced detail

/-- Stage n is in progress. -/
def Hw.inStage (hw : Hw) (n : Nat) : Bool := hw.bring.s0Done && hw.bring.stage == n && !hw.bring.stopped && hw.bring.last + 1 == n

/-! ### Resets (13/R420, 12/T12-3, 09/R341, R342, 10/R352, R366, 11/R377). -/

def stagingBase : Nat := 0x17F000000
def stagingSize : Nat := 0x1000000

/-- DETAIL of the S0 report (13/T13-3). -/
def Supply.s0Detail (s : Supply) (cause : Nat) : Nat :=
  cause + 2 ^ 8 * b2n (good s.vinA) + 2 ^ 9 * b2n (good s.vinB) + 2 ^ 10 * b2n s.inUse

/-- What every reset of the module leaves: fuses, supplies, AON, memory that S3 has not wiped yet; every register, unit and
queue at its reset value. -/
def Hw.resetAll (hw : Hw) : Hw :=
  { elapsed := hw.elapsed, fresh := hw.fresh, bus := hw.bus, supply := hw.supply, fuses := hw.fuses
    sec := { certs := hw.sec.certs }
    banks := { mem := hw.banks.mem, poison := hw.banks.poison, soft := hw.banks.soft }
    tio := { latchRise := hw.tio.latchRise, latchFall := hw.tio.latchFall, level := hw.tio.level }
    tb := { refPresent := hw.tb.refPresent, locking := hw.tb.refPresent }
    sq := hw.sq.map fun (p : Nat × Square) => (p.1, { temp := p.2.temp, flt := { sticky := p.2.flt.sticky } })
    flt := { sticky1 := hw.flt.sticky1, sticky2 := hw.flt.sticky2, nextSeq := hw.flt.nextSeq, chkSeed := hw.flt.chkSeed } }

/-- The S0 report of a reset, after which S1 starts unless RESET_N is low (14/R472). -/
def Hw.afterS0 (hw : Hw) (cause us : Nat) : Hw :=
  let hw := { hw with bring := { hw.bring with
    stage := if hw.supply.resetLow then 0 else 1, cause := cause, s0Done := true, began := hw.elapsed, lcReset := cause == 3 } }
  hw.putReport 0 stOK (stageReport 0 stOK 0 us (hw.supply.s0Detail cause))

/-- WARM_RESET with its cause. -/
def Hw.warmReset (hw : Hw) (cause : Nat) : Hw := hw.resetAll.afterS0 cause 0

/-- Loss of every domain but AON (14/R466): the PSRAM keeps only what 13/R443 needs, the staging region. -/
def Hw.powerLost (hw : Hw) : Hw :=
  let hw := hw.resetAll
  { hw with
    supply := { hw.supply with busUp := false }
    flt := { hw.flt with nextSeq := 0 }
    banks := { hw.banks with
      mem := hw.banks.mem.filter fun c => decide (stagingBase ≤ c.1 ∧ c.1 < stagingBase + stagingSize), poison := [] } }

/-- RESET_N_ASSERT (14/R472). -/
def Hw.resetLow (hw : Hw) : Hw :=
  let hw := { hw with supply := { hw.supply with resetLow := true } }
  if hw.bring.s0Done then hw.warmReset 4 else hw

/-- RESET_N_RELEASE. -/
def Hw.resetHigh (hw : Hw) : Hw :=
  let was := hw.supply.resetLow
  let hw := { hw with supply := { hw.supply with resetLow := false } }
  if was && hw.bring.s0Done && hw.bring.stage == 0 then { hw with bring := { hw.bring with stage := 1, began := hw.elapsed } } else hw

/-! ### S1 and S2 (13/R425 to R429). -/

/-- The thermometer that S1 completes: every bit below the highest blown one (13/R426). -/
def thermometer (n v : Nat) : Nat := ((List.range n).foldl (fun a i => if v.testBit i then 2 ^ (i + 1) - 1 else a) 0)

/-- Half-blown pairs are completed, and so are the thermometers of LC_COUNT and SVN_MIN. -/
def Fuses.complete (f : Fuses) : Fuses :=
  { f with
    half := []
    lcCount := BitVec.ofNat 64 (thermometer 64 f.lcCount.toNat), svnMin := BitVec.ofNat 64 (thermometer 64 f.svnMin.toNat) }

/-- GRADE and SQ_FUSED agree (13/R428). -/
def Fuses.gradeOk (f : Fuses) : Bool :=
  if f.grade = 0 then f.sqFused == 0
  else f.grade == 1 && popCount 64 f.sqFused.toNat == 8
    && (ofMask 64 f.sqFused.toNat).all fun s => decide (8 ≤ s ∧ s < 56)

/-- Squares fused off, slots marked bad and lanes marked bad take effect (13/T13-1, 01/R27). -/
def Hw.applyFuses (hw : Hw) : Hw :=
  let f := hw.fuses
  let hw := forAll (List.range 64) (fun s h =>
    let off := f.sqFused.toNat.testBit s
    let h := h.modSq s fun q => { q with fused := off, slotFence := if off then [] else ofMask 19 (mget 0 f.badCore s) }
    if off then (h.modRt s fun r => { r with state := .absent }).modDom s fun k => { k with state := .off }
    else h.mapSquare s false) hw
  forAll (List.range 6) (fun n h => h.modLink n fun l => { l with failed := [], lane := [], spareUsed := false }.found (ofMask 5 (f.badLane / 32 ^ n))) hw

/-- STAGE_S1. -/
def Hw.stageS1 (hw : Hw) : Hw :=
  if !hw.inStage 1 then hw
  else
    let hw := { hw with fuses := hw.fuses.complete }
    let f := hw.fuses
    let pk := Config.mlDsaPublicKey f.idSeed
    if f.crcOf ≠ f.crc then hw.stageStop 1 stPARITY 0 1
    else if !f.gradeOk then hw.stageStop 1 stBADPARAM 0 2
    else if Config.sha3 pk ≠ f.pkDigest then hw.stageStop 1 stAUTH 0 3
    else
      let hw := ({ hw with sec := { hw.sec with publicKey := some pk } }).applyFuses
      let n := ((List.range 64).map fun s => (hw.sqOf s).slotFence.length).sum
      hw.stageOk 1 n f.sqFused.toNat

/-- STAGE_S2: the squares whose PLL does not lock, which are fenced, and the code of another PLL that does not, which stops the
stage. The timebase counts, and ports with VBUS enumerate. -/
def Hw.stageS2 (hw : Hw) (unlocked : List Nat) (pll : Option Nat) : Hw :=
  if !hw.inStage 2 then hw
  else
    let bad := (List.range 64).filter fun s => unlocked.contains s && !(hw.sqOf s).fused
    let hw := bad.foldl (fun (h : Hw) s => h.fenceSquare s) hw
    match pll with
    | some k => hw.stageStopFree 2 bad.length (k % 256)
    | none =>
      let hw := (hw.setUsb false fun p => { p with up := hw.supply.vbusA }).setUsb true fun p => { p with up := hw.supply.vbusB }
      hw.stageOk 2 bad.length (maskOf 64 bad)

/-! ### S3 (12/R402, R406, 13/R431). -/

/-- A fused repair of the map: VALID, and the key of its bank. -/
def fusedRepair (w : Nat) : Option Nat :=
  let g := fld w 19 15
  if w.testBit 31 then some (if 28 ≤ g then bankKey (g + 36) g (fld w 14 11) else bankKey (fld w 25 20) g (fld w 14 11)) else none

/-- Rows that the fuses and the soft repair table redirect, and column selects that the fuses apply, by bank. -/
def Hw.fusedRows (hw : Hw) : List Nat :=
  (hw.fuses.badRow.filterMap fun p => fusedRepair p.2)
    ++ hw.banks.soft.map fun r => bankKey (if 28 ≤ r.group then r.group + 36 else r.square) r.group r.bank
def Hw.fusedCols (hw : Hw) : List Nat := hw.fuses.colSel.filterMap fun p => fusedRepair p.2

/-- The bank of a finding. -/
def findKey (x : MarchFind) : Nat := bankKey x.unit x.group x.bank

/-- The test's findings in the bank of a finding, all together, can be repaired from the spares that are left. -/
def Hw.canRepair (hw : Hw) (finds : List MarchFind) (x : MarchFind) : Bool :=
  let here := finds.filter fun y => findKey y == findKey x
  decide ((here.map fun y => y.rows.length).sum ≤ hw.spareIn x.unit x.group x.bank)
    && decide ((here.map (·.cols)).sum + (hw.fusedCols.filter (· == findKey x)).length ≤ spareCols x.unit x.group)

/-- S3 wipes every SRAM bank and all PSRAM but the staging region, which only a life-cycle transition wipes here (12/T12-3). -/
def Hw.wipeAll (hw : Hw) : Hw :=
  { hw with banks := { hw.banks with
    mem := if hw.bring.lcReset then []
           else hw.banks.mem.filter fun c => decide (stagingBase ≤ c.1 ∧ c.1 < stagingBase + stagingSize)
    poison := [], path := [] } }

/-- The part of S3's wipe that comes before the march test: every SRAM bank (12/R402). -/
def Hw.wipeSram (hw : Hw) : Hw :=
  { hw with banks := { hw.banks with
    mem := hw.banks.mem.filter fun c => decide (0x100000000 ≤ c.1)
    -- PSRAM alone: the words of rows that no address names stand above the address space
    poison := hw.banks.poison.filter fun w => decide (0x20000000 ≤ w ∧ w < 2 ^ 38), path := [] } }

/-- Spare rows in use once the fused and soft repairs are applied. -/
def Hw.applyRepairs (hw : Hw) : Hw :=
  { hw with banks := { hw.banks with corr := [], spare :=
    (hw.fusedRows.foldl (fun m x => mupd 0 m x (· + 1)) []) } }

/-- The spare rows that the test's repairs take. -/
def Hw.takeSpares (hw : Hw) (finds : List MarchFind) : Hw :=
  let m := finds.foldl (fun m x => mupd 0 m (findKey x) (· + x.rows.length)) hw.banks.spare
  { hw with banks := { hw.banks with spare := m } }

/-- A bank that S3 cannot repair: its slot or its square is fenced, the square for its unit SRAM too (log 160); how many of
each is in the report's FENCED. -/
def Hw.giveUp (hw : Hw) (x : MarchFind) : Hw :=
  if x.group < 19 then hw.modSq x.unit fun q => { q with slotFence := sins q.slotFence x.group } else hw.fenceSquare x.unit

/-- Rows repaired in all. -/
def Hw.rowsRepaired (hw : Hw) (finds : List MarchFind) : Nat := hw.fusedRows.length + (finds.map fun x => x.rows.length).sum
def Hw.colsApplied (hw : Hw) (finds : List MarchFind) : Nat := hw.fusedCols.length + (finds.map (·.cols)).sum

/-- STAGE_S3: the findings of the march test, and a PSRAM device that failed its test: channel and chip select. A stop comes after
the wipe of the SRAM, the repairs and the fences (12/R402), but before the wipe of the PSRAM, which follows its test (R431). -/
def Hw.stageS3 (hw : Hw) (finds : List MarchFind) (psram : Option (Nat × Nat)) : Hw :=
  if !hw.inStage 3 then hw
  else
    let hw := hw.applyRepairs
    let ok := finds.filter (hw.canRepair finds)
    let lost := finds.filter fun x => !hw.canRepair finds x
    let units := lost.filter fun x => decide (x.unit < 64) && !(hw.sqOf x.unit).fused
    let slots := (units.filter fun x => decide (x.group < 19) && !((hw.sqOf x.unit).slotFence.contains x.group)).map fun x => 19 * x.unit + x.group
    let sqs := (units.filter fun x => decide (19 ≤ x.group) && !(hw.sqOf x.unit).fenced).map (·.unit)
    let n := (slots.foldl sins []).length + (sqs.foldl sins []).length
    let d := hw.rowsRepaired ok % 65536 + hw.colsApplied ok % 256 * 2 ^ 16
    let hw := units.foldl (fun (h : Hw) x => h.giveUp x) (hw.wipeSram.takeSpares ok)
    match lost.find? fun x => decide (64 ≤ x.unit), psram with
    | some x, _ => hw.stageStopFree 3 n (repairDetail x.unit x.group x.bank (x.rows.headD 0))
    | none, some (c, cs) => hw.stageStop 3 stECC n (2 ^ 32 + c % 16 * 2 ^ 33 + cs % 2 * 2 ^ 37)
    | none, none => hw.wipeAll.stageOk 3 n d

/-! ### Firmware images (13/R432, R433, R444). -/

/-- Bytes before the body, and the context string MERATH-FW. -/
def fwHead : Nat := 4864
def fwContext : List Byte := [0x4D, 0x45, 0x52, 0x41, 0x54, 0x48, 0x2D, 0x46, 0x57]

def fwVersion (b : List Byte) : Nat := leAt b 4 4
def fwSvn (b : List Byte) : Nat := leAt b 8 1
def fwCommit (b : List Byte) : Bool := (leAt b 3 1).testBit 0

/-- Check 1 of Table 13-6. -/
def fwForm (b : List Byte) : Bool :=
  decide (fwHead ≤ b.length) && leAt b 0 2 == 0x5746 && leAt b 2 1 == 1 && leAt b 3 1 / 2 == 0 && decide (fwSvn b ≤ 64)
    && leAt b 9 1 / 32 == 0 && leAt b 10 2 == 0 && allZero ((b.drop 80).take 48) && allZero ((b.drop 4755).take 109)
    && b.length == fwHead + leAt b 12 4 && decide (b.length ≤ stagingSize)

/-- The checks of Table 13-6, in order: the first that fails decides the status. -/
def Hw.fwCheck (hw : Hw) (b : List Byte) : Nat :=
  if !fwForm b then stBADPARAM
  else if !(Config.mlDsaVerify Config.firmwareKey (b.take 128) fwContext ((b.drop 128).take 4627)) then stAUTH
  else if shaBytes (b.drop fwHead) ≠ (b.drop 16).take 64 then stAUTH
  else if fwSvn b < hw.fuses.svnCount then stAUTH
  else if !(leAt b 9 1).testBit hw.fuses.lc then stLIFECYCLE
  else stOK

/-- PROVISIONED, DEPLOYED or SERVICE. -/
def Fuses.inUse (f : Fuses) : Bool := f.lc == 1 || f.lc == 2 || f.lc == 3

/-- The security version is committed once the image runs on all four cores (13/R444). -/
def Hw.commitSvn (hw : Hw) : Hw :=
  if hw.fw.commit && hw.fuses.inUse && decide (hw.fuses.svnCount < hw.fw.svn) then
    { hw with fuses := { hw.fuses with svnMin := BitVec.ofNat 64 (2 ^ hw.fw.svn - 1) } }
  else hw

/-- The image that begins at the staging region; none where a channel that holds its bytes has failed or is OFF (12/R412). -/
def Hw.stagedImage (hw : Hw) : List Byte :=
  let n := fwHead + leAt (hw.rd stagingBase fwHead) 12 4
  if n ≤ stagingSize ∧ !(hw.psramAbsent stagingBase n) then hw.rd stagingBase n else []

/-- An image that runs on all four control cores. -/
def Hw.fwRuns (hw : Hw) (b : List Byte) : Hw :=
  ({ hw with fw := { version := fwVersion b, digest := Config.sha3 b, svn := fwSvn b, commit := fwCommit b
                     coresUp := [0, 1, 2, 3] } }).commitSvn

/-! ### S4 (13/R434, R435). -/

/-- S4 may take the staged image: in the states of Table 13-11, but not after a life-cycle transition or a failed activation. -/
def Hw.mayStage (hw : Hw) : Bool :=
  hw.fuses.inUse && hw.bring.ctrlS4 != some 2 && !(hw.bring.ctrlS4.isNone && hw.bring.lcReset)

/-- The image that S4 runs, with the source that its report names: 1 staging, 0 the host. None: S4 waits. -/
def Hw.bootChoice (hw : Hw) : Option (List Byte × Nat) :=
  if hw.mayStage ∧ hw.fwCheck hw.stagedImage = stOK then some (hw.stagedImage, 1)
  else if hw.fw.bootOk then some (hw.fw.bootImage, 0) else none

/-- STAGE_S4: all four control cores report that they run the image. The staging region is then wiped. -/
def Hw.stageS4 (hw : Hw) : Hw :=
  if !(hw.inStage 4) && hw.bring.ctrlS4.isNone then hw
  else match hw.bootChoice with
    | none => hw
    | some (b, src) =>
      let hw := (hw.fwRuns b).wipe stagingBase stagingSize
      let d := hw.fw.version + src * 2 ^ 32
      match hw.bring.ctrlS4 with
      | some c =>
        let hw := hw.putReport 4 stOK (stageReport 4 stOK 0 hw.stageUs (d + 2 ^ 33 + c % 4 * 2 ^ 34))
        { hw with bring := { hw.bring with ctrlS4 := none } }
      | none => hw.stageOk 4 0 d

/-! ### S5 to S8 (13/R436, R437, 12/R410). -/

/-- STAGE_S5, with the slots that failed the known-answer work. Each present square runs it; then logical numbers are mapped. -/
def Hw.stageS5 (hw : Hw) (fails : List (Nat × Nat)) : Hw :=
  if !hw.inStage 5 then hw
  else
    let sqs := (List.range 64).filter fun s => (hw.sqOf s).usable
    let real := (List.range 1216).filter fun i => fails.contains (i / 19, i % 19) && sqs.contains (i / 19)
      && !((hw.sqOf (i / 19)).slotFence.contains (i % 19))
    let hw := forAll sqs (fun _ h => h.chkRun) hw
    let hw := real.foldl (fun (h : Hw) i => h.modSq (i / 19) fun q => { q with slotFence := sins q.slotFence (i % 19) }) hw
    let hw := forAll sqs (fun s h => h.setPolicy s false) hw
    let lost := sqs.filter fun s => (hw.sqOf s).fenced
    hw.stageOk 5 (real.length + lost.length) (maskOf 64 (real.map (· / 19)))

/-- The frequency at which a channel's narrowest window reaches 0.25 UI, from its windows at 200, 166 and 133 MHz; 3 is a
failure. -/
def freqFor (w : List Nat) : Nat :=
  if 64 ≤ w.getD 0 0 then 0 else if 64 ≤ w.getD 1 0 then 1 else if 64 ≤ w.getD 2 0 then 2 else 3

/-- STAGE_S6, with the narrowest window of each channel at each frequency, in 1/256 UI. -/
def Hw.stageS6 (hw : Hw) (wins : List (List Nat)) : Hw :=
  if !hw.inStage 6 then hw
  else
    let f : Nat → Nat := fun k => freqFor (wins.getD k [])
    let signal : List Nat → Hw → Hw := fun ks hw => forAll ks (fun k h => h.irq (208 + k)) hw
    let trained : Hw → Hw := forAll ((List.range 16).filter fun k => f k != 3) (fun k h => h.modChan k fun c => { c with
      state := 0, freq := f k, win := (wins.getD k []).getD (f k) 0 % 256, tcpAt := h.bud.tcp })
    match firstOf (List.range 16) fun k => f k == 3 with
    | some k =>
      let bad := (List.range 16).filter fun k => f k == 3
      (signal bad (forAll bad (fun k h => h.modChan k fun c => { c with state := 3 }) (trained hw))).stageStopFree 6 bad.length k
    | none =>
      let hw := trained hw
      (signal (List.range 16) hw).stageOk 6 0 ((List.range 16).foldl (fun a k => a + f k * 4 ^ k) 0)

/-- A port sends a training request when at least four of its lanes are not bad. -/
def Hw.trains (hw : Hw) (n : Nat) : Bool := decide ((hw.linkOf n).failed.length ≤ 1)

/-- LINK_TRAINING_TIMEOUT: no partner has answered within 20 ms, at S7. -/
def Hw.trainTimeout (hw : Hw) (n : Nat) : Hw :=
  if hw.inStage 7 && hw.trains n && decide (hw.bring.began + 20000000 < hw.elapsed) then
    { hw with bring := { hw.bring with noPartner := sins hw.bring.noPartner n } }
  else hw

/-- STAGE_S7, with the lanes of each port that showed a bit error. At its end every port has EN = 0, also one that was enabled
before, and its domain enters OFF by the idle policy (13/R438). -/
def Hw.stageS7 (hw : Hw) (fails : List (List Nat)) : Hw :=
  if !hw.inStage 7 then hw
  else
    let ports := List.range 6
    let alone := hw.bring.noPartner
    let measured := ports.filter fun n => hw.trains n && !(alone.contains n)
    let found : Nat → List Nat := fun n => if measured.contains n then (List.range 5).filter fun k => (fails.getD n []).contains k else []
    let hw := forAll measured (fun n h =>
      let h := h.modLink n fun l => l.found (found n)
      if found n = [] then h else h.stick1 (2 ^ n)) hw
    let hw := forAll ports (fun n h => h.linkDisable n) hw
    let unusable := ports.filter fun n => !(hw.trains n)
    let trained := measured.filter fun n => hw.trains n
    let lanes := ports.foldl (fun a n => a + maskOf 5 (hw.linkOf n).failed * 32 ^ n) 0
    hw.stageOk 7 unusable.length
      (maskOf 6 trained + maskOf 6 alone * 2 ^ 6 + maskOf 6 unusable * 2 ^ 12 + lanes * 2 ^ 18)

/-- Usable squares: present, not fused, not fenced. -/
def Hw.usableMask (hw : Hw) : Nat := maskOf 64 ((List.range 64).filter fun s => (hw.sqOf s).usable)
def Hw.fusedMask (hw : Hw) : Nat := maskOf 64 ((List.range 64).filter fun s => (hw.sqOf s).fused)
def Hw.fencedMask (hw : Hw) : Nat := maskOf 64 ((List.range 64).filter fun s => (hw.sqOf s).fenced)

/-- STAGE_S8: the module is ready. -/
def Hw.stageS8 (hw : Hw) : Hw := if hw.inStage 8 then hw.stageOk 8 0 hw.usableMask else hw

/-! ### Activation in service (13/R442, R443). -/

/-- The control core that is replaced after core n, in the order 3, 2, 1, 0. -/
def Hw.fwActStart (hw : Hw) : Hw := { hw with fw := { hw.fw with xfer := 3, actCore := some (3, hw.elapsed + 50000000), coresUp := [] } }

/-- FW_CORE_REPORT: the core that is being replaced runs the new image; after core 0 the activation is over. -/
def Hw.coreReport (hw : Hw) : Hw :=
  match hw.fw.actCore with
  | none => hw
  | some (n, _) =>
    if n = 0 then (hw.fwRuns hw.stagedImage).waitOver .activation stOK []
    else { hw with fw := { hw.fw with actCore := some (n - 1, hw.elapsed + 50000000), coresUp := sins hw.fw.coresUp n } }

/-- FW_ACTIVATION_TIMEOUT: the activation has failed, and the control complex is reset alone. -/
def Hw.actTimeout (hw : Hw) : Hw :=
  match hw.fw.actCore with
  | none => hw
  | some (_, t) => if t < hw.elapsed then (hw.stick2 1).ctrlReset 2 else hw

end Sys2Proof.Machine
end

