-- ==== Sys2Proof/Machine/Info.lean ====
section
/-! DEFINITION. Blocks of information that Kezil commands, the management port and reports return (10/T10-9, T10-14, 13/R446,
14/T14-11). -/

namespace Sys2Proof.Machine

def zeros (n : Nat) : List Byte := List.replicate n 0

/-- STAGE as the pins show it. -/
def Hw.stageCode (hw : Hw) : Nat := hw.bring.stagePins

/-- The reports of S0 to S8, 16 bytes each, zero for stages not reached. -/
def Hw.stageReports (hw : Hw) : List Byte :=
  ((List.range 9).map fun i => sliceB (mget [] hw.bring.reports i) 0 16).flatten

/-- GET_TELEMETRY: energy of the last window in µJ, which is its mean power in mW. -/
def Hw.telemetry (hw : Hw) : List Byte :=
  ((List.range 64).map fun s => leBytes 1 (toField 8 (hw.sqOf s).temp)).flatten ++ leBytes 1 (toField 8 hw.bud.tcp)
    ++ leBytes 1 (b2n hw.supply.inUse) ++ leBytes 2 hw.supply.vinA ++ leBytes 2 hw.supply.vinB ++ zeros 2
    ++ leBytes 4 hw.bud.emPrev ++ leBytes 4 hw.bud.emPrev ++ zeros 16

/-- STICKY_READ. -/
def Hw.stickyBytes (hw : Hw) : List Byte :=
  leBytes 8 hw.sticky0 ++ leBytes 4 hw.flt.sticky1 ++ leBytes 4 hw.flt.sticky2
    ++ ((List.range 64).map fun s => leBytes 4 (hw.sqOf s).flt.sticky).flatten

/-- GET_NET_DIGESTS. -/
def Hw.netDigests (hw : Hw) : List Byte :=
  ((List.range 64).map fun s => if (hw.sqOf s).loaded then leBytes 64 (hw.sqOf s).digest.toNat else zeros 64).flatten

/-- S1 has ended: the fuses are known. -/
def Hw.fusesKnown (hw : Hw) : Bool := decide (1 ≤ hw.bring.last)

/-- GET_IDENTITY. -/
def Hw.identity (hw : Hw) : List Byte :=
  leBytes 1 hw.fuses.grade ++ leBytes 1 hw.fuses.lc ++ leBytes 1 hw.stageCode ++ zeros 1 ++ leBytes 1 hw.rt.moduleId ++ zeros 3
    ++ leBytes 8 hw.fusedMask ++ leBytes 8 hw.fencedMask ++ leBytes 16 hw.fuses.serial.toNat ++ leBytes 4 hw.fw.version ++ zeros 4
    ++ leBytes 64 hw.fw.digest.toNat ++ zeros 16

/-- The management space (14/T14-11): a block by its pointer. -/
def Hw.mgtBlockOf (hw : Hw) (base : Nat) : List Byte :=
  if base = 0x0000 then
    leBytes 1 (if hw.fusesKnown then hw.fuses.grade else 0xFF) ++ leBytes 1 hw.fuses.lc ++ leBytes 1 hw.stageCode
      ++ leBytes 1 (b2n hw.bring.stopped) ++ leBytes 1 hw.rt.moduleId ++ zeros 11
      ++ (if hw.fusesKnown then leBytes 16 hw.fuses.serial.toNat else zeros 16)
  else if base = 0x0100 then hw.stageReports
  else if base = 0x0200 then hw.telemetry
  else if base = 0x0300 then leBytes 4 hw.supply.status ++ leBytes 4 (hw.pwrRead 0x104) ++ zeros 8
  else if base = 0x0400 then hw.stickyBytes
  else []

/-- The byte at a pointer: zero outside the blocks. The blocks begin at multiples of 0x100, and the sticky bits take two. -/
def Hw.mgtByte (hw : Hw) (p : Nat) : Byte :=
  let base := if 0x400 ≤ p ∧ p < 0x600 then 0x400 else p / 0x100 * 0x100
  (hw.mgtBlockOf base).getD (p - base) 0

/-- The module's address on the management port: 0x58 + ADDR[2:0], as sampled at the end of S0 (14/R474, 08/R299). -/
def Supply.mgtAddr (s : Supply) : Nat := 0x58 + s.addrSampled

/-- MGT_TRANSFER (14/R473 to R477): a write gives the two pointer bytes, which are acknowledged as the address is, and every
further byte is not; a read returns `n` bytes. An incomplete pointer is a free value (log 31). `stop` tells that the transfer ended with a STOP. -/
def Hw.mgtTransfer (hw : Hw) (addr : Nat) (read : Bool) (n : Nat) (bytes : List Byte) (stop : Bool) : Hw :=
  if !hw.bring.s0Done || addr != hw.supply.mgtAddr then hw
  else
    let acks := if read then [] else (List.range bytes.length).map fun i => decide (i < 2)
    let hw := { hw with supply := { hw.supply with mgtOpen := !stop, mgtAcks := true :: acks } }
    let hw := if read then
        { hw with supply := { hw.supply with
          mgtRead := (List.range n).map fun i => hw.mgtByte ((hw.supply.mgtPtr + i) % 65536)
          mgtPtr := (hw.supply.mgtPtr + n) % 65536 } }
      else match bytes with
        | [] => hw
        | [_] => { hw with fresh := hw.fresh + 1, supply := { hw.supply with mgtPtr := Config.freeValue hw.fresh % 65536 } }
        | a :: b :: _ => { hw with supply := { hw.supply with mgtPtr := a.toNat + 256 * b.toNat } }
    (hw.wakeSet 0).irq 233

/-- MGT_SCL_TIMEOUT (14/R477): SDA is released and the interface is idle. -/
def Hw.sclTimeout (hw : Hw) : Hw := { hw with supply := { hw.supply with mgtOpen := false } }

end Sys2Proof.Machine
end

