-- ==== Sys2Proof/Machine/Supplies.lean ====
section
/-! DEFINITION. Supply inputs, power-on, brown-out and loss of both supplies (14/R459 to R467, Table 14-5). Voltages are in mV.
Each event carries what the filters and comparators found; the time for which a condition must hold is part of the event. -/

namespace Sys2Proof.Machine

/-- An input is connected unless overvoltage has disconnected it; one that is blocked after a short stays connected (14/R465). -/
def Supply.connA (s : Supply) : Bool := !s.aOv
def Supply.connB (s : Supply) : Bool := !s.bOv

/-- An input delivers 8.5 V: it is connected, and not blocked after a short. -/
def Supply.okA (s : Supply) : Bool := s.connA && !s.aShort && decide (8500 ≤ s.vinA)
def Supply.okB (s : Supply) : Bool := s.connB && !s.bShort && decide (8500 ≤ s.vinB)

/-- The input in use when neither delivers 8.5 V: the higher of two connected ones. Two equal ones change nothing (14/R461
names no choice between them: log 180). -/
def Supply.higher (s : Supply) : Bool :=
  if s.connA && s.connB && s.vinA != s.vinB then decide (s.vinA < s.vinB) else s.inUse

/-- The input that 14/R461 selects, by the one in use; VIN_A returns only under the return rule. -/
def Supply.choose (s : Supply) : Bool :=
  if s.inUse then (if s.okB then true else if s.okA then false else s.higher)
  else if s.okA then false
  else if s.okB then true
  else s.higher

/-- The input in use lies in its operating range. -/
def Supply.inRange (s : Supply) : Bool := good (if s.inUse then s.vinB else s.vinA)

/-- A switch-over to the other input. -/
def Hw.switchTo (hw : Hw) (b : Bool) : Hw :=
  if b = hw.supply.inUse then hw
  else
    let hw := { hw with supply := { hw.supply with
      inUse := b, switched := true, switches := satAdd 0xFFFF hw.supply.switches 1 } }
    ((hw.rise .supply 32).irq 231).noteBoth ⟨0x0A, 0, b2n b, hw.tb.now, 0, []⟩

/-- The range of the input in use: RANGE is set while it is outside, and source 232 is signalled on each departure. -/
def Hw.rangeCheck (hw : Hw) (was : Bool) : Hw :=
  if !hw.supply.busUp || hw.supply.inRange then hw
  else
    let hw := ({ hw with supply := { hw.supply with range := true } } : Hw).rise .supply 64
    if was then hw.irq 232 else hw

/-- Take over new measurements or connections, then select the input. -/
def Hw.supplyEvent (hw : Hw) (f : Supply → Supply) : Hw :=
  let was := hw.supply.inRange
  let hw := { hw with supply := f hw.supply }
  let hw := if hw.supply.busUp then hw.switchTo hw.supply.choose else hw
  hw.rangeCheck was

/-- A new voltage of one input; a blocked input that carries a voltage again is no longer shorted. -/
def Supply.measureOne (s : Supply) (b : Bool) (mv : Nat) : Supply :=
  if b then { s with vinB := mv, bShort := s.bShort && mv == 0 } else { s with vinA := mv, aShort := s.aShort && mv == 0 }

/-- New voltages of both inputs. -/
def Supply.measure (s : Supply) (a b : Nat) : Supply := (s.measureOne false a).measureOne true b

/-- SUPPLY_SWITCH: the filtered inputs cross a threshold. -/
def Hw.supplySwitch (hw : Hw) (a b : Nat) : Hw := hw.supplyEvent fun s => s.measure a b

/-- SUPPLY_RANGE_CHANGE: an input crosses 9 V or 16 V. -/
def Hw.rangeChange (hw : Hw) (a b : Nat) : Hw := hw.supplyEvent fun s => s.measure a b

/-- SUPPLY_RETURN: VIN_A has been above 9.5 V and connected for 10 ms. -/
def Hw.supplyReturn (hw : Hw) : Hw :=
  if hw.supply.busUp && hw.supply.inUse && hw.supply.connA && decide (9500 < hw.supply.vinA) then
    let was := hw.supply.inRange
    (hw.switchTo false).rangeCheck was
  else hw

/-- SUPPLY_OVERVOLTAGE: an input above 17.5 V is disconnected. -/
def Hw.overvoltage (hw : Hw) (b : Bool) (mv : Nat) : Hw :=
  if mv ≤ 17500 then hw
  else hw.supplyEvent fun s =>
    let s := s.measureOne b mv
    if b then { s with bOv := true } else { s with aOv := true }

/-- SUPPLY_RECONNECT: an input has been below 16.5 V for 10 ms. -/
def Hw.reconnect (hw : Hw) (b : Bool) (mv : Nat) : Hw :=
  if 16500 ≤ mv then hw
  else hw.supplyEvent fun s =>
    let s := s.measureOne b mv
    if b then { s with bOv := false } else { s with aOv := false }

/-- INPUT_SHORT: a shorted input is blocked; it conducts again once it carries a voltage. -/
def Hw.inputShort (hw : Hw) (b : Bool) : Hw :=
  hw.supplyEvent fun s => if b then { s with vinB := 0, bShort := true } else { s with vinA := 0, aShort := true }

/-- SUPPLY_START: an input has been within 9.0 V to 16.5 V for 1 ms, so the bus is charged, and S0 ends after `us` µs. The ADDR
pins are sampled at its end. -/
def Hw.supplyStart (hw : Hw) (a b addr us : Nat) : Hw :=
  let ok : Nat → Bool := fun v => decide (9000 ≤ v ∧ v ≤ 16500)
  if hw.supply.busUp || !(ok a || ok b) then hw
  else
    let kept := hw.supply.aonKept
    let s := { hw.supply with
      vinA := a, vinB := b, busUp := true, inUse := false, aShort := false, bShort := false, brownout := hw.supply.brownout || kept, aonKept := true
      addrPins := addr % 8, addrSampled := addr % 8, mgtPtr := 0, mgtOpen := false }
    let s := { s with inUse := s.choose }
    (({ hw with supply := s }).rangeCheck false).afterS0 1 us

/-- BROWNOUT: the bus has fallen below 3.0 V; AON keeps its contents. -/
def Hw.brownout (hw : Hw) : Hw := if hw.supply.busUp then hw.powerLost else hw

/-- LOSS_OF_BOTH_SUPPLIES: both inputs have stayed below 4.0 V for more than 1 ms, so AON is lost with everything else. -/
def Hw.suppliesLost (hw : Hw) (a b : Nat) : Hw :=
  if 4000 ≤ a ∨ 4000 ≤ b then hw
  else
    let hw := hw.powerLost
    { elapsed := hw.elapsed, fresh := hw.fresh, bus := hw.bus, fuses := hw.fuses, sec := hw.sec
      supply := { vinA := a, vinB := b, resetLow := hw.supply.resetLow, vbusA := hw.supply.vbusA, vbusB := hw.supply.vbusB }
      banks := { mem := hw.banks.mem }
      tio := { level := hw.tio.level }
      tb := { refPresent := hw.tb.refPresent, locking := hw.tb.refPresent } }

end Sys2Proof.Machine
end

