-- ==== Sys2Proof/Machine/Graph.lean ====
section
/-! DEFINITION. Batches of task descriptors: the checks of 08/R270, retirement and cancellation (08/R268 to R272, R280). -/

namespace Sys2Proof.Machine

/-- The type code names a type (08/T8-2). -/
def tyKnown (ty : Nat) : Bool := decide (1 ≤ ty ∧ ty ≤ 13)

/-- Types that may be class 0 (08/T8-2). -/
def tyClass0 (ty : Nat) : Bool := [1, 2, 3, 9, 11, 12, 13].contains ty

/-- The bits of PARAM byte `i` that a type uses (08/T8-2, T8-3). -/
def paramBits (ty i : Nat) : Nat :=
  let in_ : Nat → Nat → Bool := fun a b => decide (a ≤ i ∧ i ≤ b)
  match ty with
  | 1 => if in_ 22 23 then 0 else if i = 14 then 3 else 255
  | 2 => if in_ 0 3 || in_ 8 12 then 255 else 0
  | 3 => if in_ 0 3 then 255 else 0
  | 4 => if i = 0 ∨ in_ 8 12 then 255 else 0
  | 5 => if in_ 8 12 || in_ 16 20 then 255 else if i = 13 then 1 else 0
  | 6 => if in_ 16 20 then 255 else if i = 13 then 1 else 0
  | 9 => if in_ 0 3 then 255 else 0
  | 10 => if in_ 0 3 then 255 else 0
  | 11 => if in_ 0 7 then 255 else if i = 8 then 1 else 0
  | 12 => if i = 0 then 255 else 0
  | 13 => if in_ 0 1 || in_ 16 31 then 255 else 0
  | _ => 0

/-- Reserved bits and unused PARAM bytes are zero. -/
def Task.reservedOk (k : Task) : Bool :=
  leAt k.desc 1 1 / 32 == 0 && leAt k.desc 2 2 / 4096 == 0 && (List.range 4).all (fun i => fld (leAt k.desc (12 + 2 * i) 2) 14 12 == 0)
    && leAt k.desc 22 2 == 0 && leAt k.desc 28 4 == 0
    && (List.range 32).all fun i => k.param i 1 &&& (255 - paramBits k.ty i) == 0

/-- A parameter lies in a range, or is 0 for its default. -/
def zeroOr (lo hi v : Nat) : Bool := v == 0 || decide (lo ≤ v ∧ v ≤ hi)

/-- The parameter checks of Tables 8-2 and 8-3. A spill address without SPILL or SAVE is an unused PARAM field. -/
def Task.paramOk (k : Task) : Bool :=
  match k.ty with
  | 1 => (k.resume || k.param 8 6 == 0) && zeroOr 4 16 (k.param 15 1) && zeroOr 25000 100000000 (k.param 16 4)
  | 2 => k.param 8 5 == 0 || (k.param 8 5 % 256 == 0 && inPsram (k.param 8 5) 1)
  | 4 => k.param 0 1 == 0xFF || decide (12 ≤ k.param 0 1 ∧ k.param 0 1 ≤ 15)
  | 5 => k.sqs.length == 1 && ((k.param 13 1).testBit 0 || k.param 16 5 == 0)
  | 6 => (k.param 13 1).testBit 0 || k.param 16 5 == 0
  | 12 => decide (k.param 0 1 ≤ 31)
  | _ => true

def Task.tid (k : Task) : Nat := fld (leAt k.desc 2 2) 11 0

/-- A batch as descriptors. -/
def batchOf (b : List Byte) : List Task := (List.range (b.length / 64)).map fun i => { desc := (b.drop (64 * i)).take 64 }

/-- The checks of 08/R270 that concern one descriptor alone, in the order of its list. -/
def Hw.descStatus (hw : Hw) (k : Task) : Nat :=
  if !tyKnown k.ty then stBADOP
  else if !k.reservedOk || k.cls == 3 || (k.cls == 0 && !tyClass0 k.ty) || decide (hw.bud.limit < k.energy)
      || (k.ty == tyTempoRun && k.deadline != 0) || !k.paramOk then stBADPARAM
  else stOK

/-- The descriptors of a batch from which `goal` can be reached, following predecessors for at most `n` steps. -/
def reaches (batch : List Task) (goal : Nat) : Nat → List Nat → Bool
  | 0, l => l.contains goal
  | n + 1, l =>
    l.contains goal || reaches batch goal n ((batch.filter fun k => l.contains k.tid).foldl (fun (m : List Nat) (k : Task) => k.preds.foldl sins m) l)

/-- The checks on descriptor `i` of a batch: its own, its TID, its predecessors and cycles through it. -/
def Hw.batchStatus (hw : Hw) (batch : List Task) (i : Nat) : Nat :=
  match batch[i]? with
  | none => stOK
  | some k =>
    let st := hw.descStatus k
    if st ≠ stOK then st
    else if (hw.taskOf k.tid).isSome || ((batch.take i).any fun x => x.tid == k.tid) then stBADPARAM
    else if k.preds.any fun p => (hw.taskOf p).isNone && !(batch.any fun x => x.tid == p) then stBADPARAM
    else if reaches batch k.tid batch.length (k.preds.filter fun p => (hw.taskOf p).isNone) then stBADPARAM
    else stOK

/-- GRAPH_SUBMIT: the status, and the index of the first descriptor that failed. Accepted tasks wait, and those without
predecessors become READY (08/R270, R274). -/
def Hw.submit (hw : Hw) (b : List Byte) : Hw × Nat × Nat :=
  let batch := batchOf b
  match firstOf (List.range batch.length) fun i => hw.batchStatus batch i != stOK with
  | some i => (hw, hw.batchStatus batch i, i)
  | none =>
    if 4096 < hw.seq.tasks.length + batch.length then (hw, stBUSY, 0)
    else
      let hw := { hw with seq := { hw.seq with tasks := batch.foldl (fun m (k : Task) => mset m k.tid k) hw.seq.tasks } }
      (hw.settle, stOK, 0)

/-- Why a task cannot be retired: not resident, not ended, or named by a waiting or ready task (08/R268, R271). -/
def Hw.retireStatus (hw : Hw) (t : Nat) : Nat :=
  match hw.taskOf t with
  | none => stBADPARAM
  | some k =>
    if !k.state.ended then stBUSY
    else if hw.seq.tasks.any fun p => (p.2.state == .waiting || p.2.state == .ready) && p.2.preds.contains t then stBUSY
    else stOK

/-- TASK_RETIRE: all or none. -/
def Hw.retire (hw : Hw) (ts : List Nat) : Hw × Nat × Nat :=
  match firstOf (List.range ts.length) fun i => hw.retireStatus (ts.getD i 0) != stOK with
  | some i => (hw, hw.retireStatus (ts.getD i 0), i)
  | none => ({ hw with seq := { hw.seq with tasks := hw.seq.tasks.filter fun p => !(ts.contains p.1) } }, stOK, 0)

/-- TASK_CANCEL (08/R280). A cancel of an open-ended TEMPO_RUN stops it as 08/R276 gives. -/
def Hw.cancel (hw : Hw) (t : Nat) : Hw × Nat :=
  match hw.taskOf t with
  | none => (hw, stBADPARAM)
  | some k =>
    match k.state with
    | .waiting => (hw.taskEnd t stCLOSED, stOK)
    | .ready => ((hw.taskEnd t stCLOSED).unbind t, stOK)
    | .running =>
      if k.ty = tyWaitTime ∨ k.ty = tyDoorbell then (hw.taskEnd t stCLOSED, stOK)
      else if k.ty = tyTempoRun ∧ k.param 4 4 = 0 then (hw.modJob k.jslot Job.stopNow, stOK)
      else (hw, stBUSY)
    | .done => (hw, stBADPARAM)
    | .failed => (hw, stBADPARAM)

/-- The status record that TASK_STATUS and the registers give (08/T8-5). -/
def Hw.taskRecord (hw : Hw) (t : Nat) : Nat := match hw.taskOf t with | some k => k.record | none => 0

end Sys2Proof.Machine
end

