-- ==== Sys2Proof/Machine/Session.lean ====
section
/-! DEFINITION. The ports of the Kezil engine: opcode permissions, framing, ownership, lease, USB events, notifications and
replies as the host takes them (10/R343 to R358, R362, Tables 10-4 and 10-7, 14/R478). -/

namespace Sys2Proof.Machine

/-! ### Opcodes and their permissions (10/T10-8 to T10-17). -/

/-- An opcode: its code, whether it is owner-only, served before S8, the life-cycle states by bit, and whether it may be
asynchronous. -/
structure OpRow where
  code  : Nat
  owner : Bool
  early : Bool
  lcs   : Nat
  async : Bool := false
  deriving DecidableEq, Repr

/-- Life-cycle columns: all; P D S; P D S R; P S; the states with a transition out, which are all but RETIRED. -/
def lcAll : Nat := 31
def lcPDS : Nat := 14
def lcPDSR : Nat := 30
def lcPS : Nat := 10
def lcOut : Nat := 15

/-- Codes of the opcodes. -/
def opSessionOpen : Nat := 0x0101
def opSessionClose : Nat := 0x0102
def opTakeover : Nat := 0x0103
def opSetLease : Nat := 0x0104
def opEcho : Nat := 0x0105
def opPortStatus : Nat := 0x0106
def opGetIdentity : Nat := 0x0201
def opGetStageReports : Nat := 0x0202
def opGetCert : Nat := 0x0203
def opAttest : Nat := 0x0204
def opGetTelemetry : Nat := 0x0205
def opGetNetDigests : Nat := 0x0206
def opMemRead : Nat := 0x0301
def opMemWrite : Nat := 0x0302
def opDmaStart : Nat := 0x0303
def opGraphSubmit : Nat := 0x0401
def opTaskRetire : Nat := 0x0402
def opTaskCancel : Nat := 0x0403
def opTaskStatus : Nat := 0x0404
def opJobStop : Nat := 0x0405
def opDoorbellRing : Nat := 0x0406
def opSeqRun : Nat := 0x0407
def opImageCheck : Nat := 0x0501
def opSquareInfo : Nat := 0x0502
def opStreamSet : Nat := 0x0503
def opStreamGet : Nat := 0x0504
def opPwrSet : Nat := 0x0601
def opPwrPins : Nat := 0x0602
def opBudgetSet : Nat := 0x0603
def opBudgetGet : Nat := 0x0604
def opTripClear : Nat := 0x0605
def opFaultRead : Nat := 0x0701
def opStickyRead : Nat := 0x0702
def opStickyClear : Nat := 0x0703
def opJobFaults : Nat := 0x0704
def opFwBegin : Nat := 0x0801
def opFwData : Nat := 0x0802
def opFwEnd : Nat := 0x0803
def opFwActivate : Nat := 0x0804
def opFwStatus : Nat := 0x0805
def opLcGet : Nat := 0x0901
def opLcTransition : Nat := 0x0902
def opKeyEnrol : Nat := 0x0903
def opReset : Nat := 0x0904
def opTimeGet : Nat := 0x0A01
def opTimeSet : Nat := 0x0A02

def opRowsA : List OpRow := [
  ⟨opSessionOpen, false, true, lcAll, false⟩, ⟨opSessionClose, false, true, lcAll, false⟩,
  ⟨opTakeover, false, true, lcAll, false⟩, ⟨opSetLease, true, true, lcAll, false⟩, ⟨opEcho, false, true, lcAll, false⟩,
  ⟨opPortStatus, false, true, lcAll, false⟩, ⟨opGetIdentity, false, true, lcAll, false⟩,
  ⟨opGetStageReports, false, true, lcAll, false⟩, ⟨opGetCert, false, true, lcPDSR, false⟩,
  ⟨opAttest, false, false, lcPDS, false⟩, ⟨opGetTelemetry, false, true, lcAll, false⟩,
  ⟨opGetNetDigests, false, false, lcPDS, false⟩, ⟨opMemRead, false, false, lcPDS, false⟩,
  ⟨opMemWrite, true, false, lcPDS, false⟩, ⟨opDmaStart, true, false, lcPDS, true⟩,
  ⟨opGraphSubmit, true, false, lcPDS, false⟩, ⟨opTaskRetire, true, false, lcPDS, false⟩,
  ⟨opTaskCancel, true, false, lcPDS, false⟩, ⟨opTaskStatus, false, false, lcPDS, false⟩,
  ⟨opJobStop, true, false, lcPDS, true⟩, ⟨opDoorbellRing, true, false, lcPDS, false⟩, ⟨opSeqRun, true, false, lcPDS, false⟩]

/-- FW_BEGIN, FW_DATA and FW_END: MODE 1 is checked with the MODE. LC_TRANSITION: every state with a transition out (13/T13-9). -/
def opRowsB : List OpRow := [
  ⟨opImageCheck, true, false, lcPDS, true⟩, ⟨opSquareInfo, false, false, lcPDS, false⟩,
  ⟨opStreamSet, true, false, lcPDS, false⟩, ⟨opStreamGet, false, false, lcPDS, false⟩,
  ⟨opPwrSet, true, false, lcPDS, false⟩, ⟨opPwrPins, true, false, lcPDS, false⟩, ⟨opBudgetSet, true, false, lcPDS, false⟩,
  ⟨opBudgetGet, false, false, lcPDS, false⟩, ⟨opTripClear, true, false, lcPDS, false⟩,
  ⟨opFaultRead, false, true, lcAll, false⟩, ⟨opStickyRead, false, true, lcAll, false⟩,
  ⟨opStickyClear, true, true, lcAll, false⟩, ⟨opJobFaults, false, false, lcPDS, false⟩,
  ⟨opFwBegin, true, true, lcAll, false⟩, ⟨opFwData, true, true, lcAll, false⟩, ⟨opFwEnd, true, true, lcAll, false⟩,
  ⟨opFwActivate, true, false, lcPDS, true⟩, ⟨opFwStatus, false, true, lcAll, false⟩, ⟨opLcGet, false, true, lcAll, false⟩,
  ⟨opLcTransition, true, false, lcOut, false⟩, ⟨opKeyEnrol, true, false, lcPS, false⟩, ⟨opReset, true, true, lcAll, false⟩,
  ⟨opTimeGet, false, true, lcAll, false⟩, ⟨opTimeSet, true, false, lcPDS, false⟩]

def opRow (code : Nat) : Option OpRow := (opRowsA ++ opRowsB).find? fun r => r.code == code

/-- An opcode marked "owner". -/
def ownerOnly (code : Nat) : Bool := (opRow code).any fun r => r.owner

/-! ### Framing (10/R345, T10-4). -/

/-- The longest parameters. -/
def maxPlen : Nat := 1048592

/-- What the framing of a transfer gives: DETAIL (0 for a good frame), whether the header could be trusted. -/
def framing (b : List Byte) : Nat × Bool :=
  let n := leAt b 8 4
  if b.length < 16 ∨ leAt b 0 2 ≠ 0x4B5A ∨ leAt b 14 2 ≠ crc16 (b.take 14) then (1, false)
  else if leAt b 2 1 ≠ 1 then (2, true)
  else if leAt b 3 1 / 2 ≠ 0 ∨ leAt b 12 2 ≠ 0 then (3, true)
  else if maxPlen < n ∨ b.length ≠ 16 + n + (if n = 0 then 0 else 4) then (4, true)
  else if n ≠ 0 ∧ leAt b (16 + n) 4 ≠ crc32 ((b.drop 16).take n) then (5, true)
  else if leAt b 6 2 = 0xFFFF then (7, true)
  else (0, true)

/-- The command that a bad transfer leaves to be answered: a framing failure, or an unlisted opcode; none for a good one. -/
def malformed (b : List Byte) : Option Cmd :=
  let f := framing b
  let c : Cmd := { opcode := leAt b 4 2, tag := leAt b 6 2, async := (leAt b 3 1).testBit 0, params := [], arrived := 0, time := 0 }
  if !f.2 then some { c with opcode := 0, tag := 0xFFFF, async := false, bad := some (stBADPARAM, 1) }
  else if f.1 ≠ 0 then some { c with bad := some (stBADPARAM, f.1) }
  else if (opRow c.opcode).isNone then some { c with bad := some (stBADOP, 0) }
  else none

/-- A command as its port receives it, its framing failures that operands can show included. -/
def cmdOf (opcode tag : Nat) (async : Bool) (params : List Byte) : Cmd :=
  { opcode := opcode, tag := tag, async := async, params := params, arrived := 0, time := 0
    bad := if maxPlen < params.length then some (stBADPARAM, 4)
           else if tag = 0xFFFF then some (stBADPARAM, 7) else none }

/-! ### Ownership and lease (10/R352 to R357). -/

/-- The owner's lease starts again. -/
def Hw.kzTouch (hw : Hw) (p : Bool) : Hw :=
  if hw.kz.owner = some p then { hw with kz := { hw.kz with leaseAt := hw.elapsed } } else hw

/-- The lease has run out: a TAKEOVER from the cycle of expiry on is granted when the owner has not restarted it (10/R355). -/
def Hw.leaseDue (hw : Hw) : Bool :=
  hw.kz.owner.isSome && hw.kz.leaseMs != 0 && decide (hw.kz.leaseAt + hw.kz.leaseMs * 1000000 ≤ hw.elapsed)

/-- Whole milliseconds of the lease that are left. -/
def Hw.leaseLeft (hw : Hw) : Nat :=
  if hw.kz.owner.isNone || hw.kz.leaseMs == 0 then 0
  else (hw.kz.leaseAt + hw.kz.leaseMs * 1000000 - hw.elapsed) / 1000000

/-- A command that had not started when its port lost ownership. -/
def Cmd.disowned (c : Cmd) : Cmd := if ownerOnly c.opcode && c.bad.isNone then { c with bad := some (stNOTOWNER, 0) } else c

/-- ID of an owner in a notification. -/
def ownerId (o : Option Bool) : Nat := match o with | none => 0xFFFF | some p => b2n p

/-- Ownership changes (10/R356). -/
def Hw.ownerChange (hw : Hw) (new : Option Bool) (cause : Nat) : Hw :=
  let hw := match hw.kz.owner with
    | some p => hw.modPort p fun q => { q with cmds := q.cmds.map Cmd.disowned }
    | none => hw
  let hw := { hw with kz := { hw.kz with owner := new, leaseAt := hw.elapsed } }
  (hw.noteBoth ⟨7, 0, ownerId new, hw.tb.now, cause, []⟩).irq 19

/-- Reply data of SESSION_OPEN and TAKEOVER. -/
def Hw.sessionData (hw : Hw) (p : Bool) : List Byte :=
  leBytes 1 (b2n (hw.kz.owner == some p)) ++ leBytes 1 (b2n p) ++ leBytes 1 1 ++ leBytes 1 0 ++ leBytes 4 hw.kz.leaseMs

/-- A forced TAKEOVER that waits is granted once the owner has no command in progress (10/R354). -/
def Hw.kzGrant (hw : Hw) : Hw :=
  let waits : Bool → Option Cmd := fun p => match (hw.portOf p).current with
    | some (c, .grant) => some c
    | _ => none
  let idle := match hw.kz.owner with | some o => (hw.portOf o).current.isNone | none => true
  let grant : Bool → Cmd → Hw := fun p c =>
    let hw := hw.ownerChange (some p) (if hw.kz.owner.isNone then 2 else 3)
    (hw.reply p c stOK 0 (hw.sessionData p)).modPort p fun q => { q with current := none }
  if !idle then hw
  else match waits false, waits true with
    | some c, _ => grant false c
    | none, some c => grant true c
    | none, none => hw

/-- The cycle of expiry is over too, in which a command or transfer of the owner still restarts the lease (00/R18, 10/R355). -/
def Hw.leasePast (hw : Hw) : Bool := hw.leaseDue && decide (hw.kz.leaseAt + hw.kz.leaseMs * 1000000 < hw.elapsed)

/-- LEASE_EXPIRY. -/
def Hw.leaseExpiry (hw : Hw) : Hw := if hw.leasePast then (hw.ownerChange none 4).kzGrant else hw

/-- The port's link is lost, or comes up again after a reset (10/R353): its ownership ends, and its commands that have not
started are answered as 10/R356 says. No command and no reply is discarded (log 130). -/
def Hw.portCut (hw : Hw) (p up : Bool) (cause : Nat) : Hw :=
  let was := (hw.portOf p).suspended
  let hw := hw.modPort p fun q => { q with up := up, suspended := q.suspended && up, waking := q.waking && up }
  let hw := if was && !up then hw.irq (20 + b2n p) else hw
  let hw := if hw.kz.owner = some p then hw.ownerChange none cause else hw
  (hw.irq (206 + b2n p)).kzGrant

/-! ### USB events (10/R344, R353, 14/R478). -/

/-- VBUS of a port, as its pin shows it. -/
def Supply.vbus (s : Supply) (p : Bool) : Bool := if p then s.vbusB else s.vbusA

/-- A port trains when its VBUS is present and its PLL has locked at S2. -/
def Hw.portReady (hw : Hw) (p : Bool) : Bool := hw.supply.vbus p && decide (2 ≤ hw.bring.last) && hw.isOn (domUsb p)

/-- USB_LINK_LOSS: the link is disabled or inactive or the device detached (`reset` false), or the host resets the port. -/
def Hw.linkLoss (hw : Hw) (p reset : Bool) : Hw :=
  if !(hw.portOf p).up then hw
  else if reset then hw.portCut p (hw.portReady p) 6 else hw.portCut p false 5

/-- USB_SUSPEND: the port enters or leaves U3; `wake` is the function remote wake that the host has enabled. Its domain follows
into RETAIN under the idle policy: at once, or by a later DOMAIN_IDLE_ENTRY (08/R296, R297, R300). -/
def Hw.usbSuspend (hw : Hw) (p enter wake : Bool) : Hw :=
  if !(hw.portOf p).up || (hw.portOf p).suspended == enter then hw
  else
    let hw := hw.modPort p fun q => { q with suspended := enter, remoteWake := enter && wake, waking := false }
    let hw := if enter then hw.idleEntry (domUsb p) else hw.wakeDom (domUsb p)
    (hw.irq (20 + b2n p)).irq (206 + b2n p)

/-- VBUS_CHANGE. -/
def Hw.vbusChange (hw : Hw) (p present : Bool) : Hw :=
  let was := (hw.portOf p).up
  let hw := { hw with supply := if p then { hw.supply with vbusB := present } else { hw.supply with vbusA := present } }
  if present then
    if hw.portReady p && !was then (hw.modPort p fun q => { q with up := true }).irq (206 + b2n p) else hw
  else if was then hw.portCut p false 5 else hw

/-! ### What the host takes (10/R349, R362). -/

/-- The 48 bytes of a notification. -/
def noteBytes (n : Note) (lost : Nat) : List Byte :=
  let h := leBytes 2 0x4E54 ++ leBytes 1 1 ++ leBytes 1 n.kind ++ leBytes 1 n.status ++ leBytes 1 lost ++ leBytes 2 n.id
    ++ leBytes 8 n.time ++ leBytes 8 n.aux ++ sliceB n.data 0 16 ++ leBytes 4 0
  h ++ leBytes 4 (crc32 h)

/-- The port can move transfers. -/
def Port.live (q : Port) : Bool := q.up && !q.suspended

/-- NOTIFICATION_DELIVERED. -/
def Hw.noteTake (hw : Hw) (p : Bool) : Hw :=
  if !(hw.portOf p).live then hw
  else hw.modPort p fun q =>
    match q.notes with
    | [] => q
    | n :: r => { q with notes := r, lost := 0, lastNote := noteBytes n q.lost }

/-- The reply that the host collects. -/
def Port.collect (q : Port) : Port :=
  match q.replies with
  | [] => q
  | b :: r => { q with replies := r, lastReply := b }

end Sys2Proof.Machine
end

