-- ==== Sys2Proof/Machine/KzOps.lean ====
section
/-! DEFINITION. What each Kezil opcode does once its checks have passed, but firmware and life-cycle (10/R363, R364, Tables 10-8
to 10-14 and 10-17). -/

namespace Sys2Proof.Machine

/-- How a command goes on: answered in this step (status, DETAIL, data); its work done in this step, whose status is the
outcome; waiting; or answered and followed by a warm reset. -/
inductive KzOut where
  | done (status detail : Nat) (data : List Byte)
  | work (status : Nat) (data : List Byte)
  | wait (w : KWait)
  | reset (cause : Nat)
  deriving DecidableEq, Repr

/-- A parameter failure (10/R348 step 6). -/
def badParam : KzOut := .done stBADPARAM 6 []

/-- OK with data. -/
def okData (b : List Byte) : KzOut := .done stOK 0 b

/-- An opcode without parameters that only returns data. -/
def Hw.kzInfo (hw : Hw) (ps : List Byte) (data : List Byte) : Hw × KzOut :=
  (hw, if ps = [] then okData data else badParam)

/-! ### Session and ownership (10/T10-8). -/

def Hw.kzSessionOpen (hw : Hw) (p : Bool) (ps : List Byte) : Hw × KzOut :=
  if ps ≠ [] then (hw, badParam)
  else
    let hw := if hw.kz.owner.isNone then hw.ownerChange (some p) 0 else hw
    (hw, okData (hw.sessionData p))

def Hw.kzSessionClose (hw : Hw) (p : Bool) (ps : List Byte) : Hw × KzOut :=
  if ps ≠ [] then (hw, badParam)
  else (if hw.kz.owner = some p then hw.ownerChange none 1 else hw, okData [])

/-- TAKEOVER (10/R354, R355): a lease that has run out is settled first. With FORCE = 0 it needs that neither port owns; forced by
the owner itself it changes nothing (log 129). -/
def Hw.kzTakeover (hw : Hw) (p : Bool) (ps : List Byte) : Hw × KzOut :=
  if ps.length ≠ 1 ∨ 1 < leAt ps 0 1 then (hw, badParam)
  else
    let hw := if hw.leaseDue && hw.kz.owner != some p then hw.ownerChange none 4 else hw
    match hw.kz.owner with
    | none => let hw := hw.ownerChange (some p) 2; (hw, okData (hw.sessionData p))
    | some o =>
      if leAt ps 0 1 = 0 then (hw, .done stNOTOWNER 0 [])
      else if o = p then (hw, okData (hw.sessionData p))
      else if (hw.portOf o).current.isSome then (hw, .wait .grant)
      else let hw := hw.ownerChange (some p) 3; (hw, okData (hw.sessionData p))

def Hw.kzSetLease (hw : Hw) (ps : List Byte) : Hw × KzOut :=
  if ps.length ≠ 4 ∨ 60000 < leAt ps 0 4 then (hw, badParam)
  else ({ hw with kz := { hw.kz with leaseMs := leAt ps 0 4, leaseAt := hw.elapsed } }, okData [])

def Hw.kzEcho (hw : Hw) (ps : List Byte) : Hw × KzOut :=
  (hw, if ps.length ≤ 64 then okData ps else badParam)

/-- PORT_STATUS: the commands queued do not count the one being answered. -/
def Hw.portStatus (hw : Hw) (p : Bool) : List Byte :=
  let q := hw.portOf p
  leBytes 1 (ownerId hw.kz.owner % 256) ++ leBytes 1 hw.stageCode ++ zeros 2 ++ leBytes 4 hw.leaseLeft
    ++ leBytes 2 (Nat.min hw.results.length 0xFFFF) ++ leBytes 2 (Nat.min q.discarded 0xFFFF)
    ++ leBytes 1 q.cmds.length ++ leBytes 1 q.replies.length ++ leBytes 2 q.notes.length

/-! ### Information and attestation (10/T10-9, 13/R445, R446). -/

/-- GET_CERT: an unwritten store holds no byte. -/
def Hw.kzGetCert (hw : Hw) (ps : List Byte) : Hw × KzOut :=
  if ps.length ≠ 1 ∨ 1 < leAt ps 0 1 then (hw, badParam)
  else
    let c := hw.sec.certs.getD ([], [])
    (hw, okData (if leAt ps 0 1 = 0 then c.1 else c.2))

/-- Bytes 0x0000 to 0x113F of the FUSE window. -/
def Fuses.bytes (f : Fuses) : List Byte := (List.range 1104).flatMap fun i => leBytes 4 (f.word (4 * i))

/-- The attestation report (13/T13-7). -/
def Hw.attReport (hw : Hw) (nonce : List Byte) : List Byte :=
  leBytes 2 0x5441 ++ leBytes 1 1 ++ leBytes 1 hw.fuses.lc ++ leBytes 1 hw.fuses.grade ++ leBytes 1 hw.stageCode
    ++ leBytes 1 hw.rt.moduleId ++ zeros 1 ++ leBytes 16 hw.fuses.serial.toNat ++ leBytes 8 hw.tb.now ++ sliceB nonce 0 64
    ++ leBytes 64 hw.fw.digest.toNat ++ shaBytes hw.fuses.bytes ++ shaBytes hw.netDigests
    ++ leBytes 64 (if hw.fuses.keysUsed = 0 then 0 else hw.fuses.keyInForce.toNat) ++ hw.stageReports
    ++ leBytes 8 hw.fusedMask ++ leBytes 8 hw.fencedMask

/-- The context string MERATH-ATT. -/
def attContext : List Byte := [0x4D, 0x45, 0x52, 0x41, 0x54, 0x48, 0x2D, 0x41, 0x54, 0x54]

/-- Length of an ML-DSA-87 signature (13/R446). -/
def sigLen : Nat := 4627

def Hw.kzAttest (hw : Hw) (ps : List Byte) : Hw × KzOut :=
  if ps.length ≠ 64 then (hw, badParam)
  else
    let r := hw.attReport ps
    let sig := sliceB (Config.mlDsaSign hw.fuses.idSeed r attContext hw.fresh) 0 sigLen
    ({ hw with fresh := hw.fresh + 1 }, okData (r ++ sig))

/-! ### Memory access (10/R364). -/

/-- The lowest of channels 0 to 3 that is free; 10/R364 says only that one of them carries the access (DESIGN CHOICE, log 208). -/
def Hw.kzChannel (hw : Hw) : Option Nat := firstOf [0, 1, 2, 3] fun c => !(hw.dmaOf c).run

/-- The one descriptor of a memory command; the module side is `a`, the other side the command. With WIDTH = 1 it takes 4-byte
accesses as a register side. A range that 07/R258 refuses moves no byte. -/
def Hw.kzDesc (hw : Hw) (write : Bool) (a n width : Nat) (data : List Byte) : DmaDesc :=
  let reg := width == 1
  let w := if reg then 2 else 0
  let st := if hw.sideOk a n false w write reg then stOK else stBADPARAM
  { addr := 0, src := if write then 0 else a, sfix := false, sw := if write then 0 else w
    dst := if write then a else 0, dfix := false, dw := if write then w else 0
    len := n, barrier := true, irq := false, rowload := false, nextV := false, next := 0, dirEnt := 0, dirIdx := 0, dirV := false
    asked := if write || st != stOK then n else 0, taken := if write then n else 0, funnel := if write then data else []
    status := st, fenced := st != stOK }

/-- The parameters of MEM_READ and MEM_WRITE lie in their ranges. -/
def memParams (write : Bool) (ps : List Byte) : Bool :=
  let n := leAt ps 8 4
  decide (13 ≤ ps.length) && decide (leAt ps 0 8 < 2 ^ 44) && decide (1 ≤ n ∧ n ≤ 0x100000) && decide (leAt ps 12 1 ≤ 1)
    && ps.length == 13 + (if write then n else 0)

/-- MEM_READ and MEM_WRITE. -/
def Hw.kzMem (hw : Hw) (write : Bool) (ps : List Byte) : Hw × KzOut :=
  let a := leAt ps 0 8
  let n := leAt ps 8 4
  let width := leAt ps 12 1
  if !memParams write ps then (hw, badParam)
  else match hw.kzChannel with
    | none => (hw, .done stBUSY 0 [])
    | some c =>
      let d := hw.kzDesc write a n width (ps.drop 13)
      let hw := hw.dmaStart c none
      (hw.modDma c fun k => { k with d := some d, kmode := if write then 2 else 1 }, .wait (.chain c))

def Hw.kzMemRead (hw : Hw) (ps : List Byte) : Hw × KzOut := hw.kzMem false ps
def Hw.kzMemWrite (hw : Hw) (ps : List Byte) : Hw × KzOut := hw.kzMem true ps

def Hw.kzDmaStart (hw : Hw) (ps : List Byte) : Hw × KzOut :=
  let c := leAt ps 0 1
  let a := leAt ps 1 8
  if ps.length ≠ 9 ∨ c < 4 ∨ 11 < c ∨ 2 ^ 40 ≤ a then (hw, badParam)
  else if (hw.dmaOf c).run then (hw, .done stBUSY 0 [])
  else ((hw.modDma c fun k => { k with desc := a }).dmaStart c none, .wait (.chain c))

/-! ### Graph (10/T10-11). -/

/-- A list of 1 to 256 items of `n` bytes. -/
def itemsOk (ps : List Byte) (n : Nat) : Bool :=
  ps.length % n == 0 && decide (1 ≤ ps.length / n ∧ ps.length / n ≤ 256)

/-- The TIDs of a parameter list. -/
def tidsOf (ps : List Byte) : List Nat := (List.range (ps.length / 2)).map fun i => leAt ps (2 * i) 2

/-- A list of TIDs of the stated range (08/R268). -/
def tidsOk (ps : List Byte) : Bool := itemsOk ps 2 && (tidsOf ps).all fun t => decide (t ≤ 4095)

def Hw.kzGraphSubmit (hw : Hw) (ps : List Byte) : Hw × KzOut :=
  if !itemsOk ps 64 then (hw, badParam)
  else let r := hw.submit ps; (r.1, .done r.2.1 r.2.2 [])

def Hw.kzTaskRetire (hw : Hw) (ps : List Byte) : Hw × KzOut :=
  if !tidsOk ps then (hw, badParam)
  else let r := hw.retire (tidsOf ps); (r.1, .done r.2.1 r.2.2 [])

def Hw.kzTaskCancel (hw : Hw) (ps : List Byte) : Hw × KzOut :=
  if ps.length ≠ 2 ∨ 4095 < leAt ps 0 2 then (hw, badParam)
  else let r := hw.cancel (leAt ps 0 2); (r.1, .done r.2 0 [])

def Hw.kzTaskStatus (hw : Hw) (ps : List Byte) : Hw × KzOut :=
  (hw, if tidsOk ps then okData ((tidsOf ps).flatMap fun t => leBytes 8 (hw.taskRecord t)) else badParam)

def Hw.kzJobStop (hw : Hw) (ps : List Byte) : Hw × KzOut :=
  let j := leAt ps 0 1
  if ps.length ≠ 1 ∨ 3 < j then (hw, badParam)
  else if !(hw.jobOf j).active then (hw, .done stBADPARAM 0 [])
  else if (hw.jobOf j).ntempo ≠ 0 then (hw, .done stBUSY 0 [])
  else (hw.modJob j Job.stopNow, .wait (.task (hw.jobOf j).tid))

def Hw.kzDoorbellRing (hw : Hw) (ps : List Byte) : Hw × KzOut :=
  if ps.length ≠ 4 then (hw, badParam) else (hw.ring (leAt ps 0 4), okData [])

def Hw.kzSeqRun (hw : Hw) (ps : List Byte) : Hw × KzOut :=
  if ps.length ≠ 1 ∨ 1 < leAt ps 0 1 then (hw, badParam)
  else ({ hw with seq := { hw.seq with run := leAt ps 0 1 == 1 } }, okData [])

/-! ### Networks, squares and streams (10/T10-12). -/

/-- IMAGE_CHECK; the PSRAM pairs of the image are woken. An address outside PSRAM is a parameter out of its range. -/
def Hw.kzImageCheck (hw : Hw) (ps : List Byte) : Hw × KzOut :=
  if ps.length ≠ 13 ∨ 1 < leAt ps 12 1 ∨ !inPsram (leAt ps 0 8) 1 then (hw, badParam)
  else
    let a := leAt ps 0 8
    let len := some (leAt ps 8 4)
    let r := hw.envelope a len (some (leAt ps 12 1))
    let hw := if inPsram a envLen then (psramPairs a (leAt ps 8 4)).foldl (fun (h : Hw) k => h.wakeDom (domPsc k)) hw else hw
    if hw.envHeld a len then (hw, .wait .retry)
    else (if inPsram a envLen then hw.touchPsram a (hw.envRange a len) else hw, .work r.1 ((r.2.1.drop 8).take 64))

/-- SQUARE_INFO: of a fenced router only FENCED and RT_FENCED (06/R226). -/
def Hw.squareInfo (hw : Hw) (s : Nat) : List Byte :=
  let q := hw.sqOf s
  if q.rt.fenced then leBytes 4 512 ++ zeros 24 ++ leBytes 1 4 ++ leBytes 1 0xFF ++ zeros 66
  else
    ((List.range 7).flatMap fun i => leBytes 4 (q.ctlRead s (4 * i))) ++ leBytes 1 (hw.rtrRead s 0xC)
      ++ leBytes 1 ((hw.jobOfSq s).getD 0xFF) ++ zeros 2 ++ leBytes 64 (if q.loaded then q.digest.toNat else 0)

def Hw.kzSquareInfo (hw : Hw) (ps : List Byte) : Hw × KzOut :=
  (hw, if ps.length ≠ 1 ∨ 63 < leAt ps 0 1 then badParam else okData (hw.squareInfo (leAt ps 0 1)))

def Hw.streamOf (hw : Hw) (n : Nat) : Stream := mget {} hw.kz.streams n

/-- A group entry of STREAM_SET. -/
def streamGroup (w : Nat) : StreamGroup := ⟨fld w 13 0, fld w 21 14, fld w 27 22⟩

def StreamGroup.word (g : StreamGroup) : Nat := g.group + g.ord * 2 ^ 14 + g.asq * 2 ^ 22

/-- The groups of a STREAM_SET as words. -/
def groupWords (ps : List Byte) : List Nat := (List.range (leAt ps 2 1)).map fun i => leAt ps (8 + 8 * i) 8

/-- The parameters of STREAM_SET lie in their ranges. -/
def streamOk (ps : List Byte) : Bool :=
  decide (8 ≤ ps.length) && decide (leAt ps 0 1 ≤ 5) && decide (leAt ps 1 1 ≤ 1) && decide (leAt ps 2 1 ≤ 64) && leAt ps 3 1 == 0
    && ps.length == 8 + 8 * leAt ps 2 1
    && (groupWords ps).all (fun w => w / 2 ^ 28 == 0 && (decide (fld w 27 22 < 8) || decide (56 ≤ fld w 27 22)))
    && !(repeats ((groupWords ps).map fun w => fld w 13 0))

/-- The job of a stream runs: the job of the JOB_ID that STREAM_SET has given it (10/R359). -/
def Hw.streamBusy (hw : Hw) (n : Nat) : Bool := hw.kz.streams.any fun x => x.1 == n && (hw.jobById x.2.jobId).isSome

/-- STREAM_SET (10/R359): BUSY for a stream whose job runs. One enabled for a job that runs already joins that JOB_ID's next
job (log 134). -/
def Hw.kzStreamSet (hw : Hw) (ps : List Byte) : Hw × KzOut :=
  if !streamOk ps then (hw, badParam)
  else
    let n := leAt ps 0 1
    if hw.streamBusy n then (hw, .done stBUSY 0 [])
    else
      let x : Stream := { enable := leAt ps 1 1 == 1, jobId := leAt ps 4 4, groups := (groupWords ps).map streamGroup, joined := none }
      ({ hw with kz := { hw.kz with streams := mset hw.kz.streams n x } }, okData [])

def Hw.streamBytes (hw : Hw) (n : Nat) : List Byte :=
  let x := hw.streamOf n
  leBytes 1 n ++ leBytes 1 (b2n x.enable) ++ leBytes 1 x.groups.length ++ zeros 1 ++ leBytes 4 x.jobId
    ++ x.groups.flatMap fun g => leBytes 8 g.word

def Hw.kzStreamGet (hw : Hw) (ps : List Byte) : Hw × KzOut :=
  (hw, if ps.length ≠ 1 ∨ 5 < leAt ps 0 1 then badParam else okData (hw.streamBytes (leAt ps 0 1)))

/-! ### Power and budget (10/T10-13). -/

def Hw.kzPwrSet (hw : Hw) (ps : List Byte) : Hw × KzOut :=
  if ps.length ≠ 2 ∨ 90 < leAt ps 0 1 ∨ 2 < leAt ps 1 1 then (hw, badParam)
  else let r := hw.pwrReq (leAt ps 0 1) (leAt ps 1 1); (r.1, .done r.2 0 [])

def Hw.kzPwrPins (hw : Hw) (ps : List Byte) : Hw × KzOut :=
  if ps.length ≠ 12 then (hw, badParam)
  else (((hw.pinWrite 0 (leAt ps 0 4)).pinWrite 1 (leAt ps 4 4)).pinWrite 2 (leAt ps 8 4), okData [])

/-- Values of BUDGET_SET that its registers take. -/
def budgetOk (ps : List Byte) : Bool :=
  let r : Nat → Nat → Nat → Bool := fun lo hi v => decide (lo ≤ v ∧ v ≤ hi)
  ps.length == 12 && r 1000 60000 (leAt ps 0 4) && r 64 255 (leAt ps 4 1) && r 10 50 (leAt ps 5 1) && r 60 115 (leAt ps 6 1)
    && r 32 255 (leAt ps 7 1) && leAt ps 9 3 == 0

def Hw.kzBudgetSet (hw : Hw) (ps : List Byte) : Hw × KzOut :=
  if !budgetOk ps then (hw, badParam)
  else
    let b := hw.bud
    ({ hw with bud := { b with
        limit := leAt ps 0 4, slack := leAt ps 4 1, didt := leAt ps 5 1, tlim := leAt ps 6 1, rth := leAt ps 7 1
        tcpExt := leAt ps 8 1 } }, okData [])

/-- BUD_CTL, BUD_WINDOW, BUD_THERM, BUD_TEMP, BUD_AVAIL, BUD_EMEAS and BUD_STATUS. -/
def Hw.budgetBytes (hw : Hw) : List Byte := (List.range 7).flatMap fun i => leBytes 4 (hw.budRead (4 * i))

def Hw.kzTripClear (hw : Hw) (ps : List Byte) : Hw × KzOut :=
  if ps ≠ [] then (hw, badParam)
  else if !hw.bud.hot.isEmpty then (hw, .done stBUSY 0 [])
  else ({ hw with bud := { hw.bud with trip := hw.bud.trip && (hw.rose .budget).testBit 4 } }, okData [])

/-! ### Faults and records (10/T10-14). -/

/-- A record lies from a SEQ upward: within half of the 32-bit space. -/
def seqFrom (first : Nat) (b : List Byte) : Bool := decide ((leAt b 0 4 + 2 ^ 32 - first) % 2 ^ 32 < 2 ^ 31)

def Hw.faultsFrom (hw : Hw) (first count : Nat) : List Byte :=
  ((hw.flt.ring.filter (seqFrom first)).take (if count = 0 then 256 else count)).flatten

def Hw.kzFaultRead (hw : Hw) (ps : List Byte) : Hw × KzOut :=
  (hw, if ps.length ≠ 5 then badParam else okData (hw.faultsFrom (leAt ps 0 4) (leAt ps 4 1)))

/-- Clear the bits of a mask in a value. -/
def clearBits (v m : Nat) : Nat := v - (v &&& m)

def Hw.kzStickyClear (hw : Hw) (ps : List Byte) : Hw × KzOut :=
  if ps.length ≠ 272 then (hw, badParam)
  else
    let hw := { hw with flt := { hw.flt with
      sticky1 := clearBits hw.flt.sticky1 (hw.clears .sticky1 (leAt ps 8 4))
      sticky2 := clearBits hw.flt.sticky2 (hw.clears .sticky2 (leAt ps 12 4)) } }
    let hw := forAll (List.range 64) (fun s h =>
      h.modFlt s fun f => { f with sticky := clearBits f.sticky (h.clears (.faults s) (leAt ps (16 + 4 * s) 4)) }) hw
    (hw, okData [])

def Hw.jobFaultBytes (hw : Hw) (j : Nat) : List Byte :=
  let k := hw.jobOf j
  leBytes 8 k.snapWord ++ leBytes 4 k.rstWord ++ zeros 4 ++ leBytes 8 k.outWord

def Hw.kzJobFaults (hw : Hw) (ps : List Byte) : Hw × KzOut :=
  (hw, if ps.length ≠ 1 ∨ 3 < leAt ps 0 1 then badParam else okData (hw.jobFaultBytes (leAt ps 0 1)))

/-! ### Time (10/T10-17). -/

/-- TIME_GET; `at_` is the timebase when the command's last byte arrived. -/
def Hw.timeBytes (hw : Hw) (at_ : Nat) : List Byte :=
  leBytes 8 at_ ++ leBytes 8 hw.tb.now
    ++ leBytes 1 (b2n (hw.tb.state == .disciplined) + 2 * b2n hw.tb.refPresent + 4 * b2n hw.tb.ppsPresent) ++ zeros 7

def Hw.kzTimeSet (hw : Hw) (ps : List Byte) : Hw × KzOut :=
  if ps.length ≠ 8 then (hw, badParam)
  else let r := hw.tbSet (leAt ps 0 8); (r.1, .done r.2 0 [])

end Sys2Proof.Machine
end

