-- ==== Sys2Proof/Machine/KzFw.lean ====
section
/-! DEFINITION. Firmware transfer, life-cycle transitions and key enrolment by Kezil commands (10/R365, R366, 13/R442, R450 to
R453, Tables 10-15, 10-16, 13-9 and 13-10). -/

namespace Sys2Proof.Machine

/-! ### Firmware (10/T10-15). -/

/-- The control complex takes a MODE 0 image: S4 of bring-up, or the S4 it runs alone. -/
def Hw.s4Runs (hw : Hw) : Bool := hw.inStage 4 || hw.bring.ctrlS4.isSome

/-- The number of the stage in progress (10/R348). -/
def Hw.stageNo (hw : Hw) : Nat := if hw.bring.ctrlS4.isSome then 4 else hw.bring.stage

/-- S8 is reached, and the control complex does not run S4 alone (10/R348, 13/R435). -/
def Hw.served (hw : Hw) : Bool := hw.ready && hw.bring.ctrlS4.isNone

/-- FW_BEGIN. MODE 1 is permitted in P, D and S. -/
def Hw.kzFwBegin (hw : Hw) (ps : List Byte) : Hw × KzOut :=
  let n := leAt ps 0 4
  let mode := leAt ps 4 1
  if ps.length = 8 ∧ mode = 1 ∧ !hw.fuses.inUse then (hw, .done stLIFECYCLE 0 [])
  else if ps.length ≠ 8 ∨ n = 0 ∨ 16777216 < n ∨ 1 < mode ∨ leAt ps 5 3 ≠ 0 then (hw, badParam)
  else if mode = 1 ∧ !hw.served then (hw, .done stBUSY hw.stageNo [])
  else if mode = 0 ∧ !hw.s4Runs then
    (hw, if hw.ready then badParam else .done stBUSY hw.stageNo [])
  else
    ({ hw with fw := { hw.fw with
      xfer := 1, mode := mode, length := n, received := 0, bootImage := [], bootOk := false, stagedVersion := 0, stagedLength := 0 } },
     okData [])

/-- The transfer in progress, or the staged image, is discarded. -/
def Hw.fwDrop (hw : Hw) : Hw :=
  { hw with fw := { hw.fw with xfer := 0, received := 0, length := 0, bootImage := [], stagedVersion := 0, stagedLength := 0 } }

/-- FW_DATA: an offset other than the next one, or bytes beyond the image, discard the transfer. Staged bytes on a channel that
has failed are not written (12/R412), and wait while it trains (12/R411). -/
def Hw.kzFwData (hw : Hw) (ps : List Byte) : Hw × KzOut :=
  let b := ps.drop 4
  if ps.length < 5 ∨ 1048576 < b.length then (hw, badParam)
  else if hw.fw.xfer ≠ 1 then (hw, .done stBADPARAM 0 [])
  else if leAt ps 0 4 ≠ hw.fw.received ∨ hw.fw.length < hw.fw.received + b.length then (hw.fwDrop, .done stBADPARAM 0 [])
  else if hw.fw.mode = 1 ∧ hw.psramHeld (stagingBase + hw.fw.received) b.length then
    (hw.wakePsram (stagingBase + hw.fw.received) b.length, .wait .retry)
  else if hw.fw.mode = 1 ∧ hw.psramAbsent (stagingBase + hw.fw.received) b.length then (hw, .done stABSENT 0 [])
  else
    let at_ := hw.fw.received
    let hw := if hw.fw.mode = 1 then hw.touchPsram (stagingBase + at_) b.length else hw
    let hw : Hw := if hw.fw.mode = 1 then hw.wr (stagingBase + at_) b
      else { hw with fw := { hw.fw with bootImage := hw.fw.bootImage ++ b } }
    ({ hw with fw := { hw.fw with received := at_ + b.length } }, okData [])

/-- The image of the transfer in progress. -/
def Hw.fwImage (hw : Hw) : List Byte := if hw.fw.mode = 1 then hw.rd stagingBase hw.fw.length else hw.fw.bootImage

/-- FW_END: the image is checked; then S4 loads it, or it is staged. A staged image on a channel that has failed is not read, as
FW_DATA is not written there (12/R412). -/
def Hw.kzFwEnd (hw : Hw) (ps : List Byte) : Hw × KzOut :=
  if ps ≠ [] then (hw, badParam)
  else if hw.fw.xfer ≠ 1 then (hw, .done stBADPARAM 0 [])
  else if hw.fw.received ≠ hw.fw.length then (hw.fwDrop, .done stBADPARAM 0 [])
  else if hw.fw.mode = 1 ∧ hw.psramHeld stagingBase hw.fw.length then (hw.wakePsram stagingBase hw.fw.length, .wait .retry)
  else if hw.fw.mode = 1 ∧ hw.psramAbsent stagingBase hw.fw.length then (hw, .done stABSENT 0 [])
  else
    let img := hw.fwImage
    let st := hw.fwCheck img
    if st ≠ stOK then (hw.fwDrop, .done st 0 [])
    else if hw.fw.mode = 0 then ({ hw with fw := { hw.fw with xfer := 0, bootOk := true } }, okData (shaBytes img))
    else ({ hw with fw := { hw.fw with xfer := 2, stagedVersion := fwVersion img, stagedLength := img.length } }, okData (shaBytes img))

/-- FW_ACTIVATE step 1; the cores then report one by one (13/R442). A channel of the image that has failed answers ABSENT. -/
def Hw.kzFwActivate (hw : Hw) (ps : List Byte) : Hw × KzOut :=
  if ps ≠ [] then (hw, badParam)
  else if hw.fw.xfer ≠ 2 then (hw, .done stBADPARAM 0 [])
  else if hw.psramHeld stagingBase hw.fw.stagedLength then (hw.wakePsram stagingBase hw.fw.stagedLength, .wait .retry)
  else if hw.psramAbsent stagingBase hw.fw.stagedLength then (hw, .done stABSENT 0 [])
  else
    let st := hw.fwCheck hw.stagedImage
    if st ≠ stOK then (hw.fwDrop, .work st []) else (hw.fwActStart, .wait .activation)

def Hw.fwStatusBytes (hw : Hw) : List Byte :=
  leBytes 1 hw.fw.xfer ++ zeros 3 ++ leBytes 4 hw.fw.received ++ leBytes 4 hw.fw.version ++ leBytes 4 hw.fw.stagedVersion

/-! ### Authorisations (13/T13-10, R451). -/

/-- Bits of LC_COUNT blown. -/
def Fuses.lcN (f : Fuses) : Nat := popCount 64 f.lcCount.toNat

/-- The context string MERATH-AUTH. -/
def authContext : List Byte := [0x4D, 0x45, 0x52, 0x41, 0x54, 0x48, 0x2D, 0x41, 0x55, 0x54, 0x48]

/-- Length of an authorisation but its extra data. -/
def authLen : Nat := 7347

def authExtra (a : List Byte) : List Byte := (a.drop 128).take (leAt a 6 2)

/-- Every field lies in its range for an action and a target. -/
def authForm (a : List Byte) (action target : Nat) : Bool :=
  leAt a 0 2 == 0x4141 && leAt a 2 1 == 1 && leAt a 3 1 == action && leAt a 4 1 == target && decide (leAt a 5 1 ≤ 1)
    && decide (leAt a 6 2 ≤ 32768) && decide (leAt a 24 1 ≤ 64) && decide (leAt a 25 1 ≤ 4) && allZero ((a.drop 26).take 6)
    && (action == 2 || allZero ((a.drop 32).take 64)) && allZero ((a.drop 96).take 32)

/-- The digest of the key that a signer code names. -/
def Hw.signerDigest (hw : Hw) (signer : Nat) : BitVec 512 := if signer = 0 then Config.authorityDigest else hw.fuses.keyInForce

/-- The checks that give AUTH_FAIL, for the signer that is required. -/
def Hw.authOk (hw : Hw) (a : List Byte) (signer : Nat) : Bool :=
  let key := (a.drop (128 + leAt a 6 2)).take 2592
  let m := a.take (a.length - sigLen)
  leAt a 8 16 == hw.fuses.serial.toNat && leAt a 24 1 == hw.fuses.lcN && leAt a 25 1 == hw.fuses.keysUsed && leAt a 5 1 == signer
    && Config.sha3 key == hw.signerDigest signer && Config.mlDsaVerify key m authContext (a.drop (a.length - sigLen))

/-! ### LC_TRANSITION (13/R450 to R452). -/

/-- The length of the DER element at the head of bytes, header included. -/
def derLen (b : List Byte) : Nat :=
  let l := leAt b 1 1
  if l < 128 then 2 + l
  else if l = 0x81 then 3 + leAt b 2 1
  else if l = 0x82 then 4 + 256 * leAt b 2 1 + leAt b 3 1
  else 0

/-- The module certificate and the authority certificate of the extra data: two DER sequences of at most 16,384 bytes. -/
def twoCerts (x : List Byte) : Option (List Byte × List Byte) :=
  let n := derLen x
  let r := x.drop n
  if leAt x 0 1 = 0x30 ∧ leAt r 0 1 = 0x30 ∧ 2 ≤ n ∧ n ≤ 16384 ∧ derLen r = r.length ∧ 2 ≤ r.length ∧ r.length ≤ 16384 then
    some (x.take n, r) else none

/-- A transition that Table 13-9 lists. -/
def lcListed (f : Fuses) (target : Nat) : Bool :=
  match f.lc with
  | 0 => target == 1 || target == 4
  | 1 => target == 2 || target == 4
  | 2 => (target == 3 && f.lcN != 64) || target == 4
  | 3 => target == 2 || target == 4
  | _ => false

/-- The signer that a transition requires. -/
def Hw.lcSigner (hw : Hw) : Nat := if hw.fuses.lc = 0 ∨ hw.fuses.keysUsed = 0 then 0 else 1

/-- The fuses after a transition: the next bit of LC_COUNT, or RETIRED, whose value is only known not to be zero (log 32). -/
def Hw.lcBlow (hw : Hw) (target : Nat) : Hw :=
  if target = 4 then
    { hw with fresh := hw.fresh + 1
              fuses := { hw.fuses with retired := BitVec.ofNat 32 (1 + Config.freeValue hw.fresh % (2 ^ 32 - 1)) } }
  else { hw with fuses := { hw.fuses with lcCount := BitVec.ofNat 64 (2 ^ (hw.fuses.lcN + 1) - 1) } }

/-- LC_TRANSITION: the reply goes out, then certificates and fuses are written and the module is reset. -/
def Hw.kzLcTransition (hw : Hw) (ps : List Byte) : Hw × KzOut :=
  let target := leAt ps 0 1
  let a := ps.drop 1
  let first := hw.fuses.lc == 0 && target == 1
  let x := authExtra a
  if a.length < authLen ∨ a.length ≠ authLen + leAt a 6 2 then (hw, badParam)
  else if !lcListed hw.fuses target then (hw, .done stLIFECYCLE 0 [])
  else if !authForm a 1 target || (if first then (twoCerts x).isNone else x != []) then (hw, badParam)
  else if hw.anyJob || hw.fw.actCore.isSome then (hw, .done stBUSY 0 [])
  else if !hw.authOk a hw.lcSigner || (first && some (Config.certPublicKey (x.take (derLen x))) != hw.sec.publicKey) then
    (hw, .done stAUTH 0 [])
  else
    let hw : Hw := if first then { hw with sec := { hw.sec with certs := twoCerts x } } else hw
    (hw.lcBlow target, .reset 3)

/-! ### KEY_ENROL (13/R453). -/

/-- The lowest unused key slot. -/
def Fuses.freeKey (f : Fuses) : Option Nat := firstOf [0, 1, 2, 3] fun k => mget 0 f.key k == 0

def Hw.kzKeyEnrol (hw : Hw) (ps : List Byte) : Hw × KzOut :=
  let key := ps.take 2592
  let a := ps.drop 2592
  let d := Config.sha3 key
  if ps.length < 2592 + authLen ∨ a.length ≠ authLen + leAt a 6 2 then (hw, badParam)
  else if !authForm a 2 0 || leAt a 6 2 != 0 then (hw, badParam)
  else match hw.fuses.freeKey with
    | none => (hw, .done stBUSY 0 [])
    | some k =>
      if leAt a 32 64 ≠ d.toNat ∨ !hw.authOk a (if hw.fuses.keysUsed = 0 then 0 else 1) then (hw, .done stAUTH 0 [])
      else ({ hw with fuses := { hw.fuses with key := mset hw.fuses.key k d } }, okData (leBytes 64 d.toNat))

/-- LC_GET. -/
def Hw.lcBytes (hw : Hw) : List Byte := leBytes 1 hw.fuses.lc ++ leBytes 1 (b2n (hw.fuses.keysUsed != 0)) ++ zeros 6

end Sys2Proof.Machine
end

