-- ==== Sys2Proof/Machine/Kezil.lean ====
section
/-! DEFINITION. The Kezil engine: the order of the checks on a command, its start, what it answers, and the arrival of commands
(10/R348 to R351, R366). -/

namespace Sys2Proof.Machine

/-- RESET. -/
def Hw.kzReset (hw : Hw) (ps : List Byte) : Hw × KzOut :=
  (hw, if ps.length ≠ 1 ∨ leAt ps 0 1 ≠ 0 then badParam else .reset 2)

/-- Session, information, memory and graph opcodes. -/
def Hw.kzExecA (hw : Hw) (p : Bool) (c : Cmd) : Option (Hw × KzOut) :=
  let ps := c.params
  match c.opcode with
  | 0x0101 => some (hw.kzSessionOpen p ps)
  | 0x0102 => some (hw.kzSessionClose p ps)
  | 0x0103 => some (hw.kzTakeover p ps)
  | 0x0104 => some (hw.kzSetLease ps)
  | 0x0105 => some (hw.kzEcho ps)
  | 0x0106 => some (hw.kzInfo ps (hw.portStatus p))
  | 0x0201 => some (hw.kzInfo ps hw.identity)
  | 0x0202 => some (hw.kzInfo ps hw.stageReports)
  | 0x0203 => some (hw.kzGetCert ps)
  | 0x0204 => some (hw.kzAttest ps)
  | 0x0205 => some (hw.kzInfo ps hw.telemetry)
  | 0x0206 => some (hw.kzInfo ps hw.netDigests)
  | 0x0301 => some (hw.kzMemRead ps)
  | 0x0302 => some (hw.kzMemWrite ps)
  | 0x0303 => some (hw.kzDmaStart ps)
  | 0x0401 => some (hw.kzGraphSubmit ps)
  | 0x0402 => some (hw.kzTaskRetire ps)
  | 0x0403 => some (hw.kzTaskCancel ps)
  | 0x0404 => some (hw.kzTaskStatus ps)
  | 0x0405 => some (hw.kzJobStop ps)
  | 0x0406 => some (hw.kzDoorbellRing ps)
  | 0x0407 => some (hw.kzSeqRun ps)
  | _ => none

/-- The other opcodes. -/
def Hw.kzExecB (hw : Hw) (c : Cmd) : Option (Hw × KzOut) :=
  let ps := c.params
  match c.opcode with
  | 0x0501 => some (hw.kzImageCheck ps)
  | 0x0502 => some (hw.kzSquareInfo ps)
  | 0x0503 => some (hw.kzStreamSet ps)
  | 0x0504 => some (hw.kzStreamGet ps)
  | 0x0601 => some (hw.kzPwrSet ps)
  | 0x0602 => some (hw.kzPwrPins ps)
  | 0x0603 => some (hw.kzBudgetSet ps)
  | 0x0604 => some (hw.kzInfo ps hw.budgetBytes)
  | 0x0605 => some (hw.kzTripClear ps)
  | 0x0701 => some (hw.kzFaultRead ps)
  | 0x0702 => some (hw.kzInfo ps hw.stickyBytes)
  | 0x0703 => some (hw.kzStickyClear ps)
  | 0x0704 => some (hw.kzJobFaults ps)
  | 0x0801 => some (hw.kzFwBegin ps)
  | 0x0802 => some (hw.kzFwData ps)
  | 0x0803 => some (hw.kzFwEnd ps)
  | 0x0804 => some (hw.kzFwActivate ps)
  | 0x0805 => some (hw.kzInfo ps hw.fwStatusBytes)
  | 0x0901 => some (hw.kzInfo ps hw.lcBytes)
  | 0x0902 => some (hw.kzLcTransition ps)
  | 0x0903 => some (hw.kzKeyEnrol ps)
  | 0x0904 => some (hw.kzReset ps)
  | 0x0A01 => some (hw.kzInfo ps (hw.timeBytes c.time))
  | 0x0A02 => some (hw.kzTimeSet ps)
  | _ => none

/-- The work of an opcode. -/
def Hw.kzExec (hw : Hw) (p : Bool) (c : Cmd) : Hw × KzOut :=
  match hw.kzExecA p c with
  | some r => r
  | none => match hw.kzExecB c with
    | some r => r
    | none => (hw, .done stBADOP 0 [])

/-- Checks 1 to 5 of 10/R348, in order: the status and DETAIL, OK when all pass. -/
def Hw.kzChecks (hw : Hw) (p : Bool) (c : Cmd) : Nat × Nat :=
  match c.bad, opRow c.opcode with
  | some b, _ => b
  | none, none => (stBADOP, 0)
  | none, some r =>
    if c.async && !r.async then (stBADPARAM, 3)
    else if !r.early && !hw.served then (stBUSY, hw.stageNo)
    else if r.owner && hw.kz.owner != some p then (stNOTOWNER, 0)
    else if !r.lcs.testBit hw.fuses.lc then (stLIFECYCLE, 0)
    else (stOK, 0)

/-- How the outcome of a command reaches its port (10/R347, R350, R366). -/
def Hw.kzAnswer (hw : Hw) (p : Bool) (c : Cmd) (o : KzOut) : Hw :=
  match o with
  | .done st d b => hw.reply p c st d (if st = stOK then b else [])
  | .work st b =>
    if c.async then (hw.reply p c stOK 0 []).complete p c st else hw.reply p c st 0 (if st = stOK then b else [])
  | .wait w =>
    if c.async then
      let hw := hw.reply p c stOK 0 []
      { hw with kz := { hw.kz with running := hw.kz.running ++ [⟨p, c, w⟩] } }
    else hw.modPort p fun q => { q with current := some (c, w) }
  | .reset cause =>
    let b := replyBytes c.opcode c.tag c.async stOK 0 []
    (hw.warmReset cause).modPort p fun q => { q with lastReply := b }

/-- Start a command. -/
def Hw.kzStart (hw : Hw) (p : Bool) (c : Cmd) : Hw :=
  let k := hw.kzChecks p c
  if k.1 ≠ stOK then hw.kzAnswer p c (.done k.1 k.2 [])
  else
    let r := hw.kzExec p c
    r.1.kzAnswer p c r.2

/-! ### Which command starts next (10/R349, R350, R365). -/

/-- The command engine is ON, and no control core is being replaced. -/
def Hw.kzOn (hw : Hw) : Bool := hw.isOn domCtrl && hw.fw.actCore.isNone

/-- A memory command needs a channel of its own, unless it is refused (10/R351, R364). -/
def Hw.kzRoom (hw : Hw) (p : Bool) (c : Cmd) : Bool :=
  (c.opcode != opMemRead && c.opcode != opMemWrite) || hw.kzChannel.isSome || (hw.kzChecks p c).1 != stOK
    || !memParams (c.opcode == opMemWrite) c.params

/-- The next command of a port, if it may start. -/
def Hw.kzHead (hw : Hw) (p : Bool) : Option Cmd :=
  let q := hw.portOf p
  match q.cmds with
  | c :: _ => if q.current.isNone && decide (q.replies.length < 32) && hw.kzRoom p c then some c else none
  | [] => none

/-- The port whose next command arrived first. -/
def Hw.kzNext (hw : Hw) : Option (Bool × Cmd) :=
  match hw.kzHead false, hw.kzHead true with
  | some a, some b => if b.arrived < a.arrived then some (true, b) else some (false, a)
  | some a, none => some (false, a)
  | none, some b => some (true, b)
  | none, none => none

/-- Start every command that may start, in the order of arrival. -/
def Hw.kzRun (hw : Hw) : Nat → Hw
  | 0 => hw
  | n + 1 =>
    if !hw.kzOn then hw
    else match hw.kzNext with
      | none => hw
      | some (p, c) => ((hw.modPort p fun q => { q with cmds := q.cmds.drop 1 }).kzStart p c).kzGrant.kzRun n

/-- Commands that wait on both ports. -/
def Hw.kzWaiting (hw : Hw) : Nat := hw.kz.portA.cmds.length + hw.kz.portB.cmds.length

/-- A granted takeover, then every command that may start. -/
def Hw.kzPump (hw : Hw) : Hw := let hw := hw.kzGrant; hw.kzRun hw.kzWaiting

/-- A command that continues as `o` after its access to PSRAM was held; the reply of an asynchronous one has gone. -/
def Hw.kzAgain (hw : Hw) (p : Bool) (c : Cmd) (o : KzOut) : Hw :=
  match o with
  | .wait w => { hw with kz := { hw.kz with running := hw.kz.running ++ [⟨p, c, w⟩] } }
  | .done st _ _ => hw.complete p c st
  | .work st _ => hw.complete p c st
  | .reset cause => hw.warmReset cause

/-- Commands whose access to PSRAM was held are carried out again; then every command that may start. -/
def Hw.kzResume (hw : Hw) : Hw :=
  let one : Bool → Hw → Hw := fun p h => match (h.portOf p).current with
    | some (c, .retry) =>
      let r := (h.modPort p fun q => { q with current := none }).kzExec p c
      r.1.kzAnswer p c r.2
    | _ => h
  let hw := one true (one false hw)
  let again := hw.kz.running.filter fun r => r.wait == .retry
  let hw := { hw with kz := { hw.kz with running := hw.kz.running.filter fun r => r.wait != .retry } }
  (again.foldl (fun (h : Hw) r => let x := h.kzExec r.port r.cmd; x.1.kzAgain r.port r.cmd x.2) hw).kzPump

/-! ### Arrival (10/R349, 08/R298). -/

/-- Commands that a port holds. -/
def Port.load (q : Port) : Nat := q.cmds.length + (if q.current.isSome then 1 else 0)

/-- A command arrives: while the port holds 32, it is held back and nothing changes. It wakes the control complex and the I/O
hub. -/
def Hw.kzArrive (hw : Hw) (p : Bool) (c : Cmd) : Hw :=
  let q := hw.portOf p
  if !q.live || decide (32 ≤ q.load) then hw
  else
    let c := { c with arrived := hw.kz.arrivals, time := hw.tb.now }
    let hw := { hw with kz := { hw.kz with arrivals := hw.kz.arrivals + 1 } }
    let hw := (hw.modPort p fun q => { q with cmds := q.cmds ++ [c] }).kzTouch p
    let hw := ((hw.wakeDom domCtrl).wakeDom domHub).touchDom (domUsb p)
    (hw.irq (16 + b2n p)).kzPump

/-- A command of an opcode arrives on a port. -/
def Hw.kzCommand (hw : Hw) (opcode : Nat) (p async : Bool) (tag : Nat) (params : List Byte) : Hw :=
  hw.kzArrive p (cmdOf opcode tag async params)

/-- MALFORMED_COMMAND: a transfer that fails framing or carries an unlisted opcode. -/
def Hw.kzMalformed (hw : Hw) (p : Bool) (raw : List Byte) : Hw :=
  match malformed raw with
  | some c => hw.kzArrive p c
  | none => hw

/-- REPLY_COLLECTED. -/
def Hw.replyTake (hw : Hw) (p : Bool) : Hw :=
  if !(hw.portOf p).live then hw else (hw.modPort p Port.collect).kzPump

end Sys2Proof.Machine
end

