-- ==== Sys2Proof/Machine/Records.lean ====
section
/-! DEFINITION. Result records as they are delivered, input records as they are checked and assigned, and the CSI-2 ports
(10/R357 to R361, 02/R49, R50, R73, 14/R484 to R488). -/

namespace Sys2Proof.Machine

/-! ### Delivery of result records (10/R357, 02/R73). -/

/-- Every running job looks whether the hold of its input has ended. -/
def Hw.holdLook (hw : Hw) : Hw := forAll [0, 1, 2, 3] (fun j h => h.injectInput j) hw

/-- A record is delivered: FLT_OUTj of its job names its tempo. -/
def Hw.delivered (hw : Hw) (r : Record) : Hw :=
  if r.run = (hw.jobOf r.slot).run then hw.modJob r.slot fun k => { k with outT := r.tempo, outV := true } else hw

/-- RESULT_RECORD_ACK: the host has acknowledged the last packet of the first record that is held. -/
def Hw.recordAck (hw : Hw) (p : Bool) : Hw :=
  if hw.kz.owner ≠ some p ∨ !(hw.portOf p).live then hw
  else match hw.results with
    | [] => hw
    | r :: rest => ((({ hw with results := rest }).delivered r).kzTouch p).holdLook

/-! ### Refused input records (10/R358, R361). -/

/-- Refusals of a port go out as one notification, at most one each millisecond. -/
def Hw.refusedNote (hw : Hw) (p : Bool) : Hw :=
  let q := hw.portOf p
  let due := match q.refusedAt with | none => true | some t => decide (t + 1000000 ≤ hw.elapsed)
  if q.refused = 0 ∨ !due then hw
  else
    let hw := hw.notePort p ⟨6, stBADPARAM, q.refusedId, hw.tb.now, q.refused, q.refusedRec⟩
    hw.modPort p fun q => { q with refused := 0, refusedAt := some hw.elapsed }

/-- Count a refusal. -/
def Hw.refuse (hw : Hw) (p : Bool) (id : Nat) (head : List Byte) : Hw :=
  (hw.modPort p fun q => { q with refused := q.refused + 1, refusedId := id, refusedRec := head.take 16 }).refusedNote p

/-! ### Input records (10/T10-6, R361). -/

/-- Bits of an input event that may be set. -/
def evMask : Nat := 0x3FFF + 0xFF * 2 ^ 16 + 0x3FFF * 2 ^ 24

/-- The length of the record at the head of bytes. -/
def recLen (b : List Byte) : Nat := 20 + 8 * leAt b 12 4

/-- The events of a record. -/
def recEvents (b : List Byte) : List Nat := (List.range (leAt b 12 4)).map fun i => leAt b (16 + 8 * i) 8

/-- The header follows Table 10-6, and the CRC is right. -/
def recForm (b : List Byte) : Bool :=
  leAt b 0 2 == 0x4E49 && leAt b 2 1 == 1 && leAt b 3 1 / 2 == 0 && decide (leAt b 4 1 ≤ 5) && leAt b 5 1 == 0
    && (leAt b 3 1 == 1 || leAt b 6 6 == 0) && decide (1 ≤ leAt b 12 4 ∧ leAt b 12 4 ≤ 65535)
    && leAt b (b.length - 4) 4 == crc32 (b.take (b.length - 4))

/-- An event names a group of the stream and sets no other bit. -/
def Stream.takes (x : Stream) (w : Nat) : Bool := w &&& evMask == w && x.groups.any fun g => g.group == fld w 37 24

/-- The job and the tempo a whole record is assigned to, with whether it is late; none when it is refused. -/
def Hw.recTarget (hw : Hw) (b : List Byte) : Option (Nat × Nat × Bool) :=
  let x := hw.streamOf (leAt b 4 1)
  if !recForm b || !x.enable || !(recEvents b).all x.takes then none
  else match x.joined with
    | none => none
    | some j =>
      let cur := hw.inputTempo j
      let t := leAt b 6 6
      if leAt b 3 1 = 0 then some (j, cur, false)
      else if cur + 16 < t then none
      else if t < cur then some (j, cur, true)
      else some (j, t, false)

/-- One whole record from the owner. -/
def Hw.inRecord (hw : Hw) (p : Bool) (b : List Byte) : Hw :=
  match hw.recTarget b with
  | some (j, t, late) =>
    (recEvents b).foldl (fun (h : Hw) w =>
      h.assign j (26 + leAt b 4 1) t late (fld w 37 24) (fld w 13 0) (fld w 23 16)) hw
  | none => (hw.refuse p (if 5 < leAt b 4 1 then 0xFFFF else leAt b 4 1) b).irq 18

/-- The records of a transfer, one after another; a part that is no whole record is refused. `n` bounds their number. -/
def Hw.inRecords (hw : Hw) (p : Bool) (b : List Byte) : Nat → Hw
  | 0 => hw
  | n + 1 =>
    if b = [] then hw
    else if b.length < 20 ∨ b.length < recLen b then
      (hw.refuse p (if b.length < 5 ∨ 5 < leAt b 4 1 then 0xFFFF else leAt b 4 1) b).irq 18
    else (hw.inRecord p (b.take (recLen b))).inRecords p (b.drop (recLen b)) n

/-- The records of a transfer; the last one may be a part that is no whole record. `n` bounds their number. -/
def transferRecords (b : List Byte) : Nat → List (List Byte)
  | 0 => []
  | n + 1 => if b = [] then [] else b.take (recLen b) :: transferRecords (b.drop (recLen b)) n

/-- Every record of an observer's transfer is refused, and one notification at most tells it (10/R358, R362). -/
def Hw.refuseAll (hw : Hw) (p : Bool) (b : List Byte) : Hw :=
  let rs := transferRecords b (b.length / 20 + 1)
  match rs.getLast? with
  | none => hw
  | some last => (hw.modPort p fun q => { q with
      refused := q.refused + rs.length, refusedId := 0xFFFF, refusedRec := last.take 16 }).refusedNote p

/-- INPUT_RECORD: the owner's records are checked, the observer's transfer is discarded and counted. -/
def Hw.inputTransfer (hw : Hw) (p : Bool) (b : List Byte) : Hw :=
  if !(hw.portOf p).live then hw
  else if hw.kz.owner = some p then (hw.wakeDom domHub).inRecords p b (b.length / 20 + 1)
  else (hw.modPort p fun q => { q with discarded := satAdd 0xFFFF q.discarded 1 }).refuseAll p b

/-! ### CSI-2 ports (14/R484 to R488). -/

/-- The tile that takes an event: the lowest whose rectangle contains it. -/
def CsiPort.tileFor (c : CsiPort) (x y : Nat) : Option Nat :=
  c.tiles.find? fun t => decide (tileX0 t ≤ x ∧ x < tileX0 t + tileW t ∧ tileY0 t ≤ y ∧ y < tileY0 t + tileH t)

/-- The source neuron of an event in a tile (14/R487). -/
def tileNeuron (t x y : Nat) (pol : Bool) : Nat := ((y - tileY0 t) * tileW t + (x - tileX0 t)) * 2 + b2n pol

/-- An event of port n goes through its tile to its tempo, or is counted in OUTSIDE. -/
def Hw.csiEvent (hw : Hw) (n j x y : Nat) (pol : Bool) (val : Nat) : Hw :=
  match (hw.csiOf n).tileFor x y with
  | some t => hw.assign j (18 + n) (hw.inputTempo j) false (tileGroup t) (tileNeuron t x y pol) val
  | none => (hw.modCsi n fun c => { c with errOut := satAdd 255 c.errOut 1 }).irq (198 + n)

/-- A packet is discarded under 14/R484, with the counter that says why. -/
def Hw.csiDrop (hw : Hw) (n : Nat) (f : CsiPort → CsiPort) : Hw := ((hw.modCsi n fun c => { f c with crcEvt := true }).rise (.csi n) 8).irq (198 + n)

/-- The encoder on one pixel (14/R485): its event, if it emits one: polarity and value. -/
def CsiPort.encode (c : CsiPort) (ref px : Nat) : Option (Bool × Nat) :=
  let d : Nat := if ref ≤ px then px - ref else ref - px
  if d < c.th then none
  else
    let v := d / 2 ^ c.gshift
    some (decide (ref < px), if c.graded then Nat.max 1 (Nat.min v 255) else 0)

/-- One received pixel of a port in a job. Until a reference frame is held, it only becomes a reference. -/
def Hw.csiPixel (hw : Hw) (n j x y px : Nat) : Hw :=
  let c := hw.csiOf n
  let key := y * (c.width + 1) + x
  let keep : Hw → Hw := fun h => h.modCsi n fun c => { c with refPix := mset c.refPix key px }
  if !c.refOk then keep hw
  else match c.encode (mget 0 c.refPix key) px with
    | some (pol, v) => (keep hw).csiEvent n j x y pol v
    | none => hw

/-- A line of pixels: it is the next line of its frame; with a failed CRC, or too short, the frame is incomplete. -/
def Hw.csiLine (hw : Hw) (n : Nat) (bad : Bool) (px : List Nat) : Hw :=
  let c := hw.csiOf n
  if !c.inFrame then hw
  else
    let y := c.line
    let hw := hw.modCsi n fun c => { c with
      line := c.line + 1, whole := c.whole && (decide (c.height < y) || (!bad && decide (c.width + 1 ≤ px.length))) }
    match c.joined with
    | some j =>
      if bad || decide (c.height < y) then hw
      else forAll (List.range (Nat.min px.length (c.width + 1))) (fun x h => h.csiPixel n j x y (px.getD x 0)) hw
    | none => hw

/-- Frame start: a frame still in progress was incomplete. -/
def CsiPort.begin (c : CsiPort) : CsiPort :=
  { c with skip := c.skip || c.inFrame, inFrame := true, line := 0, whole := true, fresh := c.joined.isSome }

/-- Frame end: the first complete frame after the port joined its job sets every reference. -/
def CsiPort.finish (c : CsiPort) : CsiPort :=
  if !c.inFrame then c
  else
    let all := c.whole && decide (c.height < c.line)
    { c with inFrame := false, skip := c.skip || !all, refOk := c.refOk || (all && c.fresh && c.joined.isSome) }

/-- The frame that this one ends was incomplete. -/
def CsiPort.cut (c : CsiPort) : Bool := c.inFrame && !(c.whole && decide (c.height < c.line))

/-- One word of the vendor stream (14/T14-15). -/
def Hw.csiWord (hw : Hw) (n j w : Nat) : Hw :=
  let dt := if w.testBit 0 then fld w 31 1 else fld w 31 24
  let hw := hw.modCsi n fun c => { c with stime := (c.stime + dt) % 2 ^ 64 }
  if w.testBit 0 then hw else hw.csiEvent n j (fld w 11 1) (fld w 22 12) (w.testBit 23) 0

/-- The words of a vendor packet; trailing bytes are counted in IGNORED. -/
def Hw.csiVendor (hw : Hw) (n : Nat) (b : List Byte) : Hw :=
  let hw := match (hw.csiOf n).joined with
    | some j => forAll (List.range (b.length / 4)) (fun i h => h.csiWord n j (leAt b (4 * i) 4)) hw
    | none => hw
  if b.length % 4 = 0 then hw
  else (hw.modCsi n fun c => { c with errIgn := satAdd 255 c.errIgn (b.length % 4) }).irq (198 + n)

/-- A packet of an enabled port that is ON. -/
def Hw.csiTake (hw : Hw) (n vc : Nat) (hdrBad crcBad : Bool) (body : CsiBody) : Hw :=
  let c := hw.csiOf n
  let ignore := hw.csiDrop n fun c => { c with errIgn := satAdd 255 c.errIgn 1 }
  let crc : Hw → Hw := fun h => h.csiDrop n fun c => { c with errCrc := satAdd 255 c.errCrc 1 }
  let line : List Nat → Hw := fun px => let h := hw.csiLine n crcBad px; if crcBad then crc h else h
  if hdrBad then hw.csiDrop n fun c => { c with errEcc := satAdd 255 c.errEcc 1 }
  else if vc ≠ c.vc then ignore
  else match body, c.mode with
    | .frameStart, false => (hw.modCsi n CsiPort.begin).rise (.csi n) (if (hw.csiOf n).inFrame then 16 else 0)
    | .frameEnd, false => (hw.modCsi n CsiPort.finish).rise (.csi n) (if (hw.csiOf n).cut then 16 else 0)
    | .raw8 px, false => line (px.map fun b => 4 * b.toNat)
    | .raw10 px, false => line (px.map BitVec.toNat)
    | .vendor b, true => if crcBad then crc hw else hw.csiVendor n b
    | _, _ => ignore

/-- CSI_PACKET: `hdrBad` is a header that its ECC cannot correct, `crcBad` a failed payload CRC, and `more` tells that the
lanes stay in HS after the packet. -/
def Hw.csiPacket (hw : Hw) (n vc : Nat) (hdrBad crcBad more : Bool) (body : CsiBody) : Hw :=
  if !(hw.csiOf n).en || !hw.isOn (domCsi n) then hw
  else (((hw.touchDom (domCsi n)).modCsi n fun c => { c with hs := more })).csiTake n vc hdrBad crcBad body

end Sys2Proof.Machine
end

