-- ==== Sys2Proof/Machine/Served.lean ====
section
/-! DEFINITION. Addresses of the registers that rows of the table name, and the transitions that let held accesses go on
(01/R36 to R39, 08/R295, 12/R395, R396). -/

namespace Sys2Proof.Machine

/-- A register of square s at a window offset (01/T1-7, T1-8). -/
def sqAddr (s off : Nat) : Nat := 0x4000000 * s + off

/-- A register of a core: in the range of its logical number, or in the physical-slot window (01/T1-8, R39). -/
def coreReg (s : Nat) (c : CoreRef) (o : Nat) : Nat :=
  match c with
  | .logical l => sqAddr s (if l.val < 16 then 0x3810000 + 0x1000 * l.val + o else 0x3870000 + 0x1000 * (l.val - 16) + o)
  | .slot p => sqAddr s (0x3C00000 + 0x10000 * p + o)

/-- A register of the queues and the program of logical core l (07/T7-5). -/
def queueReg (s l o : Nat) : Nat := sqAddr s (0x3840000 + 0x100 * l + o)

/-- Held accesses to a domain that is ON again are served, stalled chains go on, and commands that waited start. -/
def Hw.transitionServed (hw : Hw) (d : Nat) : Hw :=
  let hw := hw.transitionDone d
  let ready := hw.isOn d
  (hw.serveHeld (fun h => h.dom == d && ready) Hw.serveReg).pscResume.tasksGoOn.kzResume

/-- Held accesses to a bank group that is ON again are served. -/
def Hw.bankServed (hw : Hw) (s g : Nat) : Hw :=
  let hw := hw.bankDone s g
  let ready := ((hw.sqOf s).bankOf g).isOn
  (hw.serveHeld (fun h => h.square == s && h.group == some g && ready) Hw.serveReg).pscResume

/-- The timebase counts from S2 on, while its domain is ON (13/T13-1, log 182). -/
def Hw.tbRuns (hw : Hw) : Bool := hw.isOn domTb && decide (2 ≤ hw.bring.last)

/-- What an idle nanosecond does (log 2): time passes, the timebase counts while it runs, commands that waited for a unit
start, and paced notifications go out. -/
def Hw.idle (hw : Hw) : Hw :=
  let hw := { hw with elapsed := hw.elapsed + 1, risen := [] }
  let hw := if hw.tbRuns then { hw with tb := { hw.tb with now := (hw.tb.now + 1) % 2 ^ 64 } } else hw
  (hw.tioOutputs.kzPump.refusedNote false).refusedNote true

end Sys2Proof.Machine
end

