-- ==== Sys2Proof/Machine/State.lean ====
section
/-! DEFINITION. The state of the machine: the module, and the queue of the commands that wait; the state after reset; the reasons
to stop. -/

namespace Sys2Proof.Machine

/-- The module and the commands that wait, first in, first out. -/
structure State where
  pending : List Instr
  hw      : Hw
  deriving DecidableEq, Repr

/-- Reasons to stop with a fault. The spec stops the module in no command: what it names a fault is an effect on the state. -/
inductive Fault where
  /-- Nothing raises this one. It is here because the interface asks for a type of faults; a stop would be safe. -/
  | neverRaised
  deriving DecidableEq, Repr

/-- Reasons to refuse a command. -/
inductive Refusal where
  /-- Raised by `exec` for a command without a meaning; every command has one, so nothing raises it. It would be safe. -/
  | notModelled (mnemonic : String)
  deriving DecidableEq, Repr

/-- The same queue over another state of the module. -/
def State.withHw (s : State) (h : Hw) : State := { s with hw := h }

/-- The fuse map as provisioning leaves it in a part of grade MN64-EA without a bad unit (13/T13-4, R429, R430, log 6). -/
def factoryFuses : Fuses :=
  let f : Fuses := { pkDigest := Config.sha3 (Config.mlDsaPublicKey 0) }
  { f with crc := f.crcOf }

/-- The machine right after power-on reset, before an input supply is in range: every field at the reset value that its
declaration states, the fuses and the certificate store as provisioning leaves them (log 5, log 6). -/
def State.reset : State :=
  { pending := [], hw := { fuses := factoryFuses, sec := { certs := some Config.factoryCerts } } }

end Sys2Proof.Machine
end

