-- ==== Sys2Proof/Machine/ExecBring.lean ====
section
/-! DEFINITION. Meanings of the bring-up stages and of lane repair
(12/R402, R410, 13/R420 to R439). -/

namespace Sys2Proof.Machine

/-- STAGE_S1. S1 (13/R427). -/
def execStageS1 (s : State) : Host.Outcome State Fault Refusal :=
  .next (s.withHw (s.hw.stageS1))

/-- STAGE_S2. S2, with the squares whose PLL did not lock and the code of another PLL that did not (13/R420). -/
def execStageS2 (unlocked : List Nat) (pll : Option Nat) (s : State) : Host.Outcome State Fault Refusal :=
  .next (s.withHw (s.hw.stageS2 unlocked pll))

/-- STAGE_S3. S3, with the findings of the march test and the PSRAM device that failed (12/R402). -/
def execStageS3 (finds : List MarchFind) (psram : Option (Nat × Nat)) (s : State) : Host.Outcome State Fault Refusal :=
  .next (s.withHw (s.hw.stageS3 finds psram))

/-- STAGE_S4. S4 (13/R434). -/
def execStageS4 (s : State) : Host.Outcome State Fault Refusal :=
  .next (s.withHw (s.hw.stageS4.kzPump))

/-- STAGE_S5. S5, with the slots that failed the known-answer work (13/R436). -/
def execStageS5 (fails : List (Nat × Nat)) (s : State) : Host.Outcome State Fault Refusal :=
  .next (s.withHw (s.hw.stageS5 fails))

/-- STAGE_S6. S6, with the narrowest window of each channel at 200, 166 and 133 MHz in 1/256 UI (12/R410). -/
def execStageS6 (windows : List (List Nat)) (s : State) : Host.Outcome State Fault Refusal :=
  .next (s.withHw (s.hw.stageS6 windows))

/-- STAGE_S7. S7, with the lanes of each port that showed a bit error (13/R437). -/
def execStageS7 (fails : List (List Nat)) (s : State) : Host.Outcome State Fault Refusal :=
  .next (s.withHw (s.hw.stageS7 fails))

/-- LINK_TRAINING_TIMEOUT. A port gets no partner answer within 20 ms (13/R437). -/
def execLinkTrainingTimeout (link : Fin 6) (s : State) : Host.Outcome State Fault Refusal :=
  .next (s.withHw (s.hw.trainTimeout link))

/-- STAGE_S8. S8: the module is ready (13/R420). -/
def execStageS8 (s : State) : Host.Outcome State Fault Refusal :=
  .next (s.withHw (s.hw.stageS8.kzPump))

/-- GO. A write of FL_LCTLn with GO = 1 for a logical lane (13/R439). -/
def execGo (ini : Initiator) (link : Fin 6) (lane : Fin 4) (s : State) : Host.Outcome State Fault Refusal :=
  .next (s.withHw (s.hw.doWrite ini (blockBase 9 + 0x100 * link + 0x14) (lane + 4)))

/-- LANE_RETRAIN_DONE. A lane retrain passes or fails (13/R439). -/
def execLaneRetrainDone (link : Fin 6) (ok : Bool) (s : State) : Host.Outcome State Fault Refusal :=
  .next (s.withHw (s.hw.laneDone link ok))

/-- LANE_RETRAIN_TIMEOUT. A lane retrain has not completed within 2 ms (13/R439). -/
def execLaneRetrainTimeout (link : Fin 6) (s : State) : Host.Outcome State Fault Refusal :=
  .next (s.withHw (s.hw.laneTimeout link))

/-- LANE_ERROR_WINDOW. The end of a 1 ms window, with the sync-header errors of a logical lane (13/R439). -/
def execLaneErrorWindow (link : Fin 6) (lane : Fin 4) (errors : Nat) (s : State) : Host.Outcome State Fault Refusal :=
  .next (s.withHw (s.hw.laneErrors link lane errors))

end Sys2Proof.Machine
end

