-- ==== Sys2Proof/Machine/ExecDma.lean ====
section
/-! DEFINITION. Meanings of the DMA commands
(07/R256 to R263). -/

namespace Sys2Proof.Machine

/-- DMA_START_CHAIN. A write of DMA_CTLc.START = 1 (07/R256). -/
def execDmaStartChain (ini : Initiator) (chan : Fin 16) (s : State) : Host.Outcome State Fault Refusal :=
  .next (s.withHw (s.hw.doWrite ini (blockBase 6 + 0x40 * chan) 1))

/-- DMA_STOP_CHAIN. A write of DMA_CTLc.STOP = 1 (07/R256). -/
def execDmaStopChain (ini : Initiator) (chan : Fin 16) (s : State) : Host.Outcome State Fault Refusal :=
  .next (s.withHw (s.hw.doWrite ini (blockBase 6 + 0x40 * chan) 2))

/-- DMA_DESCRIPTOR. The channel fetches a descriptor and moves its bytes (07/R258). -/
def execDmaDescriptor (chan : Fin 16) (s : State) : Host.Outcome State Fault Refusal :=
  .next (s.withHw (s.hw.dmaDescriptor chan))

/-- DMA_DESCRIPTOR_COMPLETE. A descriptor completes (07/R263). -/
def execDmaDescriptorComplete (chan : Fin 16) (s : State) : Host.Outcome State Fault Refusal :=
  .next (s.withHw ((s.hw.dmaComplete chan).kzPump))

/-- DMA_TIMEOUT. A READ or FENCE got no answer within DMA_TMO (07/R262). -/
def execDmaTimeout (chan : Fin 16) (s : State) : Host.Outcome State Fault Refusal :=
  .next (s.withHw (s.hw.dmaTimeout chan))

end Sys2Proof.Machine
end

