-- ==== Sys2Proof/Machine/ExecFabric.lean ====
section
/-! DEFINITION. Meanings of the fabric commands: injection, routing, packets at a square, links and lanes
(06, 13/R437, R438). -/

namespace Sys2Proof.Machine

/-- PACKET_INJECT. A queued packet enters the router (06/R204). -/
def execPacketInject (sq : Fin 64) (s : State) : Host.Outcome State Fault Refusal :=
  .next (s.withHw (s.hw.packetInject sq))

/-- ROUTE_CYCLE. One spine cycle of every router (06/R201). -/
def execRouteCycle (s : State) : Host.Outcome State Fault Refusal :=
  .next (s.withHw (s.hw.routeCycle))

/-- WRITE_PACKET. The memory agent takes a WRITE (06/R199). -/
def execWritePacket (sq : Fin 64) (s : State) : Host.Outcome State Fault Refusal :=
  .next (s.withHw (s.hw.writePacket sq))

/-- READ_PACKET. The memory agent takes a READ (06/R198). -/
def execReadPacket (sq : Fin 64) (seen : List Seen) (s : State) : Host.Outcome State Fault Refusal :=
  .next (s.withHw (s.hw.readPacket sq seen))

/-- FENCE_PACKET. The memory agent takes a FENCE (06/R199). -/
def execFencePacket (sq : Fin 64) (s : State) : Host.Outcome State Fault Refusal :=
  .next (s.withHw (s.hw.fencePacket sq))

/-- RESP_PACKET. A RESP lands or completes a request (06/R198). -/
def execRespPacket (sq : Fin 64) (s : State) : Host.Outcome State Fault Refusal :=
  .next (s.withHw (s.hw.respPacket sq))

/-- QUEUE_PACKET. The square takes a QUEUE packet (07/R245). -/
def execQueuePacket (sq : Fin 64) (s : State) : Host.Outcome State Fault Refusal :=
  .next (s.withHw (s.hw.queuePacket sq))

/-- QSTAT_PACKET. A send channel takes a QSTAT (07/R247). -/
def execQstatPacket (sq : Fin 64) (s : State) : Host.Outcome State Fault Refusal :=
  .next (s.withHw (s.hw.qstatPacket sq))

/-- INBOX_WATCHDOG. The inbox watchdog reaches its limit (06/R219). -/
def execInboxWatchdog (sq : Fin 64) (s : State) : Host.Outcome State Fault Refusal :=
  .next (s.withHw (s.hw.inboxWatchdog sq))

/-- OLD_EPOCH_DRAINED. No packet of the previous version is left (06/R214). -/
def execOldEpochDrained (s : State) : Host.Outcome State Fault Refusal :=
  .next (s.withHw (s.hw.oldDrained))

/-- SQUARE_ABSENT. A draining square owes nothing (06/R228). -/
def execSquareAbsent (sq : Fin 64) (s : State) : Host.Outcome State Fault Refusal :=
  .next (s.withHw (s.hw.squareAbsent sq))

/-- LINK_FRAME_TX. A link port sends a frame (06/R231). -/
def execLinkFrameTx (link : Fin 6) (s : State) : Host.Outcome State Fault Refusal :=
  .next (s.withHw (s.hw.frameTx link))

/-- LINK_FRAME_RX. A link receiver takes a frame of 512 bits (06/R232). -/
def execLinkFrameRx (link : Fin 6) (frame : BitVec 512) (marks : PacketMark × PacketMark) (s : State) : Host.Outcome State Fault Refusal :=
  .next (s.withHw (s.hw.frameRx link frame.toNat marks.1 marks.2))

/-- LINK_RESEND_LIMIT. The same SEQ has been resent eight times (06/R233). -/
def execLinkResendLimit (link : Fin 6) (s : State) : Host.Outcome State Fault Refusal :=
  .next (s.withHw (s.hw.resendLimit link))

/-- LINK_SILENCE_TIMEOUT. 2 µs without an accepted frame (06/R233). -/
def execLinkSilenceTimeout (link : Fin 6) (s : State) : Host.Outcome State Fault Refusal :=
  .next (s.withHw (s.hw.silence link))

/-- LANE_FAIL. An active physical lane fails (06/R230). -/
def execLaneFail (link : Fin 6) (lane : Fin 5) (s : State) : Host.Outcome State Fault Refusal :=
  .next (s.withHw (s.hw.laneFail link lane))

/-- LINK_UP. Link training completes (13/R438). -/
def execLinkUp (link : Fin 6) (s : State) : Host.Outcome State Fault Refusal :=
  .next (s.withHw (s.hw.linkUp link))

/-- LINK_TRAINING_REQUEST. A training request arrives from a partner (13/R437). -/
def execLinkTrainingRequest (link : Fin 6) (s : State) : Host.Outcome State Fault Refusal :=
  .next (s.withHw (s.hw.trainRequest link))

end Sys2Proof.Machine
end

