-- ==== Sys2Proof/Machine/ExecIrc.lean ====
section
/-! DEFINITION. Meanings of the interrupt-controller commands
(11/R370 to R376). -/

namespace Sys2Proof.Machine

/-- IRC_DOORBELL. A doorbell write (11/R370, R371). -/
def execIrcDoorbell (ini : Initiator) (target : Fin 4) (source : Fin 512) (s : State) : Host.Outcome State Fault Refusal :=
  .next (s.withHw (s.hw.doWrite ini (blockBase 1 + 0x1000 * target) source))

/-- IRC_ACK. A read of IRC_ACKt (11/R373). -/
def execIrcAck (ini : Initiator) (target : Fin 4) (s : State) : Host.Outcome State Fault Refusal :=
  .next (s.withHw (s.hw.doRead ini (blockBase 1 + 0x1000 * target + 4)))

/-- IRC_EOI. A write of IRC_EOIt (11/R374). -/
def execIrcEoi (ini : Initiator) (target : Fin 4) (source : Fin 512) (s : State) : Host.Outcome State Fault Refusal :=
  .next (s.withHw (s.hw.doWrite ini (blockBase 1 + 0x1000 * target + 8) source))

/-- CLRP. A write of IRC_SRCn with CLRP = 1; PRI and EN are written with it (11/R371). -/
def execClrp (ini : Initiator) (source : Fin 512) (pri : Fin 16) (en : Bool) (s : State) : Host.Outcome State Fault Refusal :=
  .next (s.withHw (s.hw.doWrite ini (blockBase 1 + 0x8000 + 4 * source) (pri + 16 * b2n en + 256)))

/-- IRC_HOLDOFF_END. A group's hold-off expires (11/R376). -/
def execIrcHoldoffEnd (group : Fin 32) (s : State) : Host.Outcome State Fault Refusal :=
  .next (s.withHw (s.hw.holdoffEnd group))

end Sys2Proof.Machine
end

