-- ==== Sys2Proof/Machine/ExecKezil.lean ====
section
/-! DEFINITION. Meanings of the Kezil commands, of what happens on the USB ports, and of CSI-2 packets
(10, 13/R442, R443, 14/R478, R484). -/

namespace Sys2Proof.Machine

/-- SESSION_OPEN. SESSION_OPEN arrives on a port (10/R348 to R350, R363). -/
def execSessionOpen (port : Bool) (async : Bool) (tag : BitVec 16) (params : List Byte) (s : State) : Host.Outcome State Fault Refusal :=
  .next (s.withHw (s.hw.kzCommand opSessionOpen port async tag.toNat params))

/-- SESSION_CLOSE. SESSION_CLOSE arrives on a port (10/R348 to R350, R363). -/
def execSessionClose (port : Bool) (async : Bool) (tag : BitVec 16) (params : List Byte) (s : State) : Host.Outcome State Fault Refusal :=
  .next (s.withHw (s.hw.kzCommand opSessionClose port async tag.toNat params))

/-- TAKEOVER. TAKEOVER arrives on a port (10/R348 to R350, R363). -/
def execTakeover (port : Bool) (async : Bool) (tag : BitVec 16) (params : List Byte) (s : State) : Host.Outcome State Fault Refusal :=
  .next (s.withHw (s.hw.kzCommand opTakeover port async tag.toNat params))

/-- SET_LEASE. SET_LEASE arrives on a port (10/R348 to R350, R363). -/
def execSetLease (port : Bool) (async : Bool) (tag : BitVec 16) (params : List Byte) (s : State) : Host.Outcome State Fault Refusal :=
  .next (s.withHw (s.hw.kzCommand opSetLease port async tag.toNat params))

/-- ECHO. ECHO arrives on a port (10/R348 to R350, R363). -/
def execEcho (port : Bool) (async : Bool) (tag : BitVec 16) (params : List Byte) (s : State) : Host.Outcome State Fault Refusal :=
  .next (s.withHw (s.hw.kzCommand opEcho port async tag.toNat params))

/-- PORT_STATUS. PORT_STATUS arrives on a port (10/R348 to R350, R363). -/
def execPortStatus (port : Bool) (async : Bool) (tag : BitVec 16) (params : List Byte) (s : State) : Host.Outcome State Fault Refusal :=
  .next (s.withHw (s.hw.kzCommand opPortStatus port async tag.toNat params))

/-- GET_IDENTITY. GET_IDENTITY arrives on a port (10/R348 to R350, R363). -/
def execGetIdentity (port : Bool) (async : Bool) (tag : BitVec 16) (params : List Byte) (s : State) : Host.Outcome State Fault Refusal :=
  .next (s.withHw (s.hw.kzCommand opGetIdentity port async tag.toNat params))

/-- GET_STAGE_REPORTS. GET_STAGE_REPORTS arrives on a port (10/R348 to R350, R363). -/
def execGetStageReports (port : Bool) (async : Bool) (tag : BitVec 16) (params : List Byte) (s : State) : Host.Outcome State Fault Refusal :=
  .next (s.withHw (s.hw.kzCommand opGetStageReports port async tag.toNat params))

/-- GET_CERT. GET_CERT arrives on a port (10/R348 to R350, R363). -/
def execGetCert (port : Bool) (async : Bool) (tag : BitVec 16) (params : List Byte) (s : State) : Host.Outcome State Fault Refusal :=
  .next (s.withHw (s.hw.kzCommand opGetCert port async tag.toNat params))

/-- ATTEST. ATTEST arrives on a port (10/R348 to R350, R363). -/
def execAttest (port : Bool) (async : Bool) (tag : BitVec 16) (params : List Byte) (s : State) : Host.Outcome State Fault Refusal :=
  .next (s.withHw (s.hw.kzCommand opAttest port async tag.toNat params))

/-- GET_TELEMETRY. GET_TELEMETRY arrives on a port (10/R348 to R350, R363). -/
def execGetTelemetry (port : Bool) (async : Bool) (tag : BitVec 16) (params : List Byte) (s : State) : Host.Outcome State Fault Refusal :=
  .next (s.withHw (s.hw.kzCommand opGetTelemetry port async tag.toNat params))

/-- GET_NET_DIGESTS. GET_NET_DIGESTS arrives on a port (10/R348 to R350, R363). -/
def execGetNetDigests (port : Bool) (async : Bool) (tag : BitVec 16) (params : List Byte) (s : State) : Host.Outcome State Fault Refusal :=
  .next (s.withHw (s.hw.kzCommand opGetNetDigests port async tag.toNat params))

/-- MEM_READ. MEM_READ arrives on a port (10/R348 to R350, R363). -/
def execMemRead (port : Bool) (async : Bool) (tag : BitVec 16) (params : List Byte) (s : State) : Host.Outcome State Fault Refusal :=
  .next (s.withHw (s.hw.kzCommand opMemRead port async tag.toNat params))

/-- MEM_WRITE. MEM_WRITE arrives on a port (10/R348 to R350, R363). -/
def execMemWrite (port : Bool) (async : Bool) (tag : BitVec 16) (params : List Byte) (s : State) : Host.Outcome State Fault Refusal :=
  .next (s.withHw (s.hw.kzCommand opMemWrite port async tag.toNat params))

/-- DMA_START. DMA_START arrives on a port (10/R348 to R350, R363). -/
def execDmaStart (port : Bool) (async : Bool) (tag : BitVec 16) (params : List Byte) (s : State) : Host.Outcome State Fault Refusal :=
  .next (s.withHw (s.hw.kzCommand opDmaStart port async tag.toNat params))

/-- GRAPH_SUBMIT. GRAPH_SUBMIT arrives on a port (10/R348 to R350, R363). -/
def execGraphSubmit (port : Bool) (async : Bool) (tag : BitVec 16) (params : List Byte) (s : State) : Host.Outcome State Fault Refusal :=
  .next (s.withHw (s.hw.kzCommand opGraphSubmit port async tag.toNat params))

/-- TASK_RETIRE. TASK_RETIRE arrives on a port (10/R348 to R350, R363). -/
def execTaskRetire (port : Bool) (async : Bool) (tag : BitVec 16) (params : List Byte) (s : State) : Host.Outcome State Fault Refusal :=
  .next (s.withHw (s.hw.kzCommand opTaskRetire port async tag.toNat params))

/-- TASK_CANCEL. TASK_CANCEL arrives on a port (10/R348 to R350, R363). -/
def execTaskCancel (port : Bool) (async : Bool) (tag : BitVec 16) (params : List Byte) (s : State) : Host.Outcome State Fault Refusal :=
  .next (s.withHw (s.hw.kzCommand opTaskCancel port async tag.toNat params))

/-- TASK_STATUS. TASK_STATUS arrives on a port (10/R348 to R350, R363). -/
def execTaskStatus (port : Bool) (async : Bool) (tag : BitVec 16) (params : List Byte) (s : State) : Host.Outcome State Fault Refusal :=
  .next (s.withHw (s.hw.kzCommand opTaskStatus port async tag.toNat params))

/-- JOB_STOP. JOB_STOP arrives on a port (10/R348 to R350, R363). -/
def execJobStop (port : Bool) (async : Bool) (tag : BitVec 16) (params : List Byte) (s : State) : Host.Outcome State Fault Refusal :=
  .next (s.withHw (s.hw.kzCommand opJobStop port async tag.toNat params))

/-- DOORBELL_RING. DOORBELL_RING arrives on a port (10/R348 to R350, R363). -/
def execDoorbellRing (port : Bool) (async : Bool) (tag : BitVec 16) (params : List Byte) (s : State) : Host.Outcome State Fault Refusal :=
  .next (s.withHw (s.hw.kzCommand opDoorbellRing port async tag.toNat params))

/-- SEQ_RUN. SEQ_RUN arrives on a port (10/R348 to R350, R363). -/
def execSeqRun (port : Bool) (async : Bool) (tag : BitVec 16) (params : List Byte) (s : State) : Host.Outcome State Fault Refusal :=
  .next (s.withHw (s.hw.kzCommand opSeqRun port async tag.toNat params))

/-- IMAGE_CHECK. IMAGE_CHECK arrives on a port (10/R348 to R350, R363). -/
def execImageCheck (port : Bool) (async : Bool) (tag : BitVec 16) (params : List Byte) (s : State) : Host.Outcome State Fault Refusal :=
  .next (s.withHw (s.hw.kzCommand opImageCheck port async tag.toNat params))

/-- SQUARE_INFO. SQUARE_INFO arrives on a port (10/R348 to R350, R363). -/
def execSquareInfo (port : Bool) (async : Bool) (tag : BitVec 16) (params : List Byte) (s : State) : Host.Outcome State Fault Refusal :=
  .next (s.withHw (s.hw.kzCommand opSquareInfo port async tag.toNat params))

/-- STREAM_SET. STREAM_SET arrives on a port (10/R348 to R350, R363). -/
def execStreamSet (port : Bool) (async : Bool) (tag : BitVec 16) (params : List Byte) (s : State) : Host.Outcome State Fault Refusal :=
  .next (s.withHw (s.hw.kzCommand opStreamSet port async tag.toNat params))

/-- STREAM_GET. STREAM_GET arrives on a port (10/R348 to R350, R363). -/
def execStreamGet (port : Bool) (async : Bool) (tag : BitVec 16) (params : List Byte) (s : State) : Host.Outcome State Fault Refusal :=
  .next (s.withHw (s.hw.kzCommand opStreamGet port async tag.toNat params))

/-- PWR_SET. PWR_SET arrives on a port (10/R348 to R350, R363). -/
def execPwrSet (port : Bool) (async : Bool) (tag : BitVec 16) (params : List Byte) (s : State) : Host.Outcome State Fault Refusal :=
  .next (s.withHw (s.hw.kzCommand opPwrSet port async tag.toNat params))

/-- PWR_PINS. PWR_PINS arrives on a port (10/R348 to R350, R363). -/
def execPwrPins (port : Bool) (async : Bool) (tag : BitVec 16) (params : List Byte) (s : State) : Host.Outcome State Fault Refusal :=
  .next (s.withHw (s.hw.kzCommand opPwrPins port async tag.toNat params))

/-- BUDGET_SET. BUDGET_SET arrives on a port (10/R348 to R350, R363). -/
def execBudgetSet (port : Bool) (async : Bool) (tag : BitVec 16) (params : List Byte) (s : State) : Host.Outcome State Fault Refusal :=
  .next (s.withHw (s.hw.kzCommand opBudgetSet port async tag.toNat params))

/-- BUDGET_GET. BUDGET_GET arrives on a port (10/R348 to R350, R363). -/
def execBudgetGet (port : Bool) (async : Bool) (tag : BitVec 16) (params : List Byte) (s : State) : Host.Outcome State Fault Refusal :=
  .next (s.withHw (s.hw.kzCommand opBudgetGet port async tag.toNat params))

/-- TRIP_CLEAR. TRIP_CLEAR arrives on a port (10/R348 to R350, R363). -/
def execTripClear (port : Bool) (async : Bool) (tag : BitVec 16) (params : List Byte) (s : State) : Host.Outcome State Fault Refusal :=
  .next (s.withHw (s.hw.kzCommand opTripClear port async tag.toNat params))

/-- FAULT_READ. FAULT_READ arrives on a port (10/R348 to R350, R363). -/
def execFaultRead (port : Bool) (async : Bool) (tag : BitVec 16) (params : List Byte) (s : State) : Host.Outcome State Fault Refusal :=
  .next (s.withHw (s.hw.kzCommand opFaultRead port async tag.toNat params))

/-- STICKY_READ. STICKY_READ arrives on a port (10/R348 to R350, R363). -/
def execStickyRead (port : Bool) (async : Bool) (tag : BitVec 16) (params : List Byte) (s : State) : Host.Outcome State Fault Refusal :=
  .next (s.withHw (s.hw.kzCommand opStickyRead port async tag.toNat params))

/-- STICKY_CLEAR. STICKY_CLEAR arrives on a port (10/R348 to R350, R363). -/
def execStickyClear (port : Bool) (async : Bool) (tag : BitVec 16) (params : List Byte) (s : State) : Host.Outcome State Fault Refusal :=
  .next (s.withHw (s.hw.kzCommand opStickyClear port async tag.toNat params))

/-- JOB_FAULTS. JOB_FAULTS arrives on a port (10/R348 to R350, R363). -/
def execJobFaults (port : Bool) (async : Bool) (tag : BitVec 16) (params : List Byte) (s : State) : Host.Outcome State Fault Refusal :=
  .next (s.withHw (s.hw.kzCommand opJobFaults port async tag.toNat params))

/-- FW_BEGIN. FW_BEGIN arrives on a port (10/R348 to R350, R363). -/
def execFwBegin (port : Bool) (async : Bool) (tag : BitVec 16) (params : List Byte) (s : State) : Host.Outcome State Fault Refusal :=
  .next (s.withHw (s.hw.kzCommand opFwBegin port async tag.toNat params))

/-- FW_DATA. FW_DATA arrives on a port (10/R348 to R350, R363). -/
def execFwData (port : Bool) (async : Bool) (tag : BitVec 16) (params : List Byte) (s : State) : Host.Outcome State Fault Refusal :=
  .next (s.withHw (s.hw.kzCommand opFwData port async tag.toNat params))

/-- FW_END. FW_END arrives on a port (10/R348 to R350, R363). -/
def execFwEnd (port : Bool) (async : Bool) (tag : BitVec 16) (params : List Byte) (s : State) : Host.Outcome State Fault Refusal :=
  .next (s.withHw (s.hw.kzCommand opFwEnd port async tag.toNat params))

/-- FW_ACTIVATE. FW_ACTIVATE arrives on a port (10/R348 to R350, R363). -/
def execFwActivate (port : Bool) (async : Bool) (tag : BitVec 16) (params : List Byte) (s : State) : Host.Outcome State Fault Refusal :=
  .next (s.withHw (s.hw.kzCommand opFwActivate port async tag.toNat params))

/-- FW_CORE_REPORT. A control core reports that it runs the new image (13/R442). -/
def execFwCoreReport (s : State) : Host.Outcome State Fault Refusal :=
  .next (s.withHw (s.hw.coreReport.kzPump))

/-- FW_ACTIVATION_TIMEOUT. A control core has not reported within 50 ms (13/R443). -/
def execFwActivationTimeout (s : State) : Host.Outcome State Fault Refusal :=
  .next (s.withHw (s.hw.actTimeout.kzPump))

/-- FW_STATUS. FW_STATUS arrives on a port (10/R348 to R350, R363). -/
def execFwStatus (port : Bool) (async : Bool) (tag : BitVec 16) (params : List Byte) (s : State) : Host.Outcome State Fault Refusal :=
  .next (s.withHw (s.hw.kzCommand opFwStatus port async tag.toNat params))

/-- LC_GET. LC_GET arrives on a port (10/R348 to R350, R363). -/
def execLcGet (port : Bool) (async : Bool) (tag : BitVec 16) (params : List Byte) (s : State) : Host.Outcome State Fault Refusal :=
  .next (s.withHw (s.hw.kzCommand opLcGet port async tag.toNat params))

/-- LC_TRANSITION. LC_TRANSITION arrives on a port (10/R348 to R350, R363). -/
def execLcTransition (port : Bool) (async : Bool) (tag : BitVec 16) (params : List Byte) (s : State) : Host.Outcome State Fault Refusal :=
  .next (s.withHw (s.hw.kzCommand opLcTransition port async tag.toNat params))

/-- KEY_ENROL. KEY_ENROL arrives on a port (10/R348 to R350, R363). -/
def execKeyEnrol (port : Bool) (async : Bool) (tag : BitVec 16) (params : List Byte) (s : State) : Host.Outcome State Fault Refusal :=
  .next (s.withHw (s.hw.kzCommand opKeyEnrol port async tag.toNat params))

/-- RESET. RESET arrives on a port (10/R348 to R350, R363). -/
def execReset (port : Bool) (async : Bool) (tag : BitVec 16) (params : List Byte) (s : State) : Host.Outcome State Fault Refusal :=
  .next (s.withHw (s.hw.kzCommand opReset port async tag.toNat params))

/-- TIME_GET. TIME_GET arrives on a port (10/R348 to R350, R363). -/
def execTimeGet (port : Bool) (async : Bool) (tag : BitVec 16) (params : List Byte) (s : State) : Host.Outcome State Fault Refusal :=
  .next (s.withHw (s.hw.kzCommand opTimeGet port async tag.toNat params))

/-- TIME_SET. TIME_SET arrives on a port (10/R348 to R350, R363). -/
def execTimeSet (port : Bool) (async : Bool) (tag : BitVec 16) (params : List Byte) (s : State) : Host.Outcome State Fault Refusal :=
  .next (s.withHw (s.hw.kzCommand opTimeSet port async tag.toNat params))

/-- LEASE_EXPIRY. The owner's lease runs out (10/R355). -/
def execLeaseExpiry (s : State) : Host.Outcome State Fault Refusal :=
  .next (s.withHw (s.hw.leaseExpiry.kzPump))

/-- USB_LINK_LOSS. A port's link is lost, or the host resets it (10/R353). -/
def execUsbLinkLoss (port : Bool) (reset : Bool) (s : State) : Host.Outcome State Fault Refusal :=
  .next (s.withHw ((s.hw.linkLoss port reset).kzPump))

/-- USB_SUSPEND. A port enters or leaves U3, with remote wake enabled or not (10/R344). -/
def execUsbSuspend (port : Bool) (enter : Bool) (wake : Bool) (s : State) : Host.Outcome State Fault Refusal :=
  .next (s.withHw ((s.hw.usbSuspend port enter wake).kzPump))

/-- VBUS_CHANGE. VBUS of a port becomes present or absent (14/R478). -/
def execVbusChange (port : Bool) (present : Bool) (s : State) : Host.Outcome State Fault Refusal :=
  .next (s.withHw ((s.hw.vbusChange port present).kzPump))

/-- RESULT_RECORD_ACK. The host acknowledges a result record (10/R357). -/
def execResultRecordAck (port : Bool) (s : State) : Host.Outcome State Fault Refusal :=
  .next (s.withHw (s.hw.recordAck port))

/-- INPUT_RECORD. A transfer of input records arrives (10/R361). -/
def execInputRecord (port : Bool) (bytes : List Byte) (s : State) : Host.Outcome State Fault Refusal :=
  .next (s.withHw (s.hw.inputTransfer port bytes))

/-- CSI_PACKET. A CSI-2 packet of a virtual channel, with the outcomes of its header ECC and payload CRC, and whether the lanes stay in HS (14/R484). -/
def execCsiPacket (csi : Fin 8) (channel : Fin 4) (hdrBad : Bool) (crcBad : Bool) (more : Bool) (body : CsiBody) (s : State) : Host.Outcome State Fault Refusal :=
  .next (s.withHw (s.hw.csiPacket csi channel hdrBad crcBad more body))

/-- MALFORMED_COMMAND. A transfer that fails framing or carries an unlisted opcode (10/R348). -/
def execMalformedCommand (port : Bool) (raw : List Byte) (s : State) : Host.Outcome State Fault Refusal :=
  .next (s.withHw (s.hw.kzMalformed port raw))

/-- REPLY_COLLECTED. The host collects a reply (10/R349). -/
def execReplyCollected (port : Bool) (s : State) : Host.Outcome State Fault Refusal :=
  .next (s.withHw (s.hw.replyTake port))

/-- NOTIFICATION_DELIVERED. The host takes a notification (10/R362). -/
def execNotificationDelivered (port : Bool) (s : State) : Host.Outcome State Fault Refusal :=
  .next (s.withHw (s.hw.noteTake port))

end Sys2Proof.Machine
end

