-- ==== Sys2Proof/Machine/ExecMemory.lean ====
section
/-! DEFINITION. Meanings of the SRAM and PSRAM commands
(09/R306, 12/R395 to R414). -/

namespace Sys2Proof.Machine

/-- ECC_WRITEBACK. A corrected word is written back (09/R306). -/
def execEccWriteback (unit : Fin 68) (group : Fin 32) (bank : Fin 16) (row : Fin 2048) (used : Option (Fin 16 × DWord × BitVec 4))
    (s : State) : Host.Outcome State Fault Refusal :=
  .next (s.withHw (s.hw.eccWriteback unit group bank row used))

/-- ROW_REPAIR. A failing row moves to a spare row (12/R403). -/
def execRowRepair (unit : Fin 68) (group : Fin 32) (bank : Fin 16) (row : Fin 2048) (bad : List Nat) (uncorr : Bool)
    (check : Option (Fin 19)) (s : State) : Host.Outcome State Fault Refusal :=
  .next (s.withHw (s.hw.rowRepair unit group bank row bad uncorr (check.map (·.val))))

/-- SQ_BANKREQ_WRITE. A write of SQ_BANKREQ (12/R397). -/
def execSqBankreqWrite (ini : Initiator) (sq : Fin 64) (value : Word) (s : State) : Host.Outcome State Fault Refusal :=
  .next (s.withHw (s.hw.doWrite ini (sqAddr sq 0x3860108) value.toNat))

/-- RETRAIN. A write of PSC_CHCTLk.RETRAIN = 1 (12/R411). -/
def execRetrain (ini : Initiator) (chan : Fin 16) (s : State) : Host.Outcome State Fault Refusal :=
  .next (s.withHw (s.hw.doWrite ini (blockBase 8 + 0x20 * chan) 1))

/-- PSRAM_DRIFT_CHECK. The periodic drift check, with the drift by channel in 1/256 UI (12/R411). -/
def execPsramDriftCheck (drifts : List (Nat × Nat)) (s : State) : Host.Outcome State Fault Refusal :=
  .next (s.withHw (s.hw.driftCheck drifts))

/-- PSRAM_RETRAIN_DONE. A channel retrain ends, with its narrowest window in 1/256 UI (12/R411). -/
def execPsramRetrainDone (chan : Fin 16) (window : Nat) (s : State) : Host.Outcome State Fault Refusal :=
  .next (s.withHw ((s.hw.retrainDone chan window).kzResume))

/-- PSRAM_RETRAIN_TIMEOUT. A retrain has not ended within 400 µs (12/R412). -/
def execPsramRetrainTimeout (chan : Fin 16) (s : State) : Host.Outcome State Fault Refusal :=
  .next (s.withHw ((s.hw.retrainTimeout chan).kzResume))

/-- JOURNAL_PAGE_WRITE. The hub writes an incident journal page (12/R413). -/
def execJournalPageWrite (s : State) : Host.Outcome State Fault Refusal :=
  .next (s.withHw (s.hw.journalPageWrite))

/-- PSC_JRNL_WRITE. A write of PSC_JRNL (12/R414). -/
def execPscJrnlWrite (ini : Initiator) (value : Word) (s : State) : Host.Outcome State Fault Refusal :=
  .next (s.withHw (s.hw.doWrite ini (blockBase 8 + 0x404) value.toNat))

/-- BANK_GROUP_TRANSITION_DONE. A bank group completes a transition, and held accesses are served (12/R395, R396). -/
def execBankGroupTransitionDone (sq : Fin 64) (group : Fin 28) (s : State) : Host.Outcome State Fault Refusal :=
  .next (s.withHw (s.hw.bankServed sq group))

end Sys2Proof.Machine
end

