-- ==== Sys2Proof/Machine/ExecMicro.lean ====
section
/-! DEFINITION. Meanings of the micro-ops that a core controller issues
(03/R102 to R109, 07/R252 to R254). -/

namespace Sys2Proof.Machine

/-- NOP. The core controller issues NOP (03/R102 to R109, 07/R252 to R254). -/
def execOpNop (sq : Fin 64) (core : Fin 18) (s : State) : Host.Outcome State Fault Refusal :=
  .next (s.withHw (s.hw.cpIssue sq core .nop))

/-- ADD. The core controller issues ADD (03/R102 to R109, 07/R252 to R254). -/
def execOpAdd (sq : Fin 64) (core : Fin 18) (s : State) : Host.Outcome State Fault Refusal :=
  .next (s.withHw (s.hw.cpIssue sq core .add))

/-- SUB. The core controller issues SUB (03/R102 to R109, 07/R252 to R254). -/
def execOpSub (sq : Fin 64) (core : Fin 18) (s : State) : Host.Outcome State Fault Refusal :=
  .next (s.withHw (s.hw.cpIssue sq core .sub))

/-- MUL. The core controller issues MUL (03/R102 to R109, 07/R252 to R254). -/
def execOpMul (sq : Fin 64) (core : Fin 18) (s : State) : Host.Outcome State Fault Refusal :=
  .next (s.withHw (s.hw.cpIssue sq core .mul))

/-- SHR. The core controller issues SHR (03/R102 to R109, 07/R252 to R254). -/
def execOpShr (sq : Fin 64) (core : Fin 18) (s : State) : Host.Outcome State Fault Refusal :=
  .next (s.withHw (s.hw.cpIssue sq core .shr))

/-- SHL. The core controller issues SHL (03/R102 to R109, 07/R252 to R254). -/
def execOpShl (sq : Fin 64) (core : Fin 18) (s : State) : Host.Outcome State Fault Refusal :=
  .next (s.withHw (s.hw.cpIssue sq core .shl))

/-- MIN. The core controller issues MIN (03/R102 to R109, 07/R252 to R254). -/
def execOpMin (sq : Fin 64) (core : Fin 18) (s : State) : Host.Outcome State Fault Refusal :=
  .next (s.withHw (s.hw.cpIssue sq core .min))

/-- MAX. The core controller issues MAX (03/R102 to R109, 07/R252 to R254). -/
def execOpMax (sq : Fin 64) (core : Fin 18) (s : State) : Host.Outcome State Fault Refusal :=
  .next (s.withHw (s.hw.cpIssue sq core .max))

/-- ABS. The core controller issues ABS (03/R102 to R109, 07/R252 to R254). -/
def execOpAbs (sq : Fin 64) (core : Fin 18) (s : State) : Host.Outcome State Fault Refusal :=
  .next (s.withHw (s.hw.cpIssue sq core .abs))

/-- NEG. The core controller issues NEG (03/R102 to R109, 07/R252 to R254). -/
def execOpNeg (sq : Fin 64) (core : Fin 18) (s : State) : Host.Outcome State Fault Refusal :=
  .next (s.withHw (s.hw.cpIssue sq core .neg))

/-- MOV. The core controller issues MOV (03/R102 to R109, 07/R252 to R254). -/
def execOpMov (sq : Fin 64) (core : Fin 18) (s : State) : Host.Outcome State Fault Refusal :=
  .next (s.withHw (s.hw.cpIssue sq core .mov))

/-- LDI. The core controller issues LDI (03/R102 to R109, 07/R252 to R254). -/
def execOpLdi (sq : Fin 64) (core : Fin 18) (s : State) : Host.Outcome State Fault Refusal :=
  .next (s.withHw (s.hw.cpIssue sq core .ldi))

/-- CMPGE. The core controller issues CMPGE (03/R102 to R109, 07/R252 to R254). -/
def execOpCmpge (sq : Fin 64) (core : Fin 18) (s : State) : Host.Outcome State Fault Refusal :=
  .next (s.withHw (s.hw.cpIssue sq core .cmpge))

/-- CMPLT. The core controller issues CMPLT (03/R102 to R109, 07/R252 to R254). -/
def execOpCmplt (sq : Fin 64) (core : Fin 18) (s : State) : Host.Outcome State Fault Refusal :=
  .next (s.withHw (s.hw.cpIssue sq core .cmplt))

/-- CMPEQ. The core controller issues CMPEQ (03/R102 to R109, 07/R252 to R254). -/
def execOpCmpeq (sq : Fin 64) (core : Fin 18) (s : State) : Host.Outcome State Fault Refusal :=
  .next (s.withHw (s.hw.cpIssue sq core .cmpeq))

/-- CMPNZ. The core controller issues CMPNZ (03/R102 to R109, 07/R252 to R254). -/
def execOpCmpnz (sq : Fin 64) (core : Fin 18) (s : State) : Host.Outcome State Fault Refusal :=
  .next (s.withHw (s.hw.cpIssue sq core .cmpnz))

/-- END. The core controller issues END (03/R102 to R109, 07/R252 to R254). -/
def execOpEnd (sq : Fin 64) (core : Fin 18) (s : State) : Host.Outcome State Fault Refusal :=
  .next (s.withHw (s.hw.cpIssue sq core .fin))

/-- JMP. The core controller issues JMP (03/R102 to R109, 07/R252 to R254). -/
def execOpJmp (sq : Fin 64) (core : Fin 18) (s : State) : Host.Outcome State Fault Refusal :=
  .next (s.withHw (s.hw.cpIssue sq core .jmp))

/-- LDW. The core controller issues LDW (03/R102 to R109, 07/R252 to R254). -/
def execOpLdw (sq : Fin 64) (core : Fin 18) (s : State) : Host.Outcome State Fault Refusal :=
  .next (s.withHw (s.hw.cpIssue sq core .ldw))

/-- STW. The core controller issues STW (03/R102 to R109, 07/R252 to R254). -/
def execOpStw (sq : Fin 64) (core : Fin 18) (s : State) : Host.Outcome State Fault Refusal :=
  .next (s.withHw (s.hw.cpIssue sq core .stw))

end Sys2Proof.Machine
end

