-- ==== Sys2Proof/Machine/ExecPower.lean ====
section
/-! DEFINITION. Meanings of the power, thermal and DVFS commands
(08/R287 to R303). -/

namespace Sys2Proof.Machine

/-- WINDOW_START. An accounting window begins, with the readings of the 64 sensors in °C (08/R289). -/
def execWindowStart (temps : List Int) (s : State) : Host.Outcome State Fault Refusal :=
  .next (s.withHw ((s.hw.windowStart temps).pscResume))

/-- POWER_SAMPLE. A 10 µs energy sample in µJ: at the inputs, of each square, of the work that is never throttled (08/R287). -/
def execPowerSample (energy : Nat) (squares : List (Nat × Nat)) (fixed : Nat) (s : State) : Host.Outcome State Fault Refusal :=
  .next (s.withHw ((s.hw.powerSample energy squares fixed).pscResume))

/-- TEMP_SAMPLE. A square sensor is read, in °C (08/R290). -/
def execTempSample (sq : Fin 64) (temp : Int) (s : State) : Host.Outcome State Fault Refusal :=
  .next (s.withHw (s.hw.tempSample sq temp))

/-- DVFS_RAISE_COMPLETE. A voltage raise completes (08/R294). -/
def execDvfsRaiseComplete (sq : Fin 64) (s : State) : Host.Outcome State Fault Refusal :=
  .next (s.withHw (s.hw.raiseDone sq))

/-- DOMAIN_IDLE_ENTRY. An idle domain begins entry to RETAIN or OFF (08/R296). -/
def execDomainIdleEntry (dom : Fin 91) (s : State) : Host.Outcome State Fault Refusal :=
  .next (s.withHw (s.hw.idleEntry dom))

/-- DOMAIN_TRANSITION_BEGIN. A waiting transition begins (08/R303). -/
def execDomainTransitionBegin (s : State) : Host.Outcome State Fault Refusal :=
  .next (s.withHw (s.hw.transitionBegin))

/-- DOMAIN_TRANSITION_DONE. A domain completes a transition, and held accesses are served (08/R295, R300). -/
def execDomainTransitionDone (dom : Fin 91) (s : State) : Host.Outcome State Fault Refusal :=
  .next (s.withHw (s.hw.transitionServed dom))

/-- PWR_REQ_WRITE. A write of PWR_REQ (08/R297). -/
def execPwrReqWrite (ini : Initiator) (value : Word) (s : State) : Host.Outcome State Fault Refusal :=
  .next (s.withHw (s.hw.doWrite ini (blockBase 12 + 0x20) value.toNat))

/-- WAKE_REQUEST. A wake source latches a wake of a domain (08/R300). -/
def execWakeRequest (dom : Fin 91) (s : State) : Host.Outcome State Fault Refusal :=
  .next (s.withHw (s.hw.wakeDom dom))

end Sys2Proof.Machine
end

