-- ==== Sys2Proof/Machine/ExecQueues.lean ====
section
/-! DEFINITION. Meanings of the queue, channel and controller-program commands
(07/R242 to R254). -/

namespace Sys2Proof.Machine

/-- ROPEN. A write of Q_CTLq.ROPEN = 1 (07/R242). -/
def execRopen (ini : Initiator) (sq : Fin 64) (core : Fin 18) (queue : Fin 4) (s : State) : Host.Outcome State Fault Refusal :=
  .next (s.withHw (s.hw.doWrite ini (queueReg sq core (0x20 + 4 * queue)) 1))

/-- RCLOSE. A write of Q_CTLq.RCLOSE = 1 (07/R242). -/
def execRclose (ini : Initiator) (sq : Fin 64) (core : Fin 18) (queue : Fin 4) (s : State) : Host.Outcome State Fault Refusal :=
  .next (s.withHw (s.hw.doWrite ini (queueReg sq core (0x20 + 4 * queue)) 2))

/-- SOPEN. A write of SCH_CTLc.SOPEN = 1 (07/R248). -/
def execSopen (ini : Initiator) (sq : Fin 64) (core : Fin 18) (queue : Fin 4) (s : State) : Host.Outcome State Fault Refusal :=
  .next (s.withHw (s.hw.doWrite ini (queueReg sq core (0x70 + 4 * queue)) 1))

/-- SCLOSE. A write of SCH_CTLc.SCLOSE = 1 (07/R248). -/
def execSclose (ini : Initiator) (sq : Fin 64) (core : Fin 18) (queue : Fin 4) (s : State) : Host.Outcome State Fault Refusal :=
  .next (s.withHw (s.hw.doWrite ini (queueReg sq core (0x70 + 4 * queue)) 2))

/-- SEND. The core controller issues a SEND (07/R249). -/
def execSend (sq : Fin 64) (core : Fin 18) (s : State) : Host.Outcome State Fault Refusal :=
  .next (s.withHw (s.hw.cpIssue sq core .send))

/-- RECV. The core controller issues a RECV (07/R251). -/
def execRecv (sq : Fin 64) (core : Fin 18) (s : State) : Host.Outcome State Fault Refusal :=
  .next (s.withHw (s.hw.cpIssue sq core .recv))

/-- SEND_TIMEOUT. A waiting SEND reaches CP_TMO (07/R250). -/
def execSendTimeout (sq : Fin 64) (core : Fin 18) (s : State) : Host.Outcome State Fault Refusal :=
  .next (s.withHw (s.hw.sendTimeout sq core))

/-- RECV_TIMEOUT. A waiting RECV reaches CP_TMO (07/R250). -/
def execRecvTimeout (sq : Fin 64) (core : Fin 18) (s : State) : Host.Outcome State Fault Refusal :=
  .next (s.withHw (s.hw.recvTimeout sq core))

/-- START. A write of CP_CTL.START = 1 (07/R252). -/
def execStart (ini : Initiator) (sq : Fin 64) (core : Fin 18) (s : State) : Host.Outcome State Fault Refusal :=
  .next (s.withHw (s.hw.doWrite ini (queueReg sq core 0x84) 1))

/-- STOP. A write of CP_CTL.STOP = 1 (07/R254). -/
def execStop (ini : Initiator) (sq : Fin 64) (core : Fin 18) (s : State) : Host.Outcome State Fault Refusal :=
  .next (s.withHw (s.hw.doWrite ini (queueReg sq core 0x84) 2))

end Sys2Proof.Machine
end

