-- ==== Sys2Proof/Machine/ExecRegs.lean ====
section
/-! DEFINITION. Meanings of the register writes and reads that have rows of their own, and of REGISTER_WRITE and the half accesses
(00/R13, R16, 01/R21, 02/R86, R87, 03/R121, 05/R172, R182, 06/R214, R215, R493, 13/R438, 14/R489). -/

namespace Sys2Proof.Machine

/-- REGISTER_WRITE. A write of a register, 32 bits or 64 (00/R13, R16). -/
def execRegisterWrite (ini : Initiator) (addr : Addr) (value : DWord) (wide : Bool) (s : State) : Host.Outcome State Fault Refusal :=
  .next (s.withHw (s.hw.doWrite ini addr.toNat value.toNat wide))

/-- REG64_LOW_READ. A 32-bit read of the low word of a 64-bit register (00/R16). -/
def execReg64LowRead (ini : Initiator) (addr : Addr) (s : State) : Host.Outcome State Fault Refusal :=
  .next (s.withHw (s.hw.doRead ini addr.toNat))

/-- REG64_HIGH_READ. A 32-bit read of the high word (00/R16). -/
def execReg64HighRead (ini : Initiator) (addr : Addr) (s : State) : Host.Outcome State Fault Refusal :=
  .next (s.withHw (s.hw.doRead ini addr.toNat))

/-- REG64_LOW_WRITE. A 32-bit write of the low word, which is held (00/R16). -/
def execReg64LowWrite (ini : Initiator) (addr : Addr) (value : Word) (s : State) : Host.Outcome State Fault Refusal :=
  .next (s.withHw (s.hw.doWrite ini addr.toNat value.toNat))

/-- REG64_HIGH_WRITE. A 32-bit write of the high word (00/R16). -/
def execReg64HighWrite (ini : Initiator) (addr : Addr) (value : Word) (s : State) : Host.Outcome State Fault Refusal :=
  .next (s.withHw (s.hw.doWrite ini addr.toNat value.toNat))

/-- SQ_CFG_WRITE. A write of SQ_CFG (01/R21). -/
def execSqCfgWrite (ini : Initiator) (sq : Fin 64) (value : Word) (s : State) : Host.Outcome State Fault Refusal :=
  .next (s.withHw (s.hw.doWrite ini (sqAddr sq 0x3800004) value.toNat))

/-- SEQ_TEMPO_PERIOD_WRITE. A write of SEQ_TEMPO_PERIODj (02/R86). -/
def execSeqTempoPeriodWrite (ini : Initiator) (job : Fin 4) (value : Word) (s : State) : Host.Outcome State Fault Refusal :=
  .next (s.withHw (s.hw.doWrite ini (blockBase 3 + 0x100 + 0x20 * job) value.toNat))

/-- SEQ_TEMPO_BOUND_WRITE. A write of SEQ_TEMPO_BOUNDj (02/R87). -/
def execSeqTempoBoundWrite (ini : Initiator) (job : Fin 4) (value : Word) (s : State) : Host.Outcome State Fault Refusal :=
  .next (s.withHw (s.hw.doWrite ini (blockBase 3 + 0x104 + 0x20 * job) value.toNat))

/-- RELOAD. A write of CORE_CTL.RELOAD = 1 (03/R121). -/
def execReload (ini : Initiator) (sq : Fin 64) (core : CoreRef) (s : State) : Host.Outcome State Fault Refusal :=
  .next (s.withHw (s.hw.doWrite ini (coreReg sq core 0x004) 1))

/-- RELOAD_CHECK_DONE. The table check ends (03/R122). -/
def execReloadCheckDone (sq : Fin 64) (core : Fin 18) (s : State) : Host.Outcome State Fault Refusal :=
  .next (s.withHw (s.hw.reloadDone sq core))

/-- RULE_RELOAD. A write of RULE_CTL.RELOAD = 1 (05/R172). -/
def execRuleReload (ini : Initiator) (sq : Fin 64) (core : CoreRef) (s : State) : Host.Outcome State Fault Refusal :=
  .next (s.withHw (s.hw.doWrite ini (coreReg sq core 0x200) 1))

/-- RULE_RELOAD_CHECK_DONE. The rule image check ends (05/R172). -/
def execRuleReloadCheckDone (sq : Fin 64) (core : Fin 18) (s : State) : Host.Outcome State Fault Refusal :=
  .next (s.withHw (s.hw.ruleReloadDone sq core))

/-- RULE_LFSR_WRITE. A write of RULE_LFSR (05/R182). -/
def execRuleLfsrWrite (ini : Initiator) (sq : Fin 64) (core : CoreRef) (value : Word) (s : State) : Host.Outcome State Fault Refusal :=
  .next (s.withHw (s.hw.doWrite ini (coreReg sq core 0x20C) value.toNat))

/-- FLIP. A write of RT_EPOCH.FLIP = 1 (06/R215). -/
def execFlip (ini : Initiator) (s : State) : Host.Outcome State Fault Refusal :=
  .next (s.withHw (s.hw.doWrite ini (blockBase 7 + 0x04) 0x100))

/-- RTR_TBL_DATA_WRITE. A write of RTR_TBL_DATA (06/R214, R495). -/
def execRtrTblDataWrite (ini : Initiator) (sq : Fin 64) (value : Word) (s : State) : Host.Outcome State Fault Refusal :=
  .next (s.withHw (s.hw.doWrite ini (sqAddr sq 0x3820004) value.toNat))

/-- OL_SLOT_WRITE. A 64-bit write of an output-ledger slot (06/R493). -/
def execOlSlotWrite (ini : Initiator) (slot : Fin 4096) (value : DWord) (s : State) : Host.Outcome State Fault Refusal :=
  .next (s.withHw (s.hw.doWrite ini (blockBase 7 + 0x8000 + 8 * slot) value.toNat true))

/-- FL_CTL_WRITE. A write of FL_CTLn (13/R438). -/
def execFlCtlWrite (ini : Initiator) (link : Fin 6) (value : Word) (s : State) : Host.Outcome State Fault Refusal :=
  .next (s.withHw (s.hw.doWrite ini (blockBase 9 + 0x100 * link) value.toNat))

/-- CSI_ENABLE. A write of CSI_CTLn with EN = 1 (14/R489). -/
def execCsiEnable (ini : Initiator) (csi : Fin 8) (value : Word) (s : State) : Host.Outcome State Fault Refusal :=
  .next (s.withHw (s.hw.doWrite ini (blockBase 10 + 0x400 * csi) (value.toNat ||| 1)))

end Sys2Proof.Machine
end

