-- ==== Sys2Proof/Machine/ExecRestart.lean ====
section
/-! DEFINITION. Meanings of the steps of a restart
(09/R332 to R337). -/

namespace Sys2Proof.Machine

/-- RESTART_PURGE_DONE. Step 2 of a restart (09/R332). -/
def execRestartPurgeDone (job : Fin 4) (s : State) : Host.Outcome State Fault Refusal :=
  .next (s.withHw (s.hw.purgeDone job))

/-- RESTORE_START. Step 3 of a restart (09/R337). -/
def execRestoreStart (job : Fin 4) (s : State) : Host.Outcome State Fault Refusal :=
  .next (s.withHw (s.hw.restoreStart job))

/-- RESTORE_DONE. The squares have restored (09/R333, 13/R441). -/
def execRestoreDone (job : Fin 4) (seen : List (Fin 64 × Seen)) (s : State) : Host.Outcome State Fault Refusal :=
  .next (s.withHw (s.hw.restoreDone job seen))

end Sys2Proof.Machine
end

