-- ==== Sys2Proof/Machine/ExecSupply.lean ====
section
/-! DEFINITION. Meanings of the supply, reset and management-port commands
(14/R460 to R477). -/

namespace Sys2Proof.Machine

/-- SUPPLY_START. An input has been in range for 1 ms: the input voltages in mV, the ADDR pins and the µs of S0 (14/R463). -/
def execSupplyStart (vinA : Nat) (vinB : Nat) (pins : Fin 8) (us : Nat) (s : State) : Host.Outcome State Fault Refusal :=
  .next (s.withHw (s.hw.supplyStart vinA vinB pins us))

/-- SUPPLY_SWITCH. The filtered inputs cross a threshold: their voltages in mV (14/R461). -/
def execSupplySwitch (vinA : Nat) (vinB : Nat) (s : State) : Host.Outcome State Fault Refusal :=
  .next (s.withHw (s.hw.supplySwitch vinA vinB))

/-- SUPPLY_RETURN. VIN_A has stayed above 9.5 V for 10 ms (14/R461). -/
def execSupplyReturn (s : State) : Host.Outcome State Fault Refusal :=
  .next (s.withHw (s.hw.supplyReturn))

/-- SUPPLY_OVERVOLTAGE. An input rises above 17.5 V (14/R460). -/
def execSupplyOvervoltage (input : Bool) (mv : Nat) (s : State) : Host.Outcome State Fault Refusal :=
  .next (s.withHw (s.hw.overvoltage input mv))

/-- SUPPLY_RECONNECT. An input has been below 16.5 V for 10 ms (14/R460). -/
def execSupplyReconnect (input : Bool) (mv : Nat) (s : State) : Host.Outcome State Fault Refusal :=
  .next (s.withHw (s.hw.reconnect input mv))

/-- INPUT_SHORT. An input is shorted (14/R465). -/
def execInputShort (input : Bool) (s : State) : Host.Outcome State Fault Refusal :=
  .next (s.withHw (s.hw.inputShort input))

/-- BROWNOUT. The bus falls below 3.0 V (14/R466). -/
def execBrownout (s : State) : Host.Outcome State Fault Refusal :=
  .next (s.withHw (s.hw.brownout))

/-- RESET_N_ASSERT. RESET_N has been low for 10 µs (14/R472). -/
def execResetNAssert (s : State) : Host.Outcome State Fault Refusal :=
  .next (s.withHw (s.hw.resetLow))

/-- RESET_N_RELEASE. RESET_N has been high for 10 µs (14/R472). -/
def execResetNRelease (s : State) : Host.Outcome State Fault Refusal :=
  .next (s.withHw (s.hw.resetHigh))

/-- MGT_TRANSFER. A management-port transfer to a 7-bit address: a read of `len` bytes, or a write of bytes (14/R475). -/
def execMgtTransfer (addr : Fin 128) (read : Bool) (len : Nat) (bytes : List Byte) (stop : Bool) (s : State) : Host.Outcome State Fault Refusal :=
  .next (s.withHw (s.hw.mgtTransfer addr read len bytes stop))

/-- MGT_SCL_TIMEOUT. SCL has been held low for 35 ms (14/R477). -/
def execMgtSclTimeout (s : State) : Host.Outcome State Fault Refusal :=
  .next (s.withHw (s.hw.sclTimeout))

/-- LOSS_OF_BOTH_SUPPLIES. Both inputs stay below 4.0 V: their voltages in mV (14/R466). -/
def execLossOfBothSupplies (vinA : Nat) (vinB : Nat) (s : State) : Host.Outcome State Fault Refusal :=
  .next (s.withHw (s.hw.suppliesLost vinA vinB))

/-- SUPPLY_RANGE_CHANGE. An input crosses a limit of its operating range: their voltages in mV (14/R461). -/
def execSupplyRangeChange (vinA : Nat) (vinB : Nat) (s : State) : Host.Outcome State Fault Refusal :=
  .next (s.withHw (s.hw.rangeChange vinA vinB))

end Sys2Proof.Machine
end

