-- ==== Sys2Proof/Machine/ExecTasks.lean ====
section
/-! DEFINITION. Meanings of the task commands
(08/R271 to R302). -/

namespace Sys2Proof.Machine

/-- TASK_START. A SEQ cycle of the arbiter (08/R283). -/
def execTaskStart (s : State) : Host.Outcome State Fault Refusal :=
  .next (s.withHw (s.hw.seqCycle))

/-- TASK_END. A CHECK task ends, with the slots that failed its known-answer work (08/R274, 09/R318). -/
def execTaskEnd (tid : Fin 4096) (fails : List (Nat × Nat)) (s : State) : Host.Outcome State Fault Refusal :=
  .next (s.withHw ((s.hw.taskFinish tid fails).kzPump))

/-- WAIT_TIME_EXPIRY. The timebase reaches the TIME of a WAIT_TIME task (08/R271). -/
def execWaitTimeExpiry (tid : Fin 4096) (s : State) : Host.Outcome State Fault Refusal :=
  .next (s.withHw (s.hw.waitExpiry tid))

/-- TASK_DEADLINE. A task passes its deadline (08/R279). -/
def execTaskDeadline (tid : Fin 4096) (s : State) : Host.Outcome State Fault Refusal :=
  .next (s.withHw (s.hw.taskDeadline tid))

/-- SEQ_RING_WRITE. A write of SEQ_RING (08/R301). -/
def execSeqRingWrite (ini : Initiator) (value : Word) (s : State) : Host.Outcome State Fault Refusal :=
  .next (s.withHw (s.hw.doWrite ini (blockBase 3 + 0x08) value.toNat))

/-- WAIT_TIME_LEAD_REACHED. A WAIT_TIME predecessor comes within BUD_LEAD (08/R302). -/
def execWaitTimeLeadReached (tid : Fin 4096) (s : State) : Host.Outcome State Fault Refusal :=
  .next (s.withHw (s.hw.leadReached tid))

end Sys2Proof.Machine
end

