-- ==== Sys2Proof/Machine/ExecTempo.lean ====
section
/-! DEFINITION. Meanings of the tempo commands: cut-off, release, closure, update, done, snapshots and stalls
(02, 03, 05, 09). -/

namespace Sys2Proof.Machine

/-- INPUT_CUTOFF. The timebase reaches C_T of the slot (02/R49). -/
def execInputCutoff (job : Fin 4) (s : State) : Host.Outcome State Fault Refusal :=
  .next (s.withHw (s.hw.inputCutoff job))

/-- JOB_RELEASE. The job of the slot is released at S (02/R68). -/
def execJobRelease (job : Fin 4) (s : State) : Host.Outcome State Fault Refusal :=
  .next (s.withHw (s.hw.jobRelease job))

/-- EVENT_DISTRIBUTE. The event distributor takes one event packet (03/R129, 04/R151). -/
def execEventDistribute (sq : Fin 64) (seen : List Seen) (s : State) : Host.Outcome State Fault Refusal :=
  .next (s.withHw (s.hw.eventDistribute sq seen))

/-- GLOBAL_CLOSURE. The tempo tree signals global closure (02/R44). -/
def execGlobalClosure (job : Fin 4) (seen : List (Fin 64 × Seen)) (s : State) : Host.Outcome State Fault Refusal :=
  .next (s.withHw (s.hw.globalClosure job seen))

/-- SHADOW_COMPARE. The shadow core compares a sampled unit, with what it and the third computation found (09/R312 to R315). -/
def execShadowCompare (sq : Fin 64) (core : Fin 18) (neuron : Fin 16384) (find : ShadowFind) (seen : List Seen) (s : State) :
    Host.Outcome State Fault Refusal :=
  .next (s.withHw (s.hw.shadowCompare sq core neuron find seen))

/-- UPDATE_COMPLETE. A core ends its update phase (03/R120). -/
def execUpdateComplete (sq : Fin 64) (core : Fin 18) (s : State) : Host.Outcome State Fault Refusal :=
  .next (s.withHw (s.hw.updateComplete sq core))

/-- CONSOLIDATION_PHASE_A. Phase A of a consolidation on a core (05/R185). -/
def execConsolidationPhaseA (sq : Fin 64) (core : Fin 18) (seen : List Seen) (s : State) : Host.Outcome State Fault Refusal :=
  .next (s.withHw (s.hw.consolidateA sq core seen))

/-- CONSOLIDATION_PHASE_B. Phase B of a consolidation on a core (05/R187). -/
def execConsolidationPhaseB (sq : Fin 64) (core : Fin 18) (seen : List Seen) (s : State) : Host.Outcome State Fault Refusal :=
  .next (s.withHw (s.hw.consolidateB sq core seen))

/-- GLOBAL_DONE. The tempo tree signals done (02/R44). -/
def execGlobalDone (job : Fin 4) (s : State) : Host.Outcome State Fault Refusal :=
  .next (s.withHw ((s.hw.globalDone job).kzPump))

/-- SNAPSHOT_COPY_UNIT. The background copier copies a unit (09/R324). -/
def execSnapshotCopyUnit (sq : Fin 64) (s : State) : Host.Outcome State Fault Refusal :=
  .next (s.withHw (s.hw.copyNext sq))

/-- TEMPO_STALL. A running tempo is later than four times the bound (02/R71). -/
def execTempoStall (job : Fin 4) (s : State) : Host.Outcome State Fault Refusal :=
  .next (s.withHw (s.hw.tempoStall job))

/-- RUNNING_TEMPO_LATE. The lateness of a running tempo passes the bound (11/R369). -/
def execRunningTempoLate (job : Fin 4) (s : State) : Host.Outcome State Fault Refusal :=
  .next (s.withHw (s.hw.tempoLate job))

end Sys2Proof.Machine
end

