-- ==== Sys2Proof/Machine/ExecTime.lean ====
section
/-! DEFINITION. Meanings of the timer, TIO and timebase commands
(11/R378 to R393). -/

namespace Sys2Proof.Machine

/-- TC_COUNT_EVENT. A TC that counts the timebase sees a tick (11/R378). -/
def execTcCountEvent (tc : Fin 16) (s : State) : Host.Outcome State Fault Refusal :=
  .next (s.withHw (s.hw.tcTick tc))

/-- TIO_EDGE. The sampled level of a TIO pin has held its new value for `samples` samples (11/R379). -/
def execTioEdge (pin : Fin 16) (level : Bool) (samples : Nat) (s : State) : Host.Outcome State Fault Refusal :=
  .next (s.withHw (s.hw.tioEdge pin level samples))

/-- TC_CAP_READ. A read of TC_CAPn, of its low word or whole (11/R384). -/
def execTcCapRead (ini : Initiator) (tc : Fin 16) (wide : Bool) (s : State) : Host.Outcome State Fault Refusal :=
  .next (s.withHw (s.hw.doRead ini (blockBase 2 + 0x40 * tc + 0x18) wide))

/-- CLEAR. A write of TC_CTLn with CLEAR = 1; EN is written with it (11/R381). -/
def execClear (ini : Initiator) (tc : Fin 16) (en : Bool) (s : State) : Host.Outcome State Fault Refusal :=
  .next (s.withHw (s.hw.doWrite ini (blockBase 2 + 0x40 * tc + 0x04) (b2n en + 2)))

/-- TC_CNT_WRITE. A write of TC_CNTn (11/R381). -/
def execTcCntWrite (ini : Initiator) (tc : Fin 16) (value : Word) (s : State) : Host.Outcome State Fault Refusal :=
  .next (s.withHw (s.hw.doWrite ini (blockBase 2 + 0x40 * tc + 0x0C) value.toNat))

/-- TC_CMP_WRITE. A write of TC_CMPn (11/R381). -/
def execTcCmpWrite (ini : Initiator) (tc : Fin 16) (value : Word) (s : State) : Host.Outcome State Fault Refusal :=
  .next (s.withHw (s.hw.doWrite ini (blockBase 2 + 0x40 * tc + 0x10) value.toNat))

/-- TIME_REF_PRESENT. TIME_REF becomes present (11/R389). -/
def execTimeRefPresent (s : State) : Host.Outcome State Fault Refusal :=
  .next (s.withHw (s.hw.refPresent))

/-- TIME_REF_LOST. TIME_REF shows no edge for 1 µs (11/R389). -/
def execTimeRefLost (s : State) : Host.Outcome State Fault Refusal :=
  .next (s.withHw (s.hw.refLost))

/-- TIMEBASE_PLL_LOCK. The timebase PLL locks (11/R389). -/
def execTimebasePllLock (s : State) : Host.Outcome State Fault Refusal :=
  .next (s.withHw (s.hw.pllLock))

/-- PPS_EDGE. A PPS rising edge (11/R390). -/
def execPpsEdge (s : State) : Host.Outcome State Fault Refusal :=
  .next (s.withHw (s.hw.ppsEdge))

/-- PPS_ABSENT. 1.5 s without an accepted edge (11/R390). -/
def execPpsAbsent (s : State) : Host.Outcome State Fault Refusal :=
  .next (s.withHw (s.hw.ppsAbsent))

/-- TIMEBASE_SLEW_TICK. One slew step of the timebase (11/R391). -/
def execTimebaseSlewTick (s : State) : Host.Outcome State Fault Refusal :=
  .next (s.withHw (s.hw.slewTick))

/-- TB_SET_WRITE. A write of TB_SET, whole or of its high word (11/R393). -/
def execTbSetWrite (ini : Initiator) (value : DWord) (wide : Bool) (s : State) : Host.Outcome State Fault Refusal :=
  .next (s.withHw (if wide then s.hw.doWrite ini (blockBase 2 + 0x820) value.toNat true else s.hw.doWrite ini (blockBase 2 + 0x824) (value.toNat / 2 ^ 32)))

/-- TB_PPS_READ. A read of TB_PPS, of its low word or whole (11/R390). -/
def execTbPpsRead (ini : Initiator) (wide : Bool) (s : State) : Host.Outcome State Fault Refusal :=
  .next (s.withHw (s.hw.doRead ini (blockBase 2 + 0x810) wide))

end Sys2Proof.Machine
end

