-- ==== Sys2Proof/Machine/Dispatch.lean ====
section
/-! DEFINITION. One arm for each command. -/

namespace Sys2Proof.Machine

/-- What a command does to everything but the queue. -/
def exec (i : Instr) (s : State) : Host.Outcome State Fault Refusal :=
  match i with
  | .registerWrite ini addr value wide => Sys2Proof.Machine.execRegisterWrite ini addr value wide s
  | .reg64LowRead ini addr => Sys2Proof.Machine.execReg64LowRead ini addr s
  | .reg64HighRead ini addr => Sys2Proof.Machine.execReg64HighRead ini addr s
  | .reg64LowWrite ini addr value => Sys2Proof.Machine.execReg64LowWrite ini addr value s
  | .reg64HighWrite ini addr value => Sys2Proof.Machine.execReg64HighWrite ini addr value s
  | .sqCfgWrite ini sq value => Sys2Proof.Machine.execSqCfgWrite ini sq value s
  | .inputCutoff job => Sys2Proof.Machine.execInputCutoff job s
  | .jobRelease job => Sys2Proof.Machine.execJobRelease job s
  | .eventDistribute sq seen => Sys2Proof.Machine.execEventDistribute sq seen s
  | .globalClosure job seen => Sys2Proof.Machine.execGlobalClosure job seen s
  | .shadowCompare sq core neuron find seen => Sys2Proof.Machine.execShadowCompare sq core neuron find seen s
  | .updateComplete sq core => Sys2Proof.Machine.execUpdateComplete sq core s
  | .consolidationPhaseA sq core seen => Sys2Proof.Machine.execConsolidationPhaseA sq core seen s
  | .consolidationPhaseB sq core seen => Sys2Proof.Machine.execConsolidationPhaseB sq core seen s
  | .globalDone job => Sys2Proof.Machine.execGlobalDone job s
  | .snapshotCopyUnit sq => Sys2Proof.Machine.execSnapshotCopyUnit sq s
  | .tempoStall job => Sys2Proof.Machine.execTempoStall job s
  | .seqTempoPeriodWrite ini job value => Sys2Proof.Machine.execSeqTempoPeriodWrite ini job value s
  | .seqTempoBoundWrite ini job value => Sys2Proof.Machine.execSeqTempoBoundWrite ini job value s
  | .reload ini sq core => Sys2Proof.Machine.execReload ini sq core s
  | .reloadCheckDone sq core => Sys2Proof.Machine.execReloadCheckDone sq core s
  | .ruleReload ini sq core => Sys2Proof.Machine.execRuleReload ini sq core s
  | .ruleReloadCheckDone sq core => Sys2Proof.Machine.execRuleReloadCheckDone sq core s
  | .ruleLfsrWrite ini sq core value => Sys2Proof.Machine.execRuleLfsrWrite ini sq core value s
  | .packetInject sq => Sys2Proof.Machine.execPacketInject sq s
  | .routeCycle => Sys2Proof.Machine.execRouteCycle s
  | .writePacket sq => Sys2Proof.Machine.execWritePacket sq s
  | .readPacket sq seen => Sys2Proof.Machine.execReadPacket sq seen s
  | .fencePacket sq => Sys2Proof.Machine.execFencePacket sq s
  | .respPacket sq => Sys2Proof.Machine.execRespPacket sq s
  | .queuePacket sq => Sys2Proof.Machine.execQueuePacket sq s
  | .qstatPacket sq => Sys2Proof.Machine.execQstatPacket sq s
  | .inboxWatchdog sq => Sys2Proof.Machine.execInboxWatchdog sq s
  | .flip ini => Sys2Proof.Machine.execFlip ini s
  | .oldEpochDrained => Sys2Proof.Machine.execOldEpochDrained s
  | .rtrTblDataWrite ini sq value => Sys2Proof.Machine.execRtrTblDataWrite ini sq value s
  | .olSlotWrite ini slot value => Sys2Proof.Machine.execOlSlotWrite ini slot value s
  | .squareAbsent sq => Sys2Proof.Machine.execSquareAbsent sq s
  | .linkFrameTx link => Sys2Proof.Machine.execLinkFrameTx link s
  | .linkFrameRx link frame marks => Sys2Proof.Machine.execLinkFrameRx link frame marks s
  | .linkResendLimit link => Sys2Proof.Machine.execLinkResendLimit link s
  | .linkSilenceTimeout link => Sys2Proof.Machine.execLinkSilenceTimeout link s
  | .laneFail link lane => Sys2Proof.Machine.execLaneFail link lane s
  | .flCtlWrite ini link value => Sys2Proof.Machine.execFlCtlWrite ini link value s
  | .linkUp link => Sys2Proof.Machine.execLinkUp link s
  | .ropen ini sq core queue => Sys2Proof.Machine.execRopen ini sq core queue s
  | .rclose ini sq core queue => Sys2Proof.Machine.execRclose ini sq core queue s
  | .sopen ini sq core queue => Sys2Proof.Machine.execSopen ini sq core queue s
  | .sclose ini sq core queue => Sys2Proof.Machine.execSclose ini sq core queue s
  | .send sq core => Sys2Proof.Machine.execSend sq core s
  | .recv sq core => Sys2Proof.Machine.execRecv sq core s
  | .sendTimeout sq core => Sys2Proof.Machine.execSendTimeout sq core s
  | .recvTimeout sq core => Sys2Proof.Machine.execRecvTimeout sq core s
  | .start ini sq core => Sys2Proof.Machine.execStart ini sq core s
  | .stop ini sq core => Sys2Proof.Machine.execStop ini sq core s
  | .opNop sq core => Sys2Proof.Machine.execOpNop sq core s
  | .opAdd sq core => Sys2Proof.Machine.execOpAdd sq core s
  | .opSub sq core => Sys2Proof.Machine.execOpSub sq core s
  | .opMul sq core => Sys2Proof.Machine.execOpMul sq core s
  | .opShr sq core => Sys2Proof.Machine.execOpShr sq core s
  | .opShl sq core => Sys2Proof.Machine.execOpShl sq core s
  | .opMin sq core => Sys2Proof.Machine.execOpMin sq core s
  | .opMax sq core => Sys2Proof.Machine.execOpMax sq core s
  | .opAbs sq core => Sys2Proof.Machine.execOpAbs sq core s
  | .opNeg sq core => Sys2Proof.Machine.execOpNeg sq core s
  | .opMov sq core => Sys2Proof.Machine.execOpMov sq core s
  | .opLdi sq core => Sys2Proof.Machine.execOpLdi sq core s
  | .opCmpge sq core => Sys2Proof.Machine.execOpCmpge sq core s
  | .opCmplt sq core => Sys2Proof.Machine.execOpCmplt sq core s
  | .opCmpeq sq core => Sys2Proof.Machine.execOpCmpeq sq core s
  | .opCmpnz sq core => Sys2Proof.Machine.execOpCmpnz sq core s
  | .opEnd sq core => Sys2Proof.Machine.execOpEnd sq core s
  | .opJmp sq core => Sys2Proof.Machine.execOpJmp sq core s
  | .opLdw sq core => Sys2Proof.Machine.execOpLdw sq core s
  | .opStw sq core => Sys2Proof.Machine.execOpStw sq core s
  | .dmaStartChain ini chan => Sys2Proof.Machine.execDmaStartChain ini chan s
  | .dmaStopChain ini chan => Sys2Proof.Machine.execDmaStopChain ini chan s
  | .dmaDescriptor chan => Sys2Proof.Machine.execDmaDescriptor chan s
  | .dmaDescriptorComplete chan => Sys2Proof.Machine.execDmaDescriptorComplete chan s
  | .dmaTimeout chan => Sys2Proof.Machine.execDmaTimeout chan s
  | .taskStart => Sys2Proof.Machine.execTaskStart s
  | .taskEnd tid fails => Sys2Proof.Machine.execTaskEnd tid fails s
  | .waitTimeExpiry tid => Sys2Proof.Machine.execWaitTimeExpiry tid s
  | .taskDeadline tid => Sys2Proof.Machine.execTaskDeadline tid s
  | .seqRingWrite ini value => Sys2Proof.Machine.execSeqRingWrite ini value s
  | .windowStart temps => Sys2Proof.Machine.execWindowStart temps s
  | .powerSample energy squares fixed => Sys2Proof.Machine.execPowerSample energy squares fixed s
  | .tempSample sq temp => Sys2Proof.Machine.execTempSample sq temp s
  | .dvfsRaiseComplete sq => Sys2Proof.Machine.execDvfsRaiseComplete sq s
  | .domainIdleEntry dom => Sys2Proof.Machine.execDomainIdleEntry dom s
  | .domainTransitionBegin => Sys2Proof.Machine.execDomainTransitionBegin s
  | .domainTransitionDone dom => Sys2Proof.Machine.execDomainTransitionDone dom s
  | .pwrReqWrite ini value => Sys2Proof.Machine.execPwrReqWrite ini value s
  | .wakeRequest dom => Sys2Proof.Machine.execWakeRequest dom s
  | .restartPurgeDone job => Sys2Proof.Machine.execRestartPurgeDone job s
  | .restoreStart job => Sys2Proof.Machine.execRestoreStart job s
  | .restoreDone job seen => Sys2Proof.Machine.execRestoreDone job seen s
  | .eccWriteback unit group bank row used => Sys2Proof.Machine.execEccWriteback unit group bank row used s
  | .rowRepair unit group bank row bad uncorr check => Sys2Proof.Machine.execRowRepair unit group bank row bad uncorr check s
  | .sqBankreqWrite ini sq value => Sys2Proof.Machine.execSqBankreqWrite ini sq value s
  | .retrain ini chan => Sys2Proof.Machine.execRetrain ini chan s
  | .psramDriftCheck drifts => Sys2Proof.Machine.execPsramDriftCheck drifts s
  | .psramRetrainDone chan window => Sys2Proof.Machine.execPsramRetrainDone chan window s
  | .psramRetrainTimeout chan => Sys2Proof.Machine.execPsramRetrainTimeout chan s
  | .journalPageWrite => Sys2Proof.Machine.execJournalPageWrite s
  | .pscJrnlWrite ini value => Sys2Proof.Machine.execPscJrnlWrite ini value s
  | .sessionOpen port async tag params => Sys2Proof.Machine.execSessionOpen port async tag params s
  | .sessionClose port async tag params => Sys2Proof.Machine.execSessionClose port async tag params s
  | .takeover port async tag params => Sys2Proof.Machine.execTakeover port async tag params s
  | .setLease port async tag params => Sys2Proof.Machine.execSetLease port async tag params s
  | .echo port async tag params => Sys2Proof.Machine.execEcho port async tag params s
  | .portStatus port async tag params => Sys2Proof.Machine.execPortStatus port async tag params s
  | .getIdentity port async tag params => Sys2Proof.Machine.execGetIdentity port async tag params s
  | .getStageReports port async tag params => Sys2Proof.Machine.execGetStageReports port async tag params s
  | .getCert port async tag params => Sys2Proof.Machine.execGetCert port async tag params s
  | .attest port async tag params => Sys2Proof.Machine.execAttest port async tag params s
  | .getTelemetry port async tag params => Sys2Proof.Machine.execGetTelemetry port async tag params s
  | .getNetDigests port async tag params => Sys2Proof.Machine.execGetNetDigests port async tag params s
  | .memRead port async tag params => Sys2Proof.Machine.execMemRead port async tag params s
  | .memWrite port async tag params => Sys2Proof.Machine.execMemWrite port async tag params s
  | .dmaStart port async tag params => Sys2Proof.Machine.execDmaStart port async tag params s
  | .graphSubmit port async tag params => Sys2Proof.Machine.execGraphSubmit port async tag params s
  | .taskRetire port async tag params => Sys2Proof.Machine.execTaskRetire port async tag params s
  | .taskCancel port async tag params => Sys2Proof.Machine.execTaskCancel port async tag params s
  | .taskStatus port async tag params => Sys2Proof.Machine.execTaskStatus port async tag params s
  | .jobStop port async tag params => Sys2Proof.Machine.execJobStop port async tag params s
  | .doorbellRing port async tag params => Sys2Proof.Machine.execDoorbellRing port async tag params s
  | .seqRun port async tag params => Sys2Proof.Machine.execSeqRun port async tag params s
  | .imageCheck port async tag params => Sys2Proof.Machine.execImageCheck port async tag params s
  | .squareInfo port async tag params => Sys2Proof.Machine.execSquareInfo port async tag params s
  | .streamSet port async tag params => Sys2Proof.Machine.execStreamSet port async tag params s
  | .streamGet port async tag params => Sys2Proof.Machine.execStreamGet port async tag params s
  | .pwrSet port async tag params => Sys2Proof.Machine.execPwrSet port async tag params s
  | .pwrPins port async tag params => Sys2Proof.Machine.execPwrPins port async tag params s
  | .budgetSet port async tag params => Sys2Proof.Machine.execBudgetSet port async tag params s
  | .budgetGet port async tag params => Sys2Proof.Machine.execBudgetGet port async tag params s
  | .tripClear port async tag params => Sys2Proof.Machine.execTripClear port async tag params s
  | .faultRead port async tag params => Sys2Proof.Machine.execFaultRead port async tag params s
  | .stickyRead port async tag params => Sys2Proof.Machine.execStickyRead port async tag params s
  | .stickyClear port async tag params => Sys2Proof.Machine.execStickyClear port async tag params s
  | .jobFaults port async tag params => Sys2Proof.Machine.execJobFaults port async tag params s
  | .fwBegin port async tag params => Sys2Proof.Machine.execFwBegin port async tag params s
  | .fwData port async tag params => Sys2Proof.Machine.execFwData port async tag params s
  | .fwEnd port async tag params => Sys2Proof.Machine.execFwEnd port async tag params s
  | .fwActivate port async tag params => Sys2Proof.Machine.execFwActivate port async tag params s
  | .fwCoreReport => Sys2Proof.Machine.execFwCoreReport s
  | .fwActivationTimeout => Sys2Proof.Machine.execFwActivationTimeout s
  | .fwStatus port async tag params => Sys2Proof.Machine.execFwStatus port async tag params s
  | .lcGet port async tag params => Sys2Proof.Machine.execLcGet port async tag params s
  | .lcTransition port async tag params => Sys2Proof.Machine.execLcTransition port async tag params s
  | .keyEnrol port async tag params => Sys2Proof.Machine.execKeyEnrol port async tag params s
  | .reset port async tag params => Sys2Proof.Machine.execReset port async tag params s
  | .timeGet port async tag params => Sys2Proof.Machine.execTimeGet port async tag params s
  | .timeSet port async tag params => Sys2Proof.Machine.execTimeSet port async tag params s
  | .leaseExpiry => Sys2Proof.Machine.execLeaseExpiry s
  | .usbLinkLoss port reset => Sys2Proof.Machine.execUsbLinkLoss port reset s
  | .usbSuspend port enter wake => Sys2Proof.Machine.execUsbSuspend port enter wake s
  | .vbusChange port present => Sys2Proof.Machine.execVbusChange port present s
  | .resultRecordAck port => Sys2Proof.Machine.execResultRecordAck port s
  | .inputRecord port bytes => Sys2Proof.Machine.execInputRecord port bytes s
  | .ircDoorbell ini target source => Sys2Proof.Machine.execIrcDoorbell ini target source s
  | .ircAck ini target => Sys2Proof.Machine.execIrcAck ini target s
  | .ircEoi ini target source => Sys2Proof.Machine.execIrcEoi ini target source s
  | .clrp ini source pri en => Sys2Proof.Machine.execClrp ini source pri en s
  | .ircHoldoffEnd group => Sys2Proof.Machine.execIrcHoldoffEnd group s
  | .tcCountEvent tc => Sys2Proof.Machine.execTcCountEvent tc s
  | .tioEdge pin level samples => Sys2Proof.Machine.execTioEdge pin level samples s
  | .tcCapRead ini tc wide => Sys2Proof.Machine.execTcCapRead ini tc wide s
  | .clear ini tc en => Sys2Proof.Machine.execClear ini tc en s
  | .tcCntWrite ini tc value => Sys2Proof.Machine.execTcCntWrite ini tc value s
  | .tcCmpWrite ini tc value => Sys2Proof.Machine.execTcCmpWrite ini tc value s
  | .timeRefPresent => Sys2Proof.Machine.execTimeRefPresent s
  | .timeRefLost => Sys2Proof.Machine.execTimeRefLost s
  | .timebasePllLock => Sys2Proof.Machine.execTimebasePllLock s
  | .ppsEdge => Sys2Proof.Machine.execPpsEdge s
  | .ppsAbsent => Sys2Proof.Machine.execPpsAbsent s
  | .timebaseSlewTick => Sys2Proof.Machine.execTimebaseSlewTick s
  | .tbSetWrite ini value wide => Sys2Proof.Machine.execTbSetWrite ini value wide s
  | .tbPpsRead ini wide => Sys2Proof.Machine.execTbPpsRead ini wide s
  | .stageS1 => Sys2Proof.Machine.execStageS1 s
  | .stageS2 unlocked pll => Sys2Proof.Machine.execStageS2 unlocked pll s
  | .stageS3 finds psram => Sys2Proof.Machine.execStageS3 finds psram s
  | .stageS4 => Sys2Proof.Machine.execStageS4 s
  | .stageS5 fails => Sys2Proof.Machine.execStageS5 fails s
  | .stageS6 windows => Sys2Proof.Machine.execStageS6 windows s
  | .stageS7 fails => Sys2Proof.Machine.execStageS7 fails s
  | .linkTrainingTimeout link => Sys2Proof.Machine.execLinkTrainingTimeout link s
  | .stageS8 => Sys2Proof.Machine.execStageS8 s
  | .go ini link lane => Sys2Proof.Machine.execGo ini link lane s
  | .laneRetrainDone link ok => Sys2Proof.Machine.execLaneRetrainDone link ok s
  | .laneRetrainTimeout link => Sys2Proof.Machine.execLaneRetrainTimeout link s
  | .laneErrorWindow link lane errors => Sys2Proof.Machine.execLaneErrorWindow link lane errors s
  | .supplyStart vinA vinB pins us => Sys2Proof.Machine.execSupplyStart vinA vinB pins us s
  | .supplySwitch vinA vinB => Sys2Proof.Machine.execSupplySwitch vinA vinB s
  | .supplyReturn => Sys2Proof.Machine.execSupplyReturn s
  | .supplyOvervoltage input mv => Sys2Proof.Machine.execSupplyOvervoltage input mv s
  | .supplyReconnect input mv => Sys2Proof.Machine.execSupplyReconnect input mv s
  | .inputShort input => Sys2Proof.Machine.execInputShort input s
  | .brownout => Sys2Proof.Machine.execBrownout s
  | .resetNAssert => Sys2Proof.Machine.execResetNAssert s
  | .resetNRelease => Sys2Proof.Machine.execResetNRelease s
  | .mgtTransfer addr read len bytes stop => Sys2Proof.Machine.execMgtTransfer addr read len bytes stop s
  | .mgtSclTimeout => Sys2Proof.Machine.execMgtSclTimeout s
  | .csiPacket csi channel hdrBad crcBad more body => Sys2Proof.Machine.execCsiPacket csi channel hdrBad crcBad more body s
  | .csiEnable ini csi value => Sys2Proof.Machine.execCsiEnable ini csi value s
  | .runningTempoLate job => Sys2Proof.Machine.execRunningTempoLate job s
  | .bankGroupTransitionDone sq group => Sys2Proof.Machine.execBankGroupTransitionDone sq group s
  | .malformedCommand port raw => Sys2Proof.Machine.execMalformedCommand port raw s
  | .replyCollected port => Sys2Proof.Machine.execReplyCollected port s
  | .notificationDelivered port => Sys2Proof.Machine.execNotificationDelivered port s
  | .lossOfBothSupplies vinA vinB => Sys2Proof.Machine.execLossOfBothSupplies vinA vinB s
  | .supplyRangeChange vinA vinB => Sys2Proof.Machine.execSupplyRangeChange vinA vinB s
  | .linkTrainingRequest link => Sys2Proof.Machine.execLinkTrainingRequest link s
  | .waitTimeLeadReached tid => Sys2Proof.Machine.execWaitTimeLeadReached tid s

end Sys2Proof.Machine
end

