-- ==== Sys2Proof/Safety.lean ====
section
/-! DEFINITION. What counts as a safe step, and the words that the statements use: when an access to a square is served, when a
Kezil port is quiet, what the arrival of a command does, and a reply. -/

namespace Sys2Proof.Machine

/-- Memory is in its canonical form. -/
def Hw.memOk (h : Hw) : Prop := Memory.wf h.banks.mem = true

/-- A safe step: the module goes on, and its memory keeps its canonical form. -/
def SafeStep (s : State) : Prop := ∃ t, step s = .next t ∧ (s.hw.memOk → t.hw.memOk)

/-- A square serves accesses: neither its router nor the square is fenced, it is not fused off, its router is NORMAL or
DRAINING, and its compute domain is ON (01/R36, 06/R226, R227). -/
def Hw.sqServes (h : Hw) (s : Nat) : Prop :=
  (h.sqOf s).rt.fenced = false ∧ (h.sqOf s).fused = false ∧ (h.sqOf s).fenced = false
    ∧ ((h.sqOf s).rt.state = .normal ∨ (h.sqOf s).rt.state = .draining) ∧ h.isOn s = true

/-- A square serves accesses, and its logical core is present (01/R24). -/
def Hw.coreServes (h : Hw) (s l : Nat) : Prop := h.sqServes s ∧ (h.sqOf s).slotFor l < 19

/-- The physical slot that a register write of a core names (01/R38, R39). -/
def Hw.slotNamed (h : Hw) (s : Nat) (c : CoreRef) : Nat :=
  match c with
  | .logical l => (h.sqOf s).slotFor l
  | .slot p => p

/-- A write of a register of the slot is served and takes effect: the square serves, the slot carries a logical number, and
the physical-slot window is written by a control core or the security engine (01/R24, R39, 03/R126). -/
def Hw.slotWritable (h : Hw) (ini : Initiator) (s : Nat) (c : CoreRef) : Prop :=
  h.sqServes s ∧ h.slotNamed s c < 19 ∧ ((h.sqOf s).coreFor (h.slotNamed s c)).isSome
    ∧ (match c with | .logical _ => true | .slot _ => mayWriteSlots ini) = true

/-- The constants and the present word of a core's controller program are readable (09/R307). -/
def Hw.cpReadable (h : Hw) (s l : Nat) : Prop :=
  h.poisoned (sqMem s + (h.cpOf s l).base) 32 = false
    ∧ h.poisoned (sqMem s + (h.cpOf s l).base + 32 + 4 * (h.cpOf s l).pc) 4 = false

/-- A bank group is neither OFF nor on its way into OFF or out of it, so that its use loses nothing (12/R395, R396). -/
def Hw.bankKept (h : Hw) (s g : Nat) : Prop := ((h.sqOf s).bankOf g).state ≠ .off ∧ ((h.sqOf s).bankOf g).moving ≠ some .off

/-- The bank group that holds an address of square s is so. -/
def Hw.placeKept (h : Hw) (s a : Nat) : Prop := ∀ g, bankGroup a = some g → h.bankKept s g

/-- Square memory is so. -/
def Hw.memKept (h : Hw) (s : Nat) : Prop := h.bankKept s 19

/-- A controller program runs on a core whose square works, does not wait, is readable, and its present word is the micro-op `u`
(07/R252). -/
def Hw.present (h : Hw) (s l : Nat) (u : Uop) : Prop := h.cpCurrent s l = some u ∧ h.cpReadable s l ∧ h.memKept s

/-- The present micro-op, whose predicate is true (03/R101). -/
def Hw.issues (h : Hw) (s l : Nat) (u : Uop) : Prop := h.present s l u ∧ u.holds (h.cpOf s l).f = true

/-- The module while the core port of square s uses square memory: its bank group is back from RETAIN (12/R396, log 152). -/
def Hw.memAwake (h : Hw) (s : Nat) : Hw := h.useBanks s [19]

/-- A quiet Kezil port: it can move transfers, the command engine is ON, no command waits or is in progress on either port,
and it holds fewer than 32 replies (10/R349). -/
def Hw.kzQuiet (h : Hw) (p : Bool) : Prop :=
  (h.portOf p).live = true ∧ h.kzOn = true ∧ (h.portOf p).cmds = [] ∧ (h.portOf (!p)).cmds = []
    ∧ (h.portOf p).current = none ∧ (h.portOf (!p)).current = none ∧ (h.portOf p).replies.length < 32

/-- No running task waits for an access to PSRAM that is held (12/R411). -/
def Hw.noTaskWaits (h : Hw) : Prop := ∀ x, x ∈ h.seq.tasks → x.2.state = .running → x.2.memWait = []

/-- What the arrival of a command does but for queueing it: the arrival is counted, the owner's lease starts again, the control
complex, the hub and the port's domain are used or woken, and the port signals its source (10/R349, R355, 08/R298, 11/T11-1). -/
def Hw.arrived (h : Hw) (p : Bool) : Hw :=
  let h := ({ h with kz := { h.kz with arrivals := h.kz.arrivals + 1 } }).kzTouch p
  (((h.wakeDom domCtrl).wakeDom domHub).touchDom (domUsb p)).irq (16 + b2n p)

/-- The module with one more reply queued on a port (10/R347). -/
def Hw.answered (h : Hw) (p : Bool) (opcode tag : Nat) (async : Bool) (status detail : Nat) (data : List Byte) : Hw :=
  h.modPort p fun q => { q with replies := q.replies ++ [replyBytes opcode tag async status detail data] }

/-- The command of an opcode (10/T10-8 to T10-17). -/
def kezilInstr (opcode : Nat) (p async : Bool) (tag : BitVec 16) (ps : List Byte) : Option Instr :=
  match opcode with
  | 0x0101 => some (.sessionOpen p async tag ps)
  | 0x0102 => some (.sessionClose p async tag ps)
  | 0x0103 => some (.takeover p async tag ps)
  | 0x0104 => some (.setLease p async tag ps)
  | 0x0105 => some (.echo p async tag ps)
  | 0x0106 => some (.portStatus p async tag ps)
  | 0x0201 => some (.getIdentity p async tag ps)
  | 0x0202 => some (.getStageReports p async tag ps)
  | 0x0203 => some (.getCert p async tag ps)
  | 0x0204 => some (.attest p async tag ps)
  | 0x0205 => some (.getTelemetry p async tag ps)
  | 0x0206 => some (.getNetDigests p async tag ps)
  | 0x0301 => some (.memRead p async tag ps)
  | 0x0302 => some (.memWrite p async tag ps)
  | 0x0303 => some (.dmaStart p async tag ps)
  | 0x0401 => some (.graphSubmit p async tag ps)
  | 0x0402 => some (.taskRetire p async tag ps)
  | 0x0403 => some (.taskCancel p async tag ps)
  | 0x0404 => some (.taskStatus p async tag ps)
  | 0x0405 => some (.jobStop p async tag ps)
  | 0x0406 => some (.doorbellRing p async tag ps)
  | 0x0407 => some (.seqRun p async tag ps)
  | 0x0501 => some (.imageCheck p async tag ps)
  | 0x0502 => some (.squareInfo p async tag ps)
  | 0x0503 => some (.streamSet p async tag ps)
  | 0x0504 => some (.streamGet p async tag ps)
  | 0x0601 => some (.pwrSet p async tag ps)
  | 0x0602 => some (.pwrPins p async tag ps)
  | 0x0603 => some (.budgetSet p async tag ps)
  | 0x0604 => some (.budgetGet p async tag ps)
  | 0x0605 => some (.tripClear p async tag ps)
  | 0x0701 => some (.faultRead p async tag ps)
  | 0x0702 => some (.stickyRead p async tag ps)
  | 0x0703 => some (.stickyClear p async tag ps)
  | 0x0704 => some (.jobFaults p async tag ps)
  | 0x0801 => some (.fwBegin p async tag ps)
  | 0x0802 => some (.fwData p async tag ps)
  | 0x0803 => some (.fwEnd p async tag ps)
  | 0x0804 => some (.fwActivate p async tag ps)
  | 0x0805 => some (.fwStatus p async tag ps)
  | 0x0901 => some (.lcGet p async tag ps)
  | 0x0902 => some (.lcTransition p async tag ps)
  | 0x0903 => some (.keyEnrol p async tag ps)
  | 0x0904 => some (.reset p async tag ps)
  | 0x0A01 => some (.timeGet p async tag ps)
  | 0x0A02 => some (.timeSet p async tag ps)
  | _ => none

/-- A Kezil command completes: it is answered OK on its port with `data`, over the module `h`. -/
def Completes (i : Instr) (opcode : Nat) (p : Bool) (tag : BitVec 16) (s : State) (h : Hw) (data : List Byte) : Prop :=
  exec i s = .next (s.withHw (h.answered p opcode tag.toNat false stOK 0 data))

/-- A Kezil command is turned away: it is answered with a status and DETAIL, without data, and only its arrival has changed the
module. -/
def TurnedAway (i : Instr) (opcode : Nat) (p async : Bool) (tag : BitVec 16) (s : State) (status detail : Nat) : Prop :=
  exec i s = .next (s.withHw ((s.hw.arrived p).answered p opcode tag.toNat async status detail []))

/-- The port may use every opcode now: it owns, the module is at S8, and the life cycle is PROVISIONED, DEPLOYED or SERVICE
(10/R348, Tables 10-8 to 10-17). -/
def Hw.mayAll (h : Hw) (p : Bool) : Prop :=
  h.kz.owner = some p ∧ h.served = true ∧ (h.fuses.lc = 1 ∨ h.fuses.lc = 2 ∨ h.fuses.lc = 3)

end Sys2Proof.Machine
end

