-- ==== Sys2Proof/Certificates/Slice0/Obligations.lean ====
section
/-! DEFINITION. The statements for the provers, family by family. -/

open Sys2Proof Sys2Proof.Machine

/-- O1, A step runs the command at the front of the queue. For every command c, every state s and every rest of the queue, step
of s with c in front of that rest is exec of c on s with the rest as its queue. (95_what_each_step_holds.md) -/
def Obligations.StepRunsFrontCommand : Prop :=
  ∀ (c : Instr) (rest : List Instr) (s : State), step { s with pending := c :: rest } = exec c { s with pending := rest }

/-- O2, Every command answers a next state and leaves the queue of waiting commands as it is (the model's choice, logs 19 and
150). For every command c and every state s, exec of c on s answers a next state whose queue is that of s. That every command
answers a next state, also one for an event that is not due, which leaves the module as it is, and that none faults or
refuses is the model's choice (log 19); so is the queue itself (log 150). (95_what_each_step_holds.md) -/
def Obligations.CommandsLeaveTheQueue : Prop :=
  ∀ (c : Instr) (s : State), ∃ t, exec c s = .next t ∧ t.pending = s.pending

/-- O3, On an empty queue one nanosecond passes (the model's choice, log 2). When the queue is empty, no command waits on a Kezil
port, no takeover waits, no refusal notification is owed and no TIO pin is an output, a step adds one to the elapsed
nanoseconds, adds one to the timebase (modulo 2^64) while its domain is ON and bring-up has passed S2, forgets the input
paths of driven pins and which W1C bits hardware set in the nanosecond that ends, and changes nothing else. That a step on an
empty queue is one nanosecond is the model's choice (log 2), and so is the end of S2 as the moment from which the timebase
counts (log 182). (11_interrupts_timers.md, 02_tempo.md) -/
def Obligations.IdleStep : Prop :=
  ∀ s : State, s.pending = [] → s.hw.kz.portA.cmds = [] → s.hw.kz.portB.cmds = [] → s.hw.kz.portA.current = none →
    s.hw.kz.portB.current = none → s.hw.kz.portA.refused = 0 → s.hw.kz.portB.refused = 0 → s.hw.tio.dir = 0 →
    step s = .next (s.withHw { s.hw with
      elapsed := s.hw.elapsed + 1, risen := []
      tio := { s.hw.tio with paths := [] }
      tb := if s.hw.isOn domTb = true ∧ 2 ≤ s.hw.bring.last then { s.hw.tb with now := (s.hw.tb.now + 1) % 2 ^ 64 } else s.hw.tb })

/-- O4, Every step keeps the canonical form of memory. For every state whose memory is in canonical form (addresses strictly
rising, no listed byte zero), whatever command is in front of the queue, or none, a step that answers a next state leaves
memory in canonical form. (12_memory_banks_psram.md, R406) -/
def Obligations.StepKeepsMemoryForm : Prop :=
  ∀ s t : State, Memory.wf s.hw.banks.mem = true → step s = .next t → Memory.wf t.hw.banks.mem = true

/-- O5, Memory is in canonical form at reset, and lists nothing. At reset memory lists no byte, which is the canonical form, and
no word is poisoned. That a byte reads zero before the first wipe is the model's choice (log 4). (12_memory_banks_psram.md,
R406) -/
def Obligations.ResetMemoryForm : Prop :=
  Memory.wf State.reset.hw.banks.mem = true ∧ State.reset.hw.banks.mem = [] ∧ State.reset.hw.banks.poison = []

/-- O6, Bytes written to memory read back, and no other byte changes. In a memory in canonical form, a write of a list of bytes
at an address reads back byte for byte, every byte outside it reads as before, and a number written as n little-endian bytes
reads back modulo 256^n. (00_scope.md, R10) -/
def Obligations.MemoryReadsBack : Prop :=
  ∀ (m : List Host.Cell) (a : Nat) (bs : List Byte), Memory.wf m = true →
    memReadN (memWriteN m a bs) a bs.length = bs
    ∧ (∀ x, x < a ∨ a + bs.length ≤ x → memRead (memWriteN m a bs) x = memRead m x)
    ∧ (∀ n v, ofLe (memReadN (memWriteN m a (leBytes n v)) a n) = v % 256 ^ n)

/-- O7, Registers after power-on reset. After power-on reset, as the register tables give it: every job slot has a period of
50,000 ns and a lateness bound of 32 sixteenths; DMA_TMO is 100,000; RT_MODULE is 0; CUR is 0, OLD_BUSY and ARMED are 0;
every link port is disabled; FL_FITCFG is 16 and 64; FLT_MAXRST is 8; no port owns the Kezil protocol. No command waits.
(02_tempo.md, 06_event_fabric.md, 07_queues_dma.md, 09_fault_containment.md, 12_memory_banks_psram.md,
13_bringup_identity.md) -/
def Obligations.ResetRegisters : Prop :=
  State.reset.pending = [] ∧ (∀ j : Fin 4, (State.reset.hw.jobOf j).period = 50000 ∧ (State.reset.hw.jobOf j).bound = 32)
    ∧ State.reset.hw.dmaTmo = 100000 ∧ State.reset.hw.rt.moduleId = 0 ∧ State.reset.hw.rt.cur = 0
    ∧ State.reset.hw.rt.oldBusy = false ∧ State.reset.hw.rt.armed = false
    ∧ (∀ n : Fin 6, (State.reset.hw.linkOf n).en = false ∧ (State.reset.hw.linkOf n).up = false)
    ∧ State.reset.hw.fitCrc = 16 ∧ State.reset.hw.fitLane = 64 ∧ State.reset.hw.flt.maxRst = 8
    ∧ State.reset.hw.kz.owner = none

/-- O8, A 64-bit register read by two accesses. For an initiator that 00/R16 tells apart and a 64-bit register that is served:
REG64_LOW_READ answers the low word, latches the high word for that initiator and, but for the marks that a capture takes,
changes nothing else. REG64_HIGH_READ with a latch answers the latched word and releases the latch. Without a latch it
answers the current high word and latches nothing. (R16, R19) -/
def Obligations.HalfReads : Prop :=
  ∀ (ini : Initiator) (a hi : Addr) (v : Nat) (s : State), only64 ini = false → s.hw.reg64 a.toNat = some v →
    s.hw.absentReg a.toNat = false → hi.toNat = a.toNat + 4 → s.hw.absentReg hi.toNat = false →
    (s.hw.regGate a.toNat false = .serve →
      exec (.reg64LowRead ini a) s = .next (s.withHw (((s.hw.lowRead a.toNat).setHalf ini a.toNat
        { (s.hw.halfOf ini a.toNat) with latch := some (v / 2 ^ 32) }).answer (v % 2 ^ 32) stOK)))
    ∧ (s.hw.regGate hi.toNat false = .serve → ∀ x, (s.hw.halfOf ini a.toNat).latch = some x →
      exec (.reg64HighRead ini hi) s = .next (s.withHw ((s.hw.setHalf ini a.toNat
        { (s.hw.halfOf ini a.toNat) with latch := none }).answer x stOK)))
    ∧ (s.hw.regGate hi.toNat false = .serve → (s.hw.halfOf ini a.toNat).latch = none →
      exec (.reg64HighRead ini hi) s = .next (s.withHw (s.hw.answer (v / 2 ^ 32) stOK)))

/-- O9, A 64-bit register written by two accesses. For an initiator that 00/R16 tells apart and a 64-bit register that is served:
REG64_LOW_WRITE only holds the low word for that initiator, in place of one it held. REG64_HIGH_WRITE writes the register
once, with the written high word over the held low word, or over the register's own low word when none is held, and holds
nothing more. (R16) -/
def Obligations.HalfWrites : Prop :=
  ∀ (ini : Initiator) (a hi : Addr) (v : Nat) (w : Word) (s : State), only64 ini = false → s.hw.reg64 a.toNat = some v →
    s.hw.absentReg a.toNat = false → hi.toNat = a.toNat + 4 → s.hw.absentReg hi.toNat = false →
    (s.hw.regGate a.toNat true = .serve →
      exec (.reg64LowWrite ini a w) s = .next (s.withHw ((s.hw.setHalf ini a.toNat
        { (s.hw.halfOf ini a.toNat) with low := some w.toNat }).answer 0 stOK)))
    ∧ (s.hw.regGate hi.toNat true = .serve → ∀ lo, lo = (s.hw.halfOf ini a.toNat).low.getD (v % 2 ^ 32) →
      ∃ h st, (s.hw.setHalf ini a.toNat { (s.hw.halfOf ini a.toNat) with low := none }).regSet64 a.toNat
          (lo + w.toNat * 2 ^ 32) = (h, st)
        ∧ exec (.reg64HighWrite ini hi w) s = .next (s.withHw (h.answer 0 st)))

/-- O10, A write of a register, and of an address that names none. REGISTER_WRITE of 64 bits to a 64-bit register that is served
writes it whole and touches no half-done access: shown for RT_FLIP_AT, whose 50 bits take the value. REGISTER_WRITE of 32
bits to DMA_TMO and to PSC_RTCFG sets the fields that their tables give. A write to an unmapped local address is ignored and
reports BAD_PARAM. (R13, R16, R37, R19) -/
def Obligations.RegisterWrites : Prop :=
  ∀ (ini : Initiator) (v : DWord) (s : State),
    exec (.registerWrite ini (BitVec.ofNat 40 (blockBase 7 + 8)) v true) s
      = .next (s.withHw ((({ s.hw with rt := { s.hw.rt with flipAt := fld v.toNat 49 0 } } : Hw)).answer 0 stOK))
    ∧ (s.hw.isOn domHub = true →
      exec (.registerWrite ini (BitVec.ofNat 40 (blockBase 6 + 0x400)) v false) s
        = .next (s.withHw ((({ s.hw with dmaTmo := if fld v.toNat 23 0 = 0 then s.hw.dmaTmo else fld v.toNat 23 0 } : Hw)).answer 0 stOK)))
    ∧ exec (.registerWrite ini (BitVec.ofNat 40 (blockBase 8 + 0x400)) v false) s
      = .next (s.withHw ((({ s.hw with psc := { s.hw.psc with
          period := if fld v.toNat 15 0 = 0 then s.hw.psc.period else fld v.toNat 15 0
          drift := fld v.toNat 23 16, dtemp := fld v.toNat 31 24 } } : Hw)).answer 0 stOK))
    ∧ (∀ a : Addr, 0x200100000 ≤ a.toNat → exec (.registerWrite ini a v false) s = .next (s.withHw (s.hw.answer 0 stBADPARAM)))

/-- O11, SEQ_TEMPO_PERIOD_WRITE. A write of SEQ_TEMPO_PERIODj is ignored while job j runs and when the value written lies outside
25,000 to 100,000,000; otherwise the period of job j becomes the value, and nothing else changes. (R86) -/
def Obligations.TempoPeriodWrite : Prop :=
  ∀ (ini : Initiator) (j : Fin 4) (v : Word) (s : State),
    ((s.hw.jobOf j).active = true ∨ fld v.toNat 26 0 < 25000 ∨ 100000000 < fld v.toNat 26 0 →
      exec (.seqTempoPeriodWrite ini j v) s = .next (s.withHw (s.hw.answer 0 stOK)))
    ∧ ((s.hw.jobOf j).active = false → 25000 ≤ fld v.toNat 26 0 → fld v.toNat 26 0 ≤ 100000000 →
      exec (.seqTempoPeriodWrite ini j v) s
        = .next (s.withHw ((s.hw.modJob j fun k => { k with period := fld v.toNat 26 0 }).answer 0 stOK)))

/-- O12, SEQ_TEMPO_BOUND_WRITE. A write of a non-zero lateness bound is kept for the next tempo boundary; the bound in force
changes with it only while no job runs in the slot, at once, which is the model's choice (log 41). A write of zero is
ignored. (R87) -/
def Obligations.TempoBoundWrite : Prop :=
  ∀ (ini : Initiator) (j : Fin 4) (v : Word) (s : State),
    (fld v.toNat 15 0 ≠ 0 → ∃ t, exec (.seqTempoBoundWrite ini j v) s = .next t
      ∧ t.hw.jobOf j = { (s.hw.jobOf j) with
          boundNext := fld v.toNat 15 0, bound := if (s.hw.jobOf j).active then (s.hw.jobOf j).bound else fld v.toNat 15 0 }
      ∧ { t.hw with jobs := s.hw.jobs, bus := s.hw.bus } = s.hw)
    ∧ (fld v.toNat 15 0 = 0 → exec (.seqTempoBoundWrite ini j v) s = .next (s.withHw (s.hw.answer 0 stOK)))

/-- O13, SQ_CFG_WRITE. A write of SQ_CFG is refused with BUSY while the square is loaded. Otherwise, in a square without a fenced
slot, the policy becomes bit 0, logical cores 0 to 15 lie in the slots of their own numbers, cores 16 and 17 are present
under ROUTE_AROUND (in p16 and p17) and absent under REMAP, and p18 keeps the shadow role. (R21, R22, R24) -/
def Obligations.SquarePolicyWrite : Prop :=
  ∀ (ini : Initiator) (q : Fin 64) (v : Word) (s : State), s.hw.sqServes q →
    ((s.hw.sqOf q).loaded = true → exec (.sqCfgWrite ini q v) s = .next (s.withHw (s.hw.answer 0 stBUSY)))
    ∧ ((s.hw.sqOf q).loaded = false → (s.hw.sqOf q).slotFence = [] → ∃ t, exec (.sqCfgWrite ini q v) s = .next t
      ∧ (t.hw.sqOf q).policy = v.toNat.testBit 0 ∧ (t.hw.sqOf q).shadow = 18
      ∧ (∀ l : Fin 18, (t.hw.sqOf q).slotFor l = if l.val < 16 ∨ v.toNat.testBit 0 then l.val else 31)
      ∧ { t.hw with sq := s.hw.sq, bus := s.hw.bus } = s.hw)

/-- O14, RELOAD, RULE_RELOAD and RULE_LFSR_WRITE. On a slot whose registers may be written: RELOAD samples the table image at
CORE_TBLBASE and starts its check, or sets the error flag with BUSY while a check runs, or with BAD_PARAM when the image
would pass the end of square memory, or with ABSENT when square memory is OFF (the model's choice, log 152); the flag counts
as set in this cycle (R15). The sampling is shown with the bank group of square memory ON, and with no word that is to be
handed over with bad path parity. RULE_RELOAD does the same for the rule image. RULE_LFSR takes a non-zero value while the
core is in no job and ignores the write otherwise; where the square's control block has no copy pending, the taking of the
value changes nothing else. (R121, R172, R182, R125, R15, R396) -/
def Obligations.ReloadWrites : Prop :=
  ∀ (ini : Initiator) (q : Fin 64) (c : CoreRef) (v : Word) (s : State), s.hw.slotWritable ini q c →
    ∀ p k, p = s.hw.slotNamed q c → k = s.hw.slotOf q p →
    (k.checking = true → exec (.reload ini q c) s
      = .next (s.withHw (((s.hw.modSlot q p fun k => { k with reloadErr := true, errCode := stBUSY }).rise (.core q p) 4).answer 0 stOK)))
    ∧ (k.checking = false → 0x200000 < k.tblBase + tableSize → exec (.reload ini q c) s
      = .next (s.withHw (((s.hw.modSlot q p fun k => { k with reloadErr := true, errCode := stBADPARAM }).rise (.core q p) 4).answer 0 stOK)))
    ∧ (k.checking = false → k.tblBase + tableSize ≤ 0x200000 → s.hw.memOff q = true → exec (.reload ini q c) s
      = .next (s.withHw (((s.hw.modSlot q p fun k => { k with reloadErr := true, errCode := stABSENT }).rise (.core q p) 4).answer 0 stOK)))
    ∧ (k.checking = false → k.tblBase + tableSize ≤ 0x200000 → s.hw.memOff q = false → (s.hw.sqOf q).asleep [19] = [] →
      s.hw.banks.path = [] → exec (.reload ini q c) s
      = .next (s.withHw ((s.hw.modSlot q p fun k => { k with
          checking := true, stagedT := some (s.hw.sampleImage q k.tblBase tableSize).1
          tEcc := (s.hw.sampleImage q k.tblBase tableSize).2 }).answer 0 stOK)))
    ∧ (k.rChecking = true → exec (.ruleReload ini q c) s
      = .next (s.withHw (((s.hw.modSlot q p fun k => { k with rErr := true, rErrCode := stBUSY }).rise (.rule q p) 4).answer 0 stOK)))
    ∧ (k.rChecking = false → 0x200000 < k.ruleBase + ruleSize → exec (.ruleReload ini q c) s
      = .next (s.withHw (((s.hw.modSlot q p fun k => { k with rErr := true, rErrCode := stBADPARAM }).rise (.rule q p) 4).answer 0 stOK)))
    ∧ (k.rChecking = false → k.ruleBase + ruleSize ≤ 0x200000 → s.hw.memOff q = true → exec (.ruleReload ini q c) s
      = .next (s.withHw (((s.hw.modSlot q p fun k => { k with rErr := true, rErrCode := stABSENT }).rise (.rule q p) 4).answer 0 stOK)))
    ∧ (k.rChecking = false → k.ruleBase + ruleSize ≤ 0x200000 → s.hw.memOff q = false → (s.hw.sqOf q).asleep [19] = [] →
      s.hw.banks.path = [] → exec (.ruleReload ini q c) s
      = .next (s.withHw ((s.hw.modSlot q p fun k => { k with
          rChecking := true, stagedR := some (s.hw.sampleImage q k.ruleBase ruleSize).1
          rEcc := (s.hw.sampleImage q k.ruleBase ruleSize).2 }).answer 0 stOK)))
    ∧ (s.hw.inJob q p = false → v ≠ 0 → (∃ t, exec (.ruleLfsrWrite ini q c v) s = .next t ∧ (t.hw.slotOf q p).lfsr = v)
      ∧ ((s.hw.sqOf q).flt.pend.contains .control = false → exec (.ruleLfsrWrite ini q c v) s
        = .next (s.withHw ((s.hw.modSlot q p fun k => { k with lfsr := v }).answer 0 stOK))))
    ∧ (s.hw.inJob q p = true ∨ v = 0 → exec (.ruleLfsrWrite ini q c v) s = .next (s.withHw (s.hw.answer 0 stOK)))

/-- O15, RELOAD_CHECK_DONE and RULE_RELOAD_CHECK_DONE. When the check of a sampled table or rule image ends with OK and no job
runs on the square, the image is in force at once; while a job runs it is pending; when the check fails, the error flag and
code say so and the images in force stay. The check is over in every case. Shown with every bank group that the check reads
settled in ON or OFF and no word that is to be handed over with bad path parity: only the slot changes then, where the
square's control block has no copy pending, and with an error the note that its flag was set in this cycle (R15). (R122,
R123, R172, R15) -/
def Obligations.ReloadChecksEnd : Prop :=
  ∀ (q : Fin 64) (l : Fin 18) (img : Image) (s : State), (s.hw.sqOf q).slotFor l < 19 → s.hw.banks.path = [] →
    ((s.hw.lslot q l).checking = true → (s.hw.lslot q l).stagedT = some img → (s.hw.sqOf q).asleep (groupsRead q (s.hw.tableReads q l)) = [] →
      ∀ st, st = s.hw.reloadStatus q l img (s.hw.lslot q l).tEcc →
      ∀ k, k = { (s.hw.lslot q l) with checking := false, stagedT := none, tEcc := false } →
      (st ≠ stOK → ∃ t, exec (.reloadCheckDone q l) s = .next t ∧ { t.hw with slot := s.hw.slot, risen := s.hw.risen } = s.hw
        ∧ t.hw.risen = (.core q ((s.hw.sqOf q).slotFor l), 4) :: s.hw.risen ∧ t.hw.lslot q l = { k with reloadErr := true, errCode := st })
      ∧ (st = stOK → (s.hw.jobOfSq q).isSome → ∃ t, exec (.reloadCheckDone q l) s = .next t
        ∧ { t.hw with slot := s.hw.slot } = s.hw ∧ t.hw.lslot q l = { k with pendT := some img })
      ∧ (st = stOK → s.hw.jobOfSq q = none → (s.hw.sqOf q).flt.pend.contains .control = false →
        ∃ t, exec (.reloadCheckDone q l) s = .next t ∧ { t.hw with slot := s.hw.slot } = s.hw
          ∧ t.hw.lslot q l = { k with table := some img, pendT := none }))
    ∧ ((s.hw.lslot q l).rChecking = true → (s.hw.lslot q l).stagedR = some img →
      (s.hw.sqOf q).asleep (groupsRead q (s.hw.ruleReads q img.bytes)) = [] →
      ∀ st, st = s.hw.ruleReloadStatus q l img (s.hw.lslot q l).rEcc →
      ∀ k, k = { (s.hw.lslot q l) with rChecking := false, stagedR := none, rEcc := false } →
      (st ≠ stOK → ∃ t, exec (.ruleReloadCheckDone q l) s = .next t ∧ { t.hw with slot := s.hw.slot, risen := s.hw.risen } = s.hw
        ∧ t.hw.risen = (.rule q ((s.hw.sqOf q).slotFor l), 4) :: s.hw.risen ∧ t.hw.lslot q l = { k with rErr := true, rErrCode := st })
      ∧ (st = stOK → (s.hw.jobOfSq q).isSome → ∃ t, exec (.ruleReloadCheckDone q l) s = .next t
        ∧ { t.hw with slot := s.hw.slot } = s.hw ∧ t.hw.lslot q l = { k with pendR := some img })
      ∧ (st = stOK → s.hw.jobOfSq q = none → (s.hw.sqOf q).flt.pend.contains .control = false →
        ∃ t, exec (.ruleReloadCheckDone q l) s = .next t ∧ { t.hw with slot := s.hw.slot } = s.hw
          ∧ t.hw.lslot q l = { k with rule := some img, pendR := none }))

/-- O16, FLIP, RTR_TBL_DATA_WRITE and OLD_EPOCH_DRAINED. FLIP is refused with BUSY while OLD_BUSY or WAIT is set; it waits for
the closure that RT_FLIP_AT names while that job runs; otherwise the other version is in force at once, with OLD_BUSY set and
ARMED clear. RTR_TBL_DATA writes the entry that RTR_TBL_ADDR names in the idle version while OLD_BUSY is 0, is refused with
BUSY for the version in force or while OLD_BUSY is set, and with BAD_PARAM where the address names no entry.
OLD_EPOCH_DRAINED clears OLD_BUSY once no packet of the other version is left. The command FLIP writes RT_EPOCH with ARMED =
0, and a write sets ARMED before it flips, so ARMED is clear also where the flip is refused or waits: the model's choice (log
40), since R215 says that a refused FLIP is ignored. (R214, R215, R495) -/
def Obligations.RouteTables : Prop :=
  ∀ (ini : Initiator) (q : Fin 64) (v : Word) (s : State),
    (s.hw.rt.oldBusy = true ∨ s.hw.rt.wait = true → exec (.flip ini) s
      = .next (s.withHw (({ s.hw with rt := { s.hw.rt with armed := false } } : Hw).answer 0 stBUSY)))
    ∧ (s.hw.rt.oldBusy = false → s.hw.rt.wait = false → (s.hw.jobOf (fld s.hw.rt.flipAt 49 48)).active = true →
      exec (.flip ini) s = .next (s.withHw (({ s.hw with rt := { s.hw.rt with armed := false, wait := true } } : Hw).answer 0 stOK)))
    ∧ (s.hw.rt.oldBusy = false → s.hw.rt.wait = false → (s.hw.jobOf (fld s.hw.rt.flipAt 49 48)).active = false →
      exec (.flip ini) s = .next (s.withHw (({ s.hw with rt := { s.hw.rt with
        cur := 1 - s.hw.rt.cur, oldBusy := true, armed := false, wait := false } } : Hw).answer 0 stOK)))
    ∧ (s.hw.rt.oldBusy = true → s.hw.holdsEpoch (1 - s.hw.rt.cur) = false → exec .oldEpochDrained s
      = .next (s.withHw { s.hw with rt := { s.hw.rt with oldBusy := false } }))
    ∧ ((s.hw.sqOf q).rt.fenced = false → ∀ a, a = (s.hw.rtOf q).tblAddr →
      (tblNames a = false → exec (.rtrTblDataWrite ini q v) s = .next (s.withHw (s.hw.answer 0 stBADPARAM)))
      ∧ (tblNames a = true → tblVer a = s.hw.rt.cur ∨ s.hw.rt.oldBusy = true →
        exec (.rtrTblDataWrite ini q v) s = .next (s.withHw (s.hw.answer 0 stBUSY)))
      ∧ (tblTable a = 0 → tblIndex a ≤ 63 → tblVer a ≠ s.hw.rt.cur → s.hw.rt.oldBusy = false →
        ∃ t, exec (.rtrTblDataWrite ini q v) s = .next t ∧ t.hw.bus = ⟨0, stOK⟩
          ∧ (∀ d : Fin 64, t.hw.sqEntry q (tblVer a) d
              = if d.val = tblIndex a then fld v.toNat 12 0 else s.hw.sqEntry q (tblVer a) d)
          ∧ { t.hw with sq := s.hw.sq, bus := s.hw.bus } = s.hw)
      ∧ (tblTable a = 1 → tblIndex a ≤ 15 → tblVer a ≠ s.hw.rt.cur → s.hw.rt.oldBusy = false →
        ∃ t, exec (.rtrTblDataWrite ini q v) s = .next t ∧ t.hw.bus = ⟨0, stOK⟩
          ∧ (∀ d : Fin 16, t.hw.modEntry q (tblVer a) d
              = if d.val = tblIndex a then fld v.toNat 12 0 else s.hw.modEntry q (tblVer a) d)
          ∧ { t.hw with sq := s.hw.sq, bus := s.hw.bus } = s.hw)
      ∧ (tblTable a = 2 → tblVer a ≠ s.hw.rt.cur → s.hw.rt.oldBusy = false →
        ∃ t, exec (.rtrTblDataWrite ini q v) s = .next t ∧ t.hw.bus = ⟨0, stOK⟩
          ∧ (∀ g : Fin 16384, t.hw.mcEntry q (tblVer a) g
              = if g.val = tblIndex a then fld v.toNat 26 0 else s.hw.mcEntry q (tblVer a) g)
          ∧ { t.hw with sq := s.hw.sq, bus := s.hw.bus } = s.hw))

/-- O17, OL_SLOT_WRITE, FL_CTL_WRITE, CSI_ENABLE, PSC_JRNL_WRITE, RETRAIN and SEQ_RING_WRITE. OL_SLOT_WRITE sets the fields of a
ledger slot that belongs to no running job, and is refused with BUSY otherwise. FL_CTL_WRITE with EN = 1 on an idle port
whose domain is ON starts training. CSI_ENABLE takes the fields of a port that no job has joined when its configuration is
accepted, and leaves the port as it is with BAD_PARAM when it is not, or with BUSY while a job has joined; that an NTILE
above 64 is ignored field by field and that EN is checked against the values of the same write is the model's choice (log
39). PSC_JRNL_WRITE sets the journal size, unless it is outside 1 to 32, and the switches while no job runs, begins an empty
ring with a changed size, and is refused with BUSY otherwise. RETRAIN on a ready channel begins it at once when no channel
retrains or waits to. With no resident task and no square or domain named to be woken by a doorbell but the hub and the
control complex, SEQ_RING_WRITE only sets doorbells, and notes that it did so in this cycle (R15). (R493, R438, R233, R489,
R414, R411, R301, R15) -/
def Obligations.LedgerPortAndCameraWrites : Prop :=
  ∀ (ini : Initiator) (w : Word) (s : State),
    (∀ (n : Fin 4096) (v : DWord), s.hw.isOn domHub = true →
      ((s.hw.jobById (mget {} s.hw.ol n : OlSlot).jobId).isSome →
        exec (.olSlotWrite ini n v) s = .next (s.withHw (s.hw.answer 0 stBUSY)))
      ∧ (s.hw.jobById (mget {} s.hw.ol n : OlSlot).jobId = none →
        ∃ t, exec (.olSlotWrite ini n v) s = .next t ∧ t.hw.bus = ⟨0, stOK⟩
          ∧ (mget {} t.hw.ol n : OlSlot) = { (mget {} s.hw.ol n : OlSlot) with
              expect := v.toNat.testBit 0, src := fld v.toNat 5 1, ssq := fld v.toNat 11 6, smod := fld v.toNat 15 12
              group := fld v.toNat 29 16, jobId := fld v.toNat 63 32 }
          ∧ { t.hw with ol := s.hw.ol, bus := s.hw.bus } = s.hw))
    ∧ (∀ n : Fin 6, w.toNat.testBit 0 = true → s.hw.isOn (domLink n) = true → (s.hw.linkOf n).failed.length < 2 →
      (s.hw.linkOf n).up = false → (s.hw.linkOf n).training = false →
      ∃ t, exec (.flCtlWrite ini n w) s = .next t
        ∧ t.hw.linkOf n = { (s.hw.linkOf n) with jobs := fld w.toNat 7 4, en := true, training := true }
        ∧ { t.hw with link := s.hw.link, bus := s.hw.bus } = s.hw)
    ∧ (∀ n : Fin 8, s.hw.isOn (domCsi n) = true → ∀ v c, v = w.toNat ||| 1 → c = { (s.hw.csiOf n) with
        en := true, lanes := within 0 2 (fld v 2 1) (s.hw.csiOf n).lanes, mode := v.testBit 3, vc := fld v 5 4
        graded := v.testBit 6, ntile := within 0 64 (fld v 13 7) (s.hw.csiOf n).ntile } →
      ((s.hw.csiOf n).joined.isSome → exec (.csiEnable ini n w) s = .next (s.withHw (s.hw.answer 0 stBUSY)))
      ∧ ((s.hw.csiOf n).joined = none → c.configOk = false →
        exec (.csiEnable ini n w) s = .next (s.withHw (s.hw.answer 0 stBADPARAM)))
      ∧ ((s.hw.csiOf n).joined = none → c.configOk = true →
        exec (.csiEnable ini n w) s = .next (s.withHw ((s.hw.modCsi n fun _ => c).answer 0 stOK))))
    ∧ (s.hw.anyJob = true → exec (.pscJrnlWrite ini w) s = .next (s.withHw (s.hw.answer 0 stBUSY)))
    ∧ (s.hw.anyJob = false → ∀ z, z = (if 1 ≤ fld w.toNat 5 0 ∧ fld w.toNat 5 0 ≤ 32 then fld w.toNat 5 0 else s.hw.psc.size) →
      exec (.pscJrnlWrite ini w) s = .next (s.withHw ((({ s.hw with psc := { s.hw.psc with
          size := z, inEn := w.toNat.testBit 6, outEn := w.toNat.testBit 7
          jpage := if z = s.hw.psc.size then s.hw.psc.jpage else 0 } } : Hw)).answer 0 stOK)))
    ∧ (∀ k : Fin 16, s.hw.isOn (domPsc (k / 2)) = true → (s.hw.chanOf k).state = 0 → s.hw.psc.queue = [] →
      (∀ i : Fin 16, (s.hw.chanOf i).state ≠ 2) → exec (.retrain ini k) s
        = .next (s.withHw ((s.hw.modChan k fun c => { c with state := 2, began := s.hw.elapsed }).answer 0 stOK)))
    ∧ (s.hw.seq.tasks = [] → s.hw.bud.wakeSq = [] → mget 0x3000000 s.hw.bud.wakeDom 1 = 0 → exec (.seqRingWrite ini w) s
      = .next (s.withHw (((({ s.hw with seq := { s.hw.seq with dbPend := s.hw.seq.dbPend ||| w.toNat } } : Hw).rise .dbPend w.toNat).rise
          .ring (w.toNat &&& s.hw.seq.dbPend)).answer 0 stOK)))

/-- O18, IRC_DOORBELL, IRC_ACK, IRC_EOI, CLRP and IRC_HOLDOFF_END. A doorbell for a source that is not reserved, from an
initiator that may write it, makes the source pending, or sets AGAIN when it is pending already, while the control complex is
ON; in another state it is latched, and wakes the control complex where its group says so. That every state but a settled ON
counts as such a state is the model's choice (log 36), and so is which initiators count as units (log 44). An initiator that
is no unit and writes a number below 480 is refused with BAD_PARAM, and BAD_DB is set with the number. A reserved source only
sets BAD_DB with the source. IRC_ACK without a presentable source answers bit 9; with one it answers a presentable source of
the lowest priority number, the lowest source number among equals, and its priority, makes it active instead of pending and
puts it on the target's stack. IRC_EOI of the source on top of the stack takes it off and ends its active state; of any other
source it sets EOI_ERR. CLRP by a control core takes away the pending state. The end of a hold-off lets the group's sources
through again. BAD_DB, EOI_ERR and the AGAIN of a pending source count as set in this cycle (R15). (R370, R371, R372, R373,
R374, R377, R15) -/
def Obligations.InterruptDelivery : Prop :=
  ∀ (ini : Initiator) (tg : Fin 4) (n : Fin 512) (pri : Fin 16) (en : Bool) (g : Fin 32) (s : State),
    (srcReserved n = false → isUnit ini = true ∨ 480 ≤ n.val → s.hw.isOn domCtrl = true → exec (.ircDoorbell ini tg n) s
      = .next (s.withHw (((s.hw.modSrc n fun k =>
          if k.pend then { k with again := true } else { k with pend := true }).rise (.again n) (if (s.hw.srcOf n).pend then 2 ^ 7 else 0)).answer 0 stOK)))
    ∧ (srcReserved n = false → isUnit ini = true ∨ 480 ≤ n.val → s.hw.isOn domCtrl = false →
      ∀ h : Hw, h = { s.hw with irc := { s.hw.irc with latch := sins s.hw.irc.latch n } } → exec (.ircDoorbell ini tg n) s
        = .next (s.withHw ((if (s.hw.grpOf (n / 16)).wake = true then h.wakeDom domCtrl else h).answer 0 stOK)))
    ∧ (isUnit ini = false → n.val < 480 → exec (.ircDoorbell ini tg n) s
      = .next (s.withHw ((({ s.hw with irc := { s.hw.irc with badDb := true, lastBad := n } } : Hw).rise .badDb 1).answer 0 stBADPARAM)))
    ∧ (srcReserved n = true → isUnit ini = true ∨ 480 ≤ n.val → exec (.ircDoorbell ini tg n) s
      = .next (s.withHw ((({ s.hw with irc := { s.hw.irc with badDb := true, lastBad := n } } : Hw).rise .badDb 1).answer 0 stOK)))
    ∧ (s.hw.isOn domCtrl = true → (∀ m, s.hw.presentable tg m = false) →
      exec (.ircAck ini tg) s = .next (s.withHw (s.hw.answer (2 ^ 9) stOK)))
    ∧ (s.hw.isOn domCtrl = true → ∀ m, s.hw.presentable tg m = true →
      ∃ t b, exec (.ircAck ini tg) s = .next t ∧ s.hw.presentable tg b = true
        ∧ (∀ x, s.hw.presentable tg x = true →
          (s.hw.srcOf b).pri ≤ (s.hw.srcOf x).pri ∧ ((s.hw.srcOf x).pri = (s.hw.srcOf b).pri → b ≤ x))
        ∧ t.hw.bus = ⟨b + (s.hw.srcOf b).pri * 2 ^ 10, stOK⟩
        ∧ t.hw.srcOf b = { (s.hw.srcOf b) with pend := false, act := true, atgt := tg }
        ∧ t.hw.irc.stack tg = (b, (s.hw.srcOf b).pri) :: s.hw.irc.stack tg
        ∧ { t.hw with irc := s.hw.irc, bus := s.hw.bus } = s.hw)
    ∧ (s.hw.isOn domCtrl = true → ∀ p rest, s.hw.irc.stack tg = (n.val, p) :: rest →
      ∃ t, exec (.ircEoi ini tg n) s = .next t ∧ t.hw.irc.stack tg = rest
        ∧ t.hw.srcOf n = { (s.hw.srcOf n) with act := false }
        ∧ { t.hw with irc := s.hw.irc, bus := s.hw.bus } = s.hw)
    ∧ (s.hw.isOn domCtrl = true → (∀ p rest, s.hw.irc.stack tg ≠ (n.val, p) :: rest) → exec (.ircEoi ini tg n) s
      = .next (s.withHw ((({ s.hw with irc := { s.hw.irc with eoiErr := sins s.hw.irc.eoiErr tg } } : Hw).rise (.eoi tg) (2 ^ 20)).answer 0 stOK)))
    ∧ (s.hw.isOn domCtrl = true → ∀ c, ini = .core c → exec (.clrp ini n pri en) s
      = .next (s.withHw ((s.hw.modSrc n fun k => { k with pri := pri, en := en, pend := false }).answer 0 stOK)))
    ∧ (s.hw.groupHeld g = false → exec (.ircHoldoffEnd g) s
      = .next (s.withHw (s.hw.modGrp g fun k => { k with heldUntil := none })))

/-- O19, TC_COUNT_EVENT. A count event of an enabled TC with SRC = 0, 2^PRE cycles after the one before it, with its gate open,
the timebase domain ON and no write of the count in the same cycle, steps the count by one, or to 0 when RELOAD = 1 and the
step before it matched. A step into the compare value sets MATCH, and a step from 0xFFFF_FFFF to 0 sets OVF. The level that
the TC drives toggles on a match with OUT = 1, is set by a match and cleared by a step to 0 with OUT = 2, and stays with OUT
= 0. An edge that was recorded in the same cycle takes the count after the step. A flag that the step sets counts as set in
this cycle (R15). In the cycle of a write of the count it takes no step. The interval of 2^PRE cycles is counted from the
last count event, a write of the configuration or the rise of EN, which is the model's choice (log 155), as is what a step
does with RELOAD = 1 and a compare value of 0, and with OUT = 2 in a step to 0 that matches (log 47). With MATCH, OVF and
wake interrupts off, no other unit changes. (R378, R381, R382, R386, R383, R15) -/
def Obligations.TimerCounts : Prop :=
  ∀ (n : Fin 16) (s : State), ∀ k, k = s.hw.tcOf n → k.en = true → k.srcEdges = false → k.gateOpen s.hw.tio.level = true →
    s.hw.isOn domTb = true → k.tickAt + 2 ^ k.cf 4 1 ≤ s.hw.elapsed →
    (k.quietAt = some s.hw.elapsed → exec (.tcCountEvent n) s
      = .next (s.withHw (s.hw.modTc n fun k => { k with tickAt := k.tickAt + 2 ^ k.cf 4 1 })))
    ∧ (k.quietAt ≠ some s.hw.elapsed → ∀ c : Word, c = (if k.cf 23 23 = 1 ∧ k.matched = true then 0 else k.cnt + 1) →
    ∃ t, exec (.tcCountEvent n) s = .next t ∧ (t.hw.tcOf n).cnt = c ∧ (t.hw.tcOf n).matched = (c == k.cmp)
      ∧ (t.hw.tcOf n).matchF = (k.matchF || c == k.cmp)
      ∧ (t.hw.tcOf n).ovf = (k.ovf || (k.cnt == 0xFFFFFFFF && c == 0))
      ∧ (k.cf 25 24 = 0 → (t.hw.tcOf n).outLvl = k.outLvl)
      ∧ (k.cf 25 24 = 1 → (t.hw.tcOf n).outLvl = (if c = k.cmp then !k.outLvl else k.outLvl))
      ∧ (k.cf 25 24 = 2 → (t.hw.tcOf n).outLvl = (if c = k.cmp then true else if c = 0 then false else k.outLvl))
      ∧ (k.cf 27 27 = 0 → k.cf 28 28 = 0 → k.cf 26 26 = 0 → { t.hw with tc := s.hw.tc, risen := s.hw.risen } = s.hw)
      ∧ t.hw.rose (.tc n) = (s.hw.rose (.tc n) ||| (if c = k.cmp then 1 else 0) ||| (if k.cnt = 0xFFFFFFFF ∧ c = 0 then 2 else 0))
      ∧ (k.lastEdge = none ∨ k.edgeAt ≠ some s.hw.elapsed → (t.hw.tcOf n).lastEdge = k.lastEdge ∧ (t.hw.tcOf n).pair = k.pair)
      ∧ (k.edgeAt = some s.hw.elapsed → (t.hw.tcOf n).lastEdge = k.lastEdge.map (fun e => (e.1, e.2.1, c))))

/-- O20, CLEAR, TC_CNT_WRITE, TC_CMP_WRITE, TC_CAP_READ and TIO_EDGE. While the timebase domain is ON: CLEAR sets the count to 0
and drops the held pair and its marks; TC_CNT_WRITE sets the count and never matches; neither lets a step of its own cycle
count, and an edge recorded in that cycle takes the count written; TC_CMP_WRITE sets the compare value; TC_CAP_READ answers
the held pair and takes its marks. An edge is recognised once its new level has held for FILT + 1 samples, and on an output
pin only where it is the driven level; otherwise nothing changes. A recognised edge sets the level of its pin; every enabled
TC that counts such edges of the pin with its gate open steps, but in the cycle of a write of its count; then every TC that
captures on the pin takes the edge, and no other TC changes. A write to TC_STATUS clears the flags at whose places it has a
1, but for one that hardware has set in the same cycle (R15). That CLEAR keeps the captured edge and clears the mark that the
last step matched is the model's choice (log 47), and so is the count interval that starts again with EN (log 155). While the
domain is not ON, the edge is caught in TC_TIOLATCH and source 230 is signalled. (R379, R380, R381, R383, R384, R387, R15,
R386) -/
def Obligations.TimerRegistersAndEdges : Prop :=
  ∀ (ini : Initiator) (n pin : Fin 16) (en lvl : Bool) (k : Nat) (v : Word) (s : State),
    (s.hw.isOn domTb = true → exec (.clear ini n en) s = .next (s.withHw ((s.hw.modTc n fun k => ({ k with
        tickAt := if k.en = false ∨ k.tickAt + 2 ^ k.cf 4 1 = s.hw.elapsed then s.hw.elapsed else k.tickAt
        quietAt := some s.hw.elapsed, en := en, cnt := 0, outLvl := false, matched := false, pair := none, unread := false, overrun := false : Tc }).recount s.hw.elapsed).answer 0 stOK)))
    ∧ (s.hw.isOn domTb = true → exec (.tcCntWrite ini n v) s
      = .next (s.withHw ((s.hw.modTc n fun k => ({ k with
          cnt := v, matched := false, quietAt := some s.hw.elapsed
          tickAt := if k.tickAt + 2 ^ k.cf 4 1 = s.hw.elapsed then s.hw.elapsed else k.tickAt : Tc }).recount s.hw.elapsed).answer 0 stOK)))
    ∧ (s.hw.isOn domTb = true → ∀ w : DWord, ∀ x, x = s.hw.rose (.tc n) →
      exec (.registerWrite ini (BitVec.ofNat 40 (blockBase 2 + 0x40 * n + 8)) w false) s = .next (s.withHw ((s.hw.modTc n fun k => { k with
        matchF := k.matchF && (!(w.toNat.testBit 0) || x.testBit 0), ovf := k.ovf && (!(w.toNat.testBit 1) || x.testBit 1)
        cap := k.cap && (!(w.toNat.testBit 2) || x.testBit 2) }).answer 0 stOK)))
    ∧ (s.hw.isOn domTb = true → exec (.tcCmpWrite ini n v) s
      = .next (s.withHw ((s.hw.modTc n fun k => { k with cmp := v }).answer 0 stOK)))
    ∧ (s.hw.isOn domTb = true → exec (.tcCapRead ini n true) s = .next (s.withHw ((s.hw.modTc n fun k => { k with
        infoNew := k.unread, infoOverrun := k.overrun, unread := false, overrun := false }).answer
          (match (s.hw.tcOf n).pair with | some (r, f) => r.toNat + f.toNat * 2 ^ 32 | none => 0) stOK)))
    ∧ (k ≤ s.hw.tio.filt ∨ s.hw.tioDriven pin = some (!lvl) → exec (.tioEdge pin lvl k) s = .next s)
    ∧ (s.hw.isOn domTb = true → s.hw.tio.filt < k → s.hw.tioDriven pin ≠ some (!lvl) → s.hw.tio.level.contains pin.val ≠ lvl →
      ∃ t, exec (.tioEdge pin lvl k) s = .next t ∧ t.hw.tio = { s.hw.tio with level := sput s.hw.tio.level pin lvl }
        ∧ (∀ (m : Fin 16) (x y : Tc), x = s.hw.tcOf m →
          y = (if x.srcEdges = true ∧ x.cf 8 5 = pin.val ∧ edgeSel (x.cf 10 9) lvl = true ∧ x.en = true
              ∧ x.gateOpen (sput s.hw.tio.level pin lvl) = true ∧ x.quietAt ≠ some s.hw.elapsed
            then x.step.1.recount s.hw.elapsed else x) →
          t.hw.tcOf m = if y.cf 22 22 = 1 ∧ y.cf 20 17 = pin.val then (y.capture s.hw.elapsed lvl).1 else y))
    ∧ (s.hw.isOn domTb = false → s.hw.tio.filt < k → s.hw.tio.level.contains pin.val ≠ lvl → exec (.tioEdge pin lvl k) s
      = .next (s.withHw ((({ s.hw with tio := { s.hw.tio with
          level := sput s.hw.tio.level pin lvl
          latchRise := if lvl then sins s.hw.tio.latchRise pin else s.hw.tio.latchRise
          latchFall := if lvl then s.hw.tio.latchFall else sins s.hw.tio.latchFall pin } } : Hw).rise
            .tioLatch (2 ^ (if lvl then pin.val else 16 + pin.val))).irq 230)))

/-- O21, TIME_REF_PRESENT, TIME_REF_LOST, TIMEBASE_PLL_LOCK, PPS_EDGE, PPS_ABSENT, TIMEBASE_SLEW_TICK, TB_SET_WRITE and
TB_PPS_READ. The reference becomes present and the PLL begins to lock; its loss takes a LOCKED or DISCIPLINED timebase to
HOLDOVER and signals source 228; the lock takes it to LOCKED. A PPS edge within half a second of the one before it is refused
and marked (its mark, and that of a lost reference, count as set in this cycle, R15); an accepted one captures the timebase
and the phase error from the nearest whole second, and the first one, with steps off and a FREE timebase, changes nothing
else but the slew target and the count of good edges; more than 1.5 s without one, measured on the time that has passed,
which is the model's choice (log 48), end the presence of PPS, and DISCIPLINED with it. A slew tick, 10^6 / SLEW cycles after
the target was set or the one before it, which is the model's choice (log 156), holds the count for one cycle or advances it
by two, and is shown where every pin is an input; an earlier one changes nothing. TB_SET sets the count while no job runs and
the timebase is not DISCIPLINED, and is refused with BUSY otherwise. A read of TB_PPS answers the captured value and takes
its marks. (R389, R390, R391, R392, R393, R15, R18) -/
def Obligations.TimebaseDiscipline : Prop :=
  ∀ (ini : Initiator) (v : DWord) (s : State),
    (exec .timeRefPresent s = .next (s.withHw { s.hw with tb := { s.hw.tb with refPresent := true, locking := true } }))
    ∧ (s.hw.tb.refPresent = true → s.hw.tb.state = .locked ∨ s.hw.tb.state = .disciplined → exec .timeRefLost s
      = .next (s.withHw ((({ s.hw with tb := { s.hw.tb with
          refPresent := false, locking := false, lockLost := true, goodEdges := 0, state := .holdover } } : Hw).rise .timebase 16).irq 228)))
    ∧ (s.hw.tb.refPresent = true → s.hw.tb.locking = true → s.hw.tb.state = .free ∨ s.hw.tb.state = .holdover →
      exec .timebasePllLock s = .next (s.withHw (({ s.hw with tb := { s.hw.tb with
        locking := false, state := .locked } } : Hw).irq 228)))
    ∧ (s.hw.isOn domTb = true → s.hw.tb.prevPps = none → s.hw.tb.stepEn = false → s.hw.tb.state = .free →
      exec .ppsEdge s = .next (s.withHw { s.hw with tb := { s.hw.tb with
        ppsValue := s.hw.tb.now, ppsOverrun := s.hw.tb.ppsOverrun || s.hw.tb.ppsUnread, ppsUnread := true
        err := phaseErr s.hw.tb.now, slewLeft := phaseErr s.hw.tb.now, slewAt := s.hw.elapsed, prevPps := some s.hw.tb.now
        lastPpsAt := some s.hw.elapsed
        goodEdges := if (phaseErr s.hw.tb.now).natAbs ≤ s.hw.tb.tol * 10 then s.hw.tb.goodEdges + 1 else 0 } }))
    ∧ (s.hw.isOn domTb = true → (∀ x, s.hw.tb.prevPps = some x → x + 500000000 ≤ s.hw.tb.now) → ∃ t, exec .ppsEdge s = .next t
      ∧ t.hw.tb.ppsValue = s.hw.tb.now ∧ t.hw.tb.err = phaseErr s.hw.tb.now ∧ t.hw.tb.ppsUnread = true
      ∧ t.hw.tb.ppsOverrun = (s.hw.tb.ppsOverrun || s.hw.tb.ppsUnread) ∧ t.hw.tb.lastPpsAt = some s.hw.elapsed)
    ∧ (s.hw.isOn domTb = true → ∀ x, s.hw.tb.prevPps = some x → s.hw.tb.now < x + 500000000 → exec .ppsEdge s
      = .next (s.withHw ((({ s.hw with tb := { s.hw.tb with ppsBad := true } } : Hw).rise .timebase 32).irq 229)))
    ∧ (∀ x, s.hw.tb.lastPpsAt = some x → x + 1500000000 < s.hw.elapsed → s.hw.tb.state = .disciplined →
      exec .ppsAbsent s = .next (s.withHw (({ s.hw with tb := { s.hw.tb with
        ppsPresent := false, prevPps := none, goodEdges := 0, lastPpsAt := none, state := .locked } } : Hw).irq 228)))
    ∧ (∀ x, s.hw.tb.lastPpsAt = some x → x + 1500000000 < s.hw.elapsed → s.hw.tb.state ≠ .disciplined →
      exec .ppsAbsent s = .next (s.withHw { s.hw with tb := { s.hw.tb with
        ppsPresent := false, prevPps := none, goodEdges := 0, lastPpsAt := none } }))
    ∧ ((s.hw.elapsed - s.hw.tb.slewAt) * s.hw.tb.slew < 1000000 → exec .timebaseSlewTick s = .next s)
    ∧ (s.hw.isOn domTb = true → s.hw.tio.dir = 0 → 0 < s.hw.tb.slewLeft → 1000000 ≤ (s.hw.elapsed - s.hw.tb.slewAt) * s.hw.tb.slew →
      exec .timebaseSlewTick s = .next (s.withHw { s.hw with
        elapsed := s.hw.elapsed + 1, risen := [], tio := { s.hw.tio with paths := [] }
        tb := { s.hw.tb with slewAt := s.hw.elapsed, slewLeft := s.hw.tb.slewLeft - 1 } }))
    ∧ (s.hw.isOn domTb = true → s.hw.tio.dir = 0 → s.hw.tb.slewLeft < 0 → 1000000 ≤ (s.hw.elapsed - s.hw.tb.slewAt) * s.hw.tb.slew →
      exec .timebaseSlewTick s = .next (s.withHw { s.hw with
        elapsed := s.hw.elapsed + 1, risen := [], tio := { s.hw.tio with paths := [] }
        tb := { s.hw.tb with slewAt := s.hw.elapsed, slewLeft := s.hw.tb.slewLeft + 1, now := (s.hw.tb.now + 2) % 2 ^ 64 } }))
    ∧ (s.hw.isOn domTb = true → s.hw.anyJob = false → s.hw.tb.state ≠ .disciplined → exec (.tbSetWrite ini v true) s
      = .next (s.withHw (({ s.hw with tb := { s.hw.tb with
          now := v.toNat, setLast := v.toNat, prevPps := none } } : Hw).answer 0 stOK)))
    ∧ (s.hw.isOn domTb = true → s.hw.anyJob = true ∨ s.hw.tb.state = .disciplined →
      exec (.tbSetWrite ini v true) s = .next (s.withHw (s.hw.answer 0 stBUSY)))
    ∧ (s.hw.isOn domTb = true → exec (.tbPpsRead ini true) s = .next (s.withHw (({ s.hw with tb := { s.hw.tb with
        infoNew := s.hw.tb.ppsUnread, infoOverrun := s.hw.tb.ppsOverrun, ppsUnread := false, ppsOverrun := false } } : Hw).answer
          s.hw.tb.ppsValue stOK)))

/-- O22, ROPEN, RCLOSE, SOPEN, SCLOSE, START and STOP. On a core that is present in a square that serves: ROPEN opens a queue
under the next generation with every slot invalid, and announces it to a bound sender. RCLOSE closes it and keeps its slots;
a RECV that waits on it for a slot ends with CLOSED. SOPEN on a channel with an announcement waiting opens it under that
generation with 256 credits; without one it answers CLOSED and changes nothing else. SCLOSE closes a channel. Where no
program runs, START reads the image and, when it passes its checks, runs it from word 0 with zero registers and F clear (a
bank group of square memory in RETAIN is ON again then, R396, within the same command, which is the model's choice, log 152);
when not, it sets the error flag with the code of the check, which counts as set in this cycle (R15), and signals the
square's source; where square memory is OFF, it does so with ABSENT, the model's choice of how an access to a bank in OFF
ends a program (log 196). STOP ends a running program and signals that source. (R242, R248, R252, R253, R254, R15, R396) -/
def Obligations.QueueEnds : Prop :=
  ∀ (ini : Initiator) (q : Fin 64) (l : Fin 18) (i : Fin 4) (s : State), s.hw.coreServes q l →
    ((s.hw.queueOf q l i).bound = false → exec (.ropen ini q l i) s
      = .next (s.withHw ((s.hw.modQueue q l i fun k => { k with
          gen := (k.gen + 1) % 256, valid := [], rptr := 0, freed := 0, open_ := true }).answer 0 stOK)))
    ∧ ((s.hw.queueOf q l i).bound = true → exec (.ropen ini q l i) s
      = .next (s.withHw (((s.hw.modQueue q l i fun k => { k with
          gen := (k.gen + 1) % 256, valid := [], rptr := 0, freed := 0, open_ := true }).injectAt q
            [mkQstat s.hw (s.hw.queueOf q l i).smod (s.hw.queueOf q l i).ssq (s.hw.queueOf q l i).score l stOK (4 * l + i)
              (((s.hw.queueOf q l i).gen + 1) % 256) 0]).answer 0 stOK)))
    ∧ ((∀ d off, (s.hw.cpOf q l).wait ≠ some (.recv i d off)) → exec (.rclose ini q l i) s
      = .next (s.withHw ((s.hw.modQueue q l i fun k => { k with open_ := false }).answer 0 stOK)))
    ∧ (∀ d off, (s.hw.cpOf q l).wait = some (.recv i d off) → (s.hw.cpOf q l).pc + 1 < (s.hw.cpOf q l).len →
      (s.hw.queueOf q l i).valid.contains (s.hw.queueOf q l i).rptr = false → exec (.rclose ini q l i) s
        = .next (s.withHw (((s.hw.modQueue q l i fun k => { k with open_ := false }).modCp q l fun p => { p with
            w := mset p.w d 0x11, f := false, wait := none, pc := p.pc + 1 }).answer 0 stOK)))
    ∧ ((s.hw.sendOf q l i).rvalid = true → exec (.sopen ini q l i) s
      = .next (s.withHw ((s.hw.modSend q l i fun k => { k with
          gen := k.rgen, wptr := 0, credits := 256, rej := 0, rvalid := false, open_ := true }).answer 0 stOK)))
    ∧ ((s.hw.sendOf q l i).rvalid = false → exec (.sopen ini q l i) s
      = .next (s.withHw ((s.hw.modSend q l i fun k => k).answer 0 stCLOSED)))
    ∧ (exec (.sclose ini q l i) s
      = .next (s.withHw ((s.hw.modSend q l i fun k => { k with open_ := false }).answer 0 stOK)))
    ∧ ((s.hw.cpOf q l).run = false → s.hw.memOff q = true → exec (.start ini q l) s
      = .next (s.withHw ((((s.hw.modCp q l fun p => { p with
          run := false, wait := none, err := true, errCode := stABSENT }).rise (.cp q l) (2 ^ 10)).irq (96 + q)).answer 0 stOK)))
    ∧ ((s.hw.cpOf q l).run = false → s.hw.memKept q → ∀ ws, ws = s.hw.cpWords q (s.hw.cpOf q l).base →
      s.hw.poisoned (sqMem q + (s.hw.cpOf q l).base) (Nat.min (32 + 4 * ws.length) (0x200000 - (s.hw.cpOf q l).base)) = false →
      (cpCheck (s.hw.cpOf q l).base ws = stOK → exec (.start ini q l) s
        = .next (s.withHw (((s.hw.memAwake q).modCp q l fun p => { p with
            run := true, pc := 0, w := [], f := false, len := ws.length, wait := none }).answer 0 stOK)))
      ∧ (cpCheck (s.hw.cpOf q l).base ws ≠ stOK → exec (.start ini q l) s
        = .next (s.withHw (((((s.hw.memAwake q).modCp q l fun p => { p with
            run := false, wait := none, err := true, errCode := cpCheck (s.hw.cpOf q l).base ws }).rise (.cp q l) (2 ^ 10)).irq (96 + q)).answer 0 stOK))))
    ∧ ((s.hw.cpOf q l).run = true → exec (.stop ini q l) s
      = .next (s.withHw (((s.hw.modCp q l fun p => { p with run := false, wait := none }).irq (96 + q)).answer 0 stOK)))

/-- O23, SEND, RECV, SEND_TIMEOUT and RECV_TIMEOUT. A SEND on an open channel that holds a credit and no rejection, in a square
that may issue, spends the credit, advances the write pointer, puts one QUEUE packet with the 16 readable bytes at the
address behind the packets that wait to be injected, and writes 0; without a credit it waits with the CP_TMO of now; on a
channel with a rejection it writes its code; on a closed one it writes CLOSED. A RECV whose slot is valid and readable copies
its 16 bytes to an address that a host write may use, frees the slot, returns credit by a QSTAT when 16 slots are freed or
the queue was full or is now empty, and writes 0; without a valid slot it waits on an open queue, and writes CLOSED on a
closed one. A SEND that waits past CP_TMO writes FULL, a RECV TIMEOUT. A SEND or RECV that issues brings a bank group of
square memory in RETAIN to ON again (R396; that it is ON within the same command is the model's choice, log 152). Shown while
words remain after the present one; nothing else changes. (R246, R249, R250, R251, R396, R18) -/
def Obligations.MessagesMove : Prop :=
  ∀ (q : Fin 64) (l : Fin 18) (u : Uop) (off : Nat) (s : State), (s.hw.cpOf q l).pc + 1 < (s.hw.cpOf q l).len →
    ∀ (done : Hw → Nat → Nat → Hw), done = (fun h d st => h.modCp q l fun p => { p with
      w := mset p.w d (st : Int), f := st == 0, wait := none, pc := p.pc + 1 }) →
    (s.hw.issues q l u →
      cpAddr (operand (s.hw.cpConsts q (s.hw.cpOf q l).base) ⟨(s.hw.cpOf q l).w, (s.hw.cpOf q l).f⟩ u.a) 16 = some off →
      ∀ c d, c = fld u.im 1 0 → d = u.d.toNat →
      (u.op = .send → ∀ k, k = s.hw.sendOf q l c →
        (k.open_ = true → k.rej = 0 → s.hw.mayIssue q = true → 0 < k.credits → s.hw.poisoned (sqMem q + off) 16 = false →
          exec (.send q l) s = .next (s.withHw (done (((s.hw.memAwake q).injectAt q
            [{ mkQueue s.hw k.dmod k.dsq (4 * k.dcore + k.dq) k.wptr k.gen l (s.hw.rdN (sqMem q + off) 16) with
              home := some q.val }]).modSend q l c
            fun k => { k with credits := k.credits - 1, wptr := (k.wptr + 1) % 256 }) d stOK)))
        ∧ (k.open_ = true → k.rej = 0 → k.credits = 0 → exec (.send q l) s
          = .next (s.withHw ((s.hw.memAwake q).modCp q l fun p => { p with
              wait := some (.send c d off), waitAt := ((s.hw.sqOf q).account s.hw.elapsed).clock, waitN := p.tmo })))
        ∧ (k.open_ = true → k.rej ≠ 0 → exec (.send q l) s = .next (s.withHw (done (s.hw.memAwake q) d k.rej)))
        ∧ (k.open_ = false → exec (.send q l) s = .next (s.withHw (done (s.hw.memAwake q) d stCLOSED))))
      ∧ (u.op = .recv → ∀ k, k = s.hw.queueOf q l c →
        (k.valid.contains k.rptr = true → s.hw.hostWriteOk q (0x3000000 + off) = true →
          s.hw.poisoned (sqMem q + k.buf * 4096 + 16 * k.rptr) 16 = false →
          ∀ h, h = ((s.hw.memAwake q).wrWhole (sqMem q + off) (s.hw.rd (sqMem q + k.buf * 4096 + 16 * k.rptr) 16)).modQueue
            q l c (fun k => { k with valid := sdel k.valid k.rptr, rptr := (k.rptr + 1) % 256, freed := k.freed + 1 }) →
          (k.freed + 1 ≠ 16 → sdel k.valid k.rptr ≠ [] → k.valid.length ≠ 256 → exec (.recv q l) s
            = .next (s.withHw (done h d stOK)))
          ∧ (k.freed + 1 = 16 ∨ sdel k.valid k.rptr = [] ∨ k.valid.length = 256 → exec (.recv q l) s
            = .next (s.withHw (done ((h.injectAt q
                [mkQstat s.hw k.smod k.ssq k.score l stOK (4 * l + c) k.gen (k.freed + 1)]).modQueue q l c
                  fun k => { k with freed := 0 }) d stOK))))
        ∧ (k.valid.contains k.rptr = false → k.open_ = true → exec (.recv q l) s
          = .next (s.withHw ((s.hw.memAwake q).modCp q l fun p => { p with
              wait := some (.recv c d off), waitAt := ((s.hw.sqOf q).account s.hw.elapsed).clock, waitN := p.tmo })))
        ∧ (k.valid.contains k.rptr = false → k.open_ = false → exec (.recv q l) s
          = .next (s.withHw (done (s.hw.memAwake q) d stCLOSED)))))
    ∧ (∀ c d, (s.hw.cpOf q l).wait = some (.send c d off) → s.hw.cpExpired q l = true →
      exec (.sendTimeout q l) s = .next (s.withHw (done s.hw d stFULL)))
    ∧ (∀ c d, (s.hw.cpOf q l).wait = some (.recv c d off) → s.hw.cpExpired q l = true →
      exec (.recvTimeout q l) s = .next (s.withHw (done s.hw d stTIMEOUT)))

/-- O24, ADD, SUB, MUL, SHR, SHL, MIN, MAX, ABS, NEG, MOV and LDI in a controller program. When the program of a core issues one
of these micro-ops with its predicate true and words remain, register D takes the exact result, saturated to 24 bits signed,
the program goes on to the next word, and nothing else changes but that a bank group of square memory in RETAIN is ON again.
(R101, R102, R103, R104, R252) -/
def Obligations.ArithmeticMicroOps : Prop :=
  ∀ (q : Fin 64) (l : Fin 18) (u : Uop) (s : State), s.hw.issues q l u → (s.hw.cpOf q l).pc + 1 < (s.hw.cpOf q l).len →
    ∀ (r : Regs) (a b : Int) (n : Nat), r = ⟨(s.hw.cpOf q l).w, (s.hw.cpOf q l).f⟩ →
      a = operand (s.hw.cpConsts q (s.hw.cpOf q l).base) r u.a → b = operand (s.hw.cpConsts q (s.hw.cpOf q l).base) r u.b →
      n = fld u.im 4 0 →
    ∀ x ∈ [(Op.add, Instr.opAdd q l, a + b), (.sub, .opSub q l, a - b),
        (.mul, .opMul q l, if u.im.testBit 5 then Int.tdiv (a * b) (2 ^ n) else Int.fdiv (a * b) (2 ^ n)),
        (.shr, .opShr q l, Int.fdiv a (2 ^ n)), (.shl, .opShl q l, a * 2 ^ n), (.min, .opMin q l, min a b),
        (.max, .opMax q l, max a b), (.abs, .opAbs q l, (a.natAbs : Int)), (.neg, .opNeg q l, -a), (.mov, .opMov q l, a),
        (.ldi, .opLdi q l, u.imm.toInt)],
      u.op = x.1 → exec x.2.1 s = .next (s.withHw ((s.hw.memAwake q).modCp q l fun p => { p with
        w := mset p.w u.d.toNat (max (-8388608) (min 8388607 x.2.2)), pc := p.pc + 1 }))

/-- O25, NOP, CMPGE, CMPLT, CMPEQ, CMPNZ, JMP, END, LDW and STW in a controller program. Issued with the predicate true: END ends
the program, whichever word it is, and signals the square's source. While words remain: NOP only goes on; a compare writes F;
JMP goes to the word IMM[7:0]; LDW loads the low 24 bits, sign-extended, of the readable word at A + 4 × IMM; STW stores B as
32 bits at A + 4 × IMM where a host write may store. A micro-op whose predicate is false only goes on, but for END. Nothing
else changes but that a bank group of square memory in RETAIN is ON again. While square memory is OFF, a micro-op ends the
program with ABSENT, its error flag counting as set in this cycle (R15), which is the model's choice (log 196). (R101, R103,
R252, R254, R15) -/
def Obligations.OtherMicroOps : Prop :=
  ∀ (q : Fin 64) (l : Fin 18) (s : State),
    (s.hw.cpReady q l = true → s.hw.memOff q = true →
      ∀ i ∈ [Instr.opNop q l, .opAdd q l, .opSub q l, .opMul q l, .opShr q l, .opShl q l, .opMin q l, .opMax q l, .opAbs q l,
        .opNeg q l, .opMov q l, .opLdi q l, .opCmpge q l, .opCmplt q l, .opCmpeq q l, .opCmpnz q l, .opJmp q l, .opLdw q l,
        .opStw q l, .opEnd q l, .send q l, .recv q l],
      exec i s = .next (s.withHw (((s.hw.modCp q l fun p => { p with
        run := false, wait := none, err := true, errCode := stABSENT }).rise (.cp q l) (2 ^ 10)).irq (96 + q))))
    ∧ ∀ u : Uop, s.hw.present q l u →
    (u.op = .fin → exec (.opEnd q l) s
      = .next (s.withHw (((s.hw.memAwake q).modCp q l fun p => { p with run := false }).irq (96 + q))))
    ∧ ((s.hw.cpOf q l).pc + 1 < (s.hw.cpOf q l).len →
    ∀ (r : Regs) (a b : Int) (go : (Prog → Prog) → Host.Outcome State Fault Refusal),
      r = ⟨(s.hw.cpOf q l).w, (s.hw.cpOf q l).f⟩ →
      a = operand (s.hw.cpConsts q (s.hw.cpOf q l).base) r u.a → b = operand (s.hw.cpConsts q (s.hw.cpOf q l).base) r u.b →
      go = (fun f => .next (s.withHw ((s.hw.memAwake q).modCp q l f))) →
    (u.holds r.f = true →
      (u.op = .nop → exec (.opNop q l) s = go fun p => { p with pc := p.pc + 1 })
      ∧ (∀ x ∈ [(Op.cmpge, Instr.opCmpge q l, decide (b ≤ a)), (.cmplt, .opCmplt q l, decide (a < b)),
          (.cmpeq, .opCmpeq q l, decide (a = b)), (.cmpnz, .opCmpnz q l, decide (a ≠ 0))],
        u.op = x.1 → exec x.2.1 s = go fun p => { p with f := x.2.2, pc := p.pc + 1 })
      ∧ (u.op = .jmp → exec (.opJmp q l) s = go fun p => { p with pc := fld u.im 7 0 })
      ∧ (u.op = .ldw → ∀ off, cpAddr (a + 4 * (fld u.im 10 0 : Nat)) 4 = some off → s.hw.poisoned (sqMem q + off) 4 = false →
        exec (.opLdw q l) s = go fun p => { p with
          w := mset p.w u.d.toNat (sext 24 (s.hw.rdN (sqMem q + off) 4)), pc := p.pc + 1 })
      ∧ (u.op = .stw → ∀ off, cpAddr (a + 4 * (fld u.im 10 0 : Nat)) 4 = some off →
        s.hw.hostWriteOk q (0x3000000 + off) = true → s.hw.poisoned (sqMem q + off) 4 = false →
        exec (.opStw q l) s = .next (s.withHw (((s.hw.memAwake q).modCp q l fun p => { p with pc := p.pc + 1 }).wr
          (sqMem q + off) (leBytes 4 (toField 32 b))))))
    ∧ (u.holds r.f = false → ∀ x ∈ [(Op.nop, Instr.opNop q l), (.add, .opAdd q l), (.sub, .opSub q l), (.mul, .opMul q l),
        (.shr, .opShr q l), (.shl, .opShl q l), (.min, .opMin q l), (.max, .opMax q l), (.abs, .opAbs q l),
        (.neg, .opNeg q l), (.mov, .opMov q l), (.ldi, .opLdi q l), (.cmpge, .opCmpge q l), (.cmplt, .opCmplt q l),
        (.cmpeq, .opCmpeq q l), (.cmpnz, .opCmpnz q l), (.jmp, .opJmp q l), (.ldw, .opLdw q l), (.stw, .opStw q l),
        (.send, .send q l), (.recv, .recv q l)],
      u.op = x.1 → exec x.2 s = go fun p => { p with pc := p.pc + 1 }))

/-- O26, Decoding the word of a micro-op gives the micro-op, and encoding a decoded word gives the word. For every opcode and
every value of PRED, D, A, B and IMM, decoding the 32-bit word of the micro-op gives it back with every field; every word
whose OP field is an opcode of the tables is the word of exactly the micro-op it decodes to; and a word decodes to nothing
exactly when its OP field is none of those of Tables 3-8 and 7-4. (R100, R103, 03_neuron_core.md) -/
def Obligations.MicroOpWordsRoundTrip : Prop :=
  (∀ u : Uop, uopDecode (uopEncode u) = some u)
    ∧ (∀ (w : Word) (u : Uop), uopDecode w = some u → uopEncode u = w)
    ∧ (∀ w : Word, uopDecode w = none ↔ ∀ o : Op, opCode o ≠ w.extractLsb' 26 6)

/-- O27, The 512 bits of a link frame read back as the frame. For every frame of at most two packets whose SEQ, ACK, CREDIT, CTRL
and packet AGE lie in their fields, and whose packets carry no mark of this module, the 512 bits fit the frame, carry a
correct CRC and read back as the frame with every field and both packets. (R192, R231, 06_event_fabric.md) -/
def Obligations.LinkFramesRoundTrip : Prop :=
  ∀ f : Frame, f.pkts.length ≤ 2 → f.seq < 4096 → f.ack < 4096 → f.credit < 256 → f.ctrl < 2 ^ 24 →
    (∀ p ∈ f.pkts, p.age < 32 ∧ p.link = none ∧ p.home = none ∧ p.mark = .plain) → f.bits < 2 ^ 512 ∧ frameOf f.bits = some f

/-- O28, WRITE_PACKET, READ_PACKET and FENCE_PACKET. The memory agent takes the first packet of the type from the inbox. Where
the access is served and parity is correct: a WRITE to square memory that host writes may reach, of a WID that refuses
nothing, stores its 16 bytes and adds one to the count of its WID (no FENCE held); a READ of square memory whose words are
readable and carry correct path parity answers one data RESP to its requester with the 16 bytes, and one that sees a word
with wrong path parity answers PARITY (no running job on the square); a FENCE whose count has been reached is answered with
the status of its WID, whose count it lowers and whose notes it clears, and one whose count has not is held (no other FENCE
held, no row load of the WID). Nothing else changes. (R198, R199, R306, R37) -/
def Obligations.PacketsAreServed : Prop :=
  ∀ (q : Fin 64) (p : Packet) (rest : List InEntry) (s : State), p.parOk = true →
    ∀ a off, off = p.addr * 16 → a = winBase q + off → ∀ h, h = s.hw.modSq q (fun k => { k with inbox := rest, wdogCount := 0 }) →
    (takeType tyWRITE (s.hw.sqOf q).inbox = some (p, rest) → p.ty = tyWRITE → regionOf off = .mem → h.gate q off = .serve →
      h.hostWriteOk q off = true → (s.hw.sqOf q).fences = [] → (mget {} (s.hw.sqOf q).wid p.wid : WidState).refused = false →
      exec (.writePacket q) s = .next (s.withHw ((h.wrWhole a (leBytes 16 p.pay.toNat)).modWid q p.wid
        fun w => { w with count := (w.count + 1) % 65536 })))
    ∧ (takeType tyREAD (s.hw.sqOf q).inbox = some (p, rest) → p.ty = tyREAD → regionOf off = .mem → h.gate q off = .serve →
      ∀ seen, ((h.seenFind q seen = none → s.hw.poisoned a 16 = false → exec (.readPacket q seen) s = .next (s.withHw
        (h.injectAt q [mkRespData s.hw (p.y 19 16) (p.y 25 20) (p.y 47 26) (s.hw.rd a 16)])))
      ∧ (∀ f, h.seenFind q seen = some f → f.det = 0x04 → h.jobOfSq q = none → exec (.readPacket q seen) s = .next (s.withHw
        ((h.jobFault { f with job := none, sq := some q.val }).injectAt q
          [mkRespStatus s.hw (p.y 19 16) (p.y 25 20) (p.y 47 26) (p.y 55 48) stPARITY])))))
    ∧ (takeType tyFENCE (s.hw.sqOf q).inbox = some (p, rest) → p.ty = tyFENCE → h.gate q 0x3840000 = .serve →
      (s.hw.rtOf q).state = .normal → (s.hw.sqOf q).fences = [] → mfind (s.hw.sqOf q).rowLoads p.wid = none →
      ∀ w : WidState, w = mget {} (s.hw.sqOf q).wid p.wid →
      (p.y 15 0 ≤ w.count → exec (.fencePacket q) s = .next (s.withHw ((h.injectAt q
        [mkRespStatus s.hw (p.y 19 16) (p.y 25 20) (p.y 47 26) (p.y 55 48) w.status]).modWid q p.wid
          fun _ => { count := w.count - p.y 15 0 })))
      ∧ (w.count < p.y 15 0 → exec (.fencePacket q) s = .next (s.withHw (h.modSq q fun k => { k with fences := [p] }))))

/-- O29, QUEUE_PACKET, QSTAT_PACKET, RESP_PACKET and INBOX_WATCHDOG. Taken where the access is served: a QUEUE packet with
correct parity from the bound sender, of the queue's generation, to an invalid slot of an open queue on which no RECV waits,
stores its 16 bytes in the slot and makes it valid; a QSTAT with status OK and FREED above 0 for the generation of an open
channel on which no SEND waits adds the credits, at most 256, and so for every channel of the core whose configuration it
names; one that names no core of a square changes no channel; a data RESP for square memory that host writes may reach is
written at its landing address; a status RESP is only taken. The inbox watchdog that reaches its limit with a packet that
could be taken puts the router into SINK. (R245, R247, R219, R198) -/
def Obligations.QueuePacketsArrive : Prop :=
  ∀ (q : Fin 64) (p : Packet) (rest : List InEntry) (s : State), p.parOk = true →
    ∀ h, h = s.hw.modSq q (fun k => { k with inbox := rest, wdogCount := 0 }) →
    (takeType tyQUEUE (s.hw.sqOf q).inbox = some (p, rest) → p.ty = tyQUEUE → ∀ l i k slot, l = fld p.addr 14 8 / 4 →
      i = fld p.addr 14 8 % 4 → k = s.hw.queueOf q l i → slot = fld p.addr 7 0 →
      h.gate q (0x3000000 + k.buf * 4096 + 16 * slot) = .serve → (s.hw.rtOf q).state = .normal → l < 18 →
      (s.hw.sqOf q).slotFor l < 19 → k.bound = true → p.src = k.score → k.open_ = true → p.qgen = k.gen →
      k.valid.contains slot = false → (∀ d off, (s.hw.cpOf q l).wait ≠ some (.recv i d off)) →
      exec (.queuePacket q) s = .next (s.withHw ((h.wrWhole (sqMem q + k.buf * 4096 + 16 * slot) (leBytes 16 p.pay.toNat)).modQueue
        q l i fun k => { k with valid := sins k.valid slot })))
    ∧ (takeType tyQSTAT (s.hw.sqOf q).inbox = some (p, rest) → p.ty = tyQSTAT → h.gate q 0x3840000 = .serve →
      ∀ l, l = p.addr % 32 → (18 ≤ l → exec (.qstatPacket q) s = .next (s.withHw h)) ∧ (l < 18 → ∀ c k, s.hw.chansFor q l p.src (p.y 14 8) = [c] → k = s.hw.sendOf q l c → p.y 7 0 = 0 →
      p.y 31 24 ≠ 0 → k.open_ = true → k.gen = p.y 23 16 → (∀ d off, (s.hw.cpOf q l).wait ≠ some (.send c d off)) →
      exec (.qstatPacket q) s = .next (s.withHw (h.modSend q l c fun k => { k with
        rgen := p.y 23 16, credits := min 256 (k.credits + p.y 31 24) })))
      ∧ (l < 18 → p.y 7 0 = 0 → p.y 31 24 ≠ 0 → (∀ c d off, (s.hw.cpOf q l).wait ≠ some (.send c d off)) →
        ∃ t, exec (.qstatPacket q) s = .next t ∧ ∀ c ∈ s.hw.chansFor q l p.src (p.y 14 8), (s.hw.sendOf q l c).open_ = true →
          (s.hw.sendOf q l c).gen = p.y 23 16 → t.hw.sendOf q l c = { (s.hw.sendOf q l c) with
            rgen := p.y 23 16, credits := min 256 ((s.hw.sendOf q l c).credits + p.y 31 24) }))
    ∧ ((edgeHub q = true → (s.hw.rtOf q).edgeOut = []) → takeType tyRESP (s.hw.sqOf q).inbox = some (p, rest) → p.ty = tyRESP →
      (p.last = false → regionOf (p.addr * 16) = .mem → h.gate q (p.addr * 16) = .serve → h.hostWriteOk q (p.addr * 16) = true →
        exec (.respPacket q) s = .next (s.withHw (h.wrWhole (winBase q + p.addr * 16) (leBytes 16 p.pay.toNat))))
      ∧ (p.last = true → exec (.respPacket q) s = .next (s.withHw h)))
    ∧ (wdogLimit ≤ (s.hw.sqOf q).wdogCount → (s.hw.sqOf q).anyTakeable = true →
      ∃ t, exec (.inboxWatchdog q) s = .next t ∧ (t.hw.rtOf q).state = .sink)

/-- O30, PACKET_INJECT, ROUTE_CYCLE and SQUARE_ABSENT. In a square without an edge packet to inject, the head of a router's
injection queue, with AGE 0 and the version in force, leaves on the output of its route set with the least occupancy among
those that are free: the neighbour behind it holds the packet in its input latch, and the queue moves up. A spine cycle of a
board whose routers hold no packet ages the histories and turns the tie order; a packet alone on the board leaves its latch
for that of the neighbour on the free output of its route set with the least occupancy. A draining square that owes nothing
becomes absent (shown while no task is in the list). (R201, R204, R213, R228) -/
def Obligations.PacketsTravel : Prop :=
  (∀ (q : Fin 64) (p p' : Packet) (rest : List Packet) (o n : Nat) (s : State), (s.hw.rtOf q).edgeIn = [] →
      (s.hw.rtOf q).inject = p :: rest → (s.hw.rtOf q).fenced = false → p' = s.hw.fromSource p → p'.hdrOk = true →
      ¬(p'.dmod = s.hw.rt.moduleId ∧ p'.dsq = q.val) → s.hw.routeSet q p' ≠ 0 →
      (s.hw.rtOf q).leastOcc ((s.hw.freeOuts q p').filter fun o => (s.hw.routeSet q p').testBit o) = some o → o < 4 →
      neighbour q o = some n → ∃ t, exec (.packetInject q) s = .next t
        ∧ mfind (t.hw.rtOf n).latch (facing o) = some p' ∧ p'.age = 0 ∧ p'.epoch = s.hw.rt.cur % 2
        ∧ (t.hw.rtOf q).inject ++ (t.hw.rtOf q).packer = rest ++ (s.hw.rtOf q).packer ∧ (t.hw.rtOf q).outFree o = false
        ∧ (∀ x, x ≠ q.val → x ≠ n → t.hw.rtOf x = s.hw.rtOf x) ∧ { t.hw with sq := s.hw.sq } = s.hw)
    ∧ (∀ s : State, (∀ x : Fin 64, (s.hw.rtOf x).repl = []) → ∀ h : Hw, h = { s.hw with
        sq := s.hw.sq.map fun x => (x.1, { x.2 with rt := x.2.rt.beginCycle })
        rt := { s.hw.rt with tie := (s.hw.rt.tie + 1) % 4 } } →
      ((∀ x : Fin 64, (s.hw.rtOf x).latch = []) → ∃ t, exec .routeCycle s = .next t
        ∧ (∀ x : Fin 64, t.hw.rtOf x = (s.hw.rtOf x).beginCycle) ∧ { t.hw with sq := s.hw.sq } = { s.hw with rt := h.rt })
      ∧ (∀ (y : Fin 64) (b : Fin 4) (p : Packet) (o n : Nat), (∀ x : Fin 64, x ≠ y → (s.hw.rtOf x).latch = []) →
        (s.hw.rtOf y).latch = [(b.val, p)] → (s.hw.rtOf y).fenced = false → p.hdrOk = true →
        ¬(p.dmod = s.hw.rt.moduleId ∧ p.dsq = y.val) → h.routeSet y p ≠ 0 →
        (h.rtOf y).leastOcc ((h.freeOuts y p).filter fun o => (h.routeSet y p).testBit o) = some o → o < 4 →
        neighbour y o = some n → ∃ t, exec .routeCycle s = .next t ∧ (t.hw.rtOf n).latch = [(facing o, p)]
          ∧ (t.hw.rtOf y).latch = [] ∧ (t.hw.rtOf y).outFree o = false))
    ∧ (∀ (q : Fin 64) (s : State), (s.hw.rtOf q).state = .draining → s.hw.owesNothing q = true → s.hw.seq.tasks = [] →
      ∃ t, exec (.squareAbsent q) s = .next t ∧ (t.hw.rtOf q).state = .absent)

/-- O31, LINK_FRAME_TX, LINK_FRAME_RX, LINK_UP, LINK_RESEND_LIMIT, LINK_SILENCE_TIMEOUT and LINK_TRAINING_REQUEST. On a link that
is up, LINK_FRAME_TX resends the frame whose turn it is, with the acknowledgement of now, which is the model's choice (log
59); else, unless 256 frames await acknowledgement, it sends a frame with the next SEQ, the last accepted SEQ as ACK, the
credits owed and the next CTRL, with the packet that waits at an attachment square and spends a credit or, when none waits,
without one, and keeps it for replay. LINK_FRAME_RX of a frame with a wrong CRC counts one error and owes a NAK; of one out
of sequence owes a NAK; an accepted frame without CTRL is acknowledged, gives its credits, drops the frames up to the one its
ACK names, queues its packet, with the mark that the command gives for its first packet, the header of a ROWLOAD descriptor
or one 4-byte access (log 169), at the attachment square with the shorter queue, which is the model's choice (log 57), and
with NAK resends the replay buffer. LINK_UP brings an enabled port that trains and has at most one failed lane up with 512
credits, SEQ 0 and an empty replay buffer, signals it and notifies both ports; with two failed lanes the attempt ends with
cause 3. Eight resends of one frame that waits, or more than 2 µs without an accepted frame while frames wait, take the link
down with cause 1 or 2; a training request of an enabled, usable port takes it down and trains it, and keeps its CAUSE, which
is the model's choice (log 61). A link that goes down with no running job marked loses its replay buffer, is signalled,
notified and recorded, and its event bit counts as set in this cycle (R15). (R229, R231, R232, R233, R237, R437, R438, R15,
R18) -/
def Obligations.LinkPortsMoveFrames : Prop :=
  ∀ (n : Fin 6) (first second : PacketMark) (s : State), ∀ l, l = s.hw.linkOf n →
    (l.up = true →
      (∀ i f, l.resendAt = some i → l.replay[i]? = some f → exec (.linkFrameTx n) s = .next (s.withHw (s.hw.modLink n fun l => { l with
          lastSent := some { f with ack := l.lastRx, nak := l.nakOwed }, nakOwed := false, ackOwed := false
          retry := min 0xFFFFFFFF (l.retry + 1), resends := bump l.resends i
          resendAt := if i + 1 < l.replay.length then some (i + 1) else none })))
      ∧ (l.resendAt = none → 256 ≤ l.replay.length → exec (.linkFrameTx n) s
        = .next (s.withHw (s.hw.modLink n fun l => { l with resendAt := none })))
      ∧ (l.resendAt = none → l.replay.length < 256 → ∀ (sent : List Packet → Hw → Hw),
        sent = (fun ps h => h.modLink n fun m => { m with
          lastSent := some { nak := l.nakOwed, seq := l.nextSeq, ack := l.lastRx, credit := min 255 l.creditOwed, ctrl := l.ctrlQ.headD 0, pkts := ps }
          nextSeq := (l.nextSeq + 1) % 4096, nakOwed := false, ackOwed := false, creditOwed := l.creditOwed - min 255 l.creditOwed
          ctrlQ := l.ctrlQ.drop 1, lastOk := if l.replay = [] then s.hw.elapsed else l.lastOk
          replay := l.replay ++ [{ nak := l.nakOwed, seq := l.nextSeq, ack := l.lastRx, credit := min 255 l.creditOwed, ctrl := l.ctrlQ.headD 0, pkts := ps }] }) →
        ((∀ x ∈ portSquares n, (s.hw.rtOf x).edgeOut = []) → exec (.linkFrameTx n) s = .next (s.withHw (sent [] s.hw)))
        ∧ (∀ x ∈ portSquares n, ∀ p, (s.hw.rtOf x).edgeOut = [p] → (∀ y ∈ portSquares n, y ≠ x → (s.hw.rtOf y).edgeOut = []) →
          p.parOk = true → 0 < l.credits → exec (.linkFrameTx n) s = .next (s.withHw (sent [p]
            ((s.hw.modRt x fun r => { r with edgeOut := [] }).modLink n fun l => { l with credits := l.credits - 1 }))))))
    ∧ (∀ v : BitVec 512, l.up = true → frameOf v.toNat = none → exec (.linkFrameRx n v (first, second)) s
      = .next (s.withHw (s.hw.modLink n fun l => { l with
          crcErr := min 0xFFFFFFFF (l.crcErr + 1), fitNow := min 65535 (l.fitNow + 1), nakOwed := true })))
    ∧ (∀ (v : BitVec 512) (f : Frame), l.up = true → frameOf v.toNat = some f → f.seq ≠ (l.lastRx + 1) % 4096 →
      exec (.linkFrameRx n v (first, second)) s = .next (s.withHw (s.hw.modLink n fun l => { l with nakOwed := true })))
    ∧ (∀ (v : BitVec 512) (f : Frame), l.up = true → frameOf v.toNat = some f → f.seq = (l.lastRx + 1) % 4096 → f.ctrl = 0 →
      ∀ m, m = { l with lastRx := f.seq, lastOk := s.hw.elapsed, ackOwed := true, credits := min 512 (l.credits + f.credit) } →
      (f.pkts = [] → f.nak = false → (∀ g ∈ l.replay, g.seq ≠ f.ack) →
        exec (.linkFrameRx n v (first, second)) s = .next (s.withHw (s.hw.modLink n fun _ => m)))
      ∧ (f.pkts = [] → f.nak = false → l.resendAt = none → ∀ a g b, l.replay = a ++ g :: b → g.seq = f.ack → (∀ x ∈ a, x.seq ≠ f.ack) →
        exec (.linkFrameRx n v (first, second)) s = .next (s.withHw (s.hw.modLink n fun _ => { m with
          replay := b, resends := l.resends.drop (a.length + 1) })))
      ∧ (f.pkts = [] → f.nak = true → l.replay ≠ [] → (∀ g ∈ l.replay, g.seq ≠ f.ack) →
        exec (.linkFrameRx n v (first, second)) s = .next (s.withHw (s.hw.modLink n fun _ => { m with resendAt := some 0 })))
      ∧ (∀ p, f.pkts = [p] → f.nak = false → (∀ g ∈ l.replay, g.seq ≠ f.ack) → ∃ x ∈ portSquares n,
        (∀ y ∈ portSquares n, (s.hw.rtOf x).edgeIn.length ≤ (s.hw.rtOf y).edgeIn.length)
        ∧ exec (.linkFrameRx n v (first, second)) s = .next (s.withHw ((s.hw.modLink n fun _ => m).modRt x fun r => { r with
          edgeIn := r.edgeIn ++ [{ p with link := some n.val, mark := first }] }))))
    ∧ (l.up = false → l.en = true → l.training = true → s.hw.isOn (domLink n) = true → 2 ≤ l.failed.length →
      exec (.linkUp n) s = .next (s.withHw (s.hw.modLink n fun l => { l with training := false, cause := 3 })))
    ∧ (l.up = false → l.en = true → l.training = true → s.hw.isOn (domLink n) = true → l.failed.length < 2 → ∀ m, m = { l with
        up := true, training := false, credits := 512, nextSeq := 0, replay := [], resendAt := none, resends := []
        lastRx := 4095, nakOwed := false, ackOwed := false, creditOwed := 0, ctrlQ := [], lastOk := s.hw.elapsed, lastSent := none } →
      exec (.linkUp n) s = .next (s.withHw (((s.hw.modLink n fun _ => m).irq (192 + n)).noteBoth
        ⟨0x0B, 0, n, s.hw.tb.now, m.status, []⟩)))
    ∧ (l.up = true → l.resends.any (8 ≤ ·) = true → l.replay ≠ [] →
      exec (.linkResendLimit n) s = .next (s.withHw (s.hw.linkDown n 1)))
    ∧ (l.up = true → l.replay ≠ [] → l.lastOk + 2000 < s.hw.elapsed →
      exec (.linkSilenceTimeout n) s = .next (s.withHw (s.hw.linkDown n 2)))
    ∧ (l.en = true → l.failed.length < 2 → exec (.linkTrainingRequest n) s
      = .next (s.withHw ((s.hw.linkDown n l.cause).modLink n fun l => { l with training := true })))
    ∧ (∀ c, (∀ j : Fin 4, (s.hw.jobOf j).active = true → l.jobs.testBit j = false) → ∀ m, m = { l with
        up := false, downEvt := l.downEvt || l.up, cause := if l.up then c else l.cause, credits := 0, replay := []
        resendAt := none, resends := [], nakOwed := false, ackOwed := false, lastSent := none, training := false } →
      s.hw.linkDown n c = (if l.up then ((((s.hw.modLink n fun _ => m).rise (.link n) 4).irq (192 + n)).noteBoth
        ⟨0x0B, 0, n, s.hw.tb.now, m.status, []⟩).faultRecord { det := 0x0E, status := stCLOSEMM, detail := n }
        else s.hw.modLink n fun _ => m))

/-- O32, LANE_FAIL, GO, LANE_RETRAIN_DONE, LANE_RETRAIN_TIMEOUT, LANE_ERROR_WINDOW and LINK_TRAINING_TIMEOUT. A failing active
lane with a spare moves to the spare and sets the port's sticky bit; without a spare it takes the link down with cause 3. GO
on a link that is up with a spare and no retrain running moves the logical lane to the spare and retrains the freed lane;
otherwise it is refused with BUSY; that GO on a link that is not up is refused as well is the model's choice (log 61). The
same retrain begins when a logical lane shows at least LANE_LIMIT errors in a window; while a retrain runs, triggers wait,
and the first of them begins the next retrain of a link that is up when the one in progress has passed and left a spare. A
retrain that ends well while no other trigger waits sets PASSED and gives the spare back; one that fails, or has not ended
within 2 ms, marks the freed lane as failed and signals; PASSED and FAILED count as set in this cycle (R15). A port that gets
no answer within 20 ms stops training. (R230, R437, R439, R440, R15, R18) -/
def Obligations.LanesMove : Prop :=
  ∀ (ini : Initiator) (n : Fin 6) (i : Fin 4) (x : Fin 5) (s : State), ∀ l, l = s.hw.linkOf n →
    (∀ k, firstOf [0, 1, 2, 3] (fun j => l.laneOf j == x.val) = some k →
      (∀ p, l.spare = some p → exec (.laneFail n x) s
        = .next (s.withHw ((s.hw.modLink n fun l => { l with
            failed := sins l.failed x, lane := mset l.lane k p, spareUsed := true }).stick1 (2 ^ n.val))))
      ∧ (l.spare = none → exec (.laneFail n x) s
        = .next (s.withHw (((s.hw.modLink n fun l => { l with failed := sins l.failed x }).stick1 (2 ^ n.val)).linkDown n 3))))
    ∧ (l.rtRun = true ∨ l.spare = none ∨ l.up = false → ∃ t, exec (.go ini n i) s = .next t ∧ t.hw.bus = ⟨0, stBUSY⟩
      ∧ (∀ m, t.hw.linkOf m = s.hw.linkOf m) ∧ { t.hw with link := s.hw.link, bus := s.hw.bus } = s.hw)
    ∧ (∀ p, l.spare = some p → l.up = true → ∀ k, k = { l with
        rtRun := true, rtLane := i.val, rtPhys := l.laneOf i, rtAt := s.hw.elapsed, lane := mset l.lane i p, spareUsed := true } →
      (∃ t, exec (.go ini n i) s = .next t ∧ t.hw.bus = ⟨0, stOK⟩ ∧ t.hw.linkOf n = k
        ∧ (∀ m, m ≠ n.val → t.hw.linkOf m = s.hw.linkOf m) ∧ { t.hw with link := s.hw.link, bus := s.hw.bus } = s.hw)
      ∧ (∀ e, s.hw.fitLane ≤ e → exec (.laneErrorWindow n i e) s = .next (s.withHw (s.hw.modLink n fun _ => k))))
    ∧ (l.rtRun = true → l.rtWait = [] → exec (.laneRetrainDone n true) s
      = .next (s.withHw ((s.hw.modLink n fun l => { l with rtRun := false, rtOk := true, spareUsed := false }).rise (.retrain n) 16)))
    ∧ (l.rtRun = true → l.rtWait = [] → ∀ h, h = (((s.hw.modLink n fun l => { l with
          rtRun := false, rtFail := true, failed := sins l.failed l.rtPhys, spareUsed := true }).rise (.retrain n) 32).stick1 (2 ^ n.val)).irq (192 + n) →
      exec (.laneRetrainDone n false) s = .next (s.withHw h)
      ∧ (l.rtAt + 2000000 < s.hw.elapsed → exec (.laneRetrainTimeout n) s = .next (s.withHw h)))
    ∧ (l.rtRun = true → l.up = true → l.rtWait.contains i.val = false → ∀ e, s.hw.fitLane ≤ e → exec (.laneErrorWindow n i e) s
      = .next (s.withHw (s.hw.modLink n fun l => { l with rtWait := l.rtWait ++ [i.val] })))
    ∧ (l.rtRun = true → l.up = true → ∀ j rest m, l.rtWait = j :: rest →
      m = { l with rtRun := false, rtOk := true, spareUsed := false, rtWait := rest } → ∀ p, m.spare = some p →
      exec (.laneRetrainDone n true) s = .next (s.withHw ((s.hw.modLink n fun _ => { m with
        rtRun := true, rtLane := j, rtPhys := m.laneOf j, rtAt := s.hw.elapsed, lane := mset m.lane j p, spareUsed := true }).rise (.retrain n) 16)))
    ∧ (s.hw.inStage 7 = true → s.hw.trains n = true → s.hw.bring.began + 20000000 < s.hw.elapsed →
      exec (.linkTrainingTimeout n) s
        = .next (s.withHw { s.hw with bring := { s.hw.bring with noPartner := sins s.hw.bring.noPartner n } }))

/-- O33, INPUT_CUTOFF and JOB_RELEASE. When the timebase has reached the cutoff of the input tempo of a released job, the next
tempo takes input; where that starts the running tempo, its start is the later of its cutoff and the done before it. The
release of a job that waits for it (its fire records readable, no output event held for its first record) sets the origin to
the release less T0 periods and makes T0 the running and the input tempo. (R49, R68, R52) -/
def Obligations.TemposBegin : Prop :=
  ∀ (j : Fin 4) (s : State), ∀ k, k = s.hw.jobOf j → k.active = true → k.restart = none →
    (k.released = true → k.origin + ((k.inTempo * k.period : Nat) : Int) ≤ (s.hw.tb.now : Int) →
      (∃ t, exec (.inputCutoff j) s = .next t ∧ (t.hw.jobOf j).inTempo = k.inTempo + 1)
      ∧ (k.started = true → k.injected = true → exec (.inputCutoff j) s
        = .next (s.withHw (s.hw.modJob j fun k => { k with inTempo := k.inTempo + 1 })))
      ∧ (k.started = false → k.phase = 1 → k.inTempo = k.tempo → ∃ t, exec (.inputCutoff j) s = .next t
        ∧ (t.hw.jobOf j).started = true
        ∧ (t.hw.jobOf j).sT = max (toField 64 (k.origin + ((k.tempo * k.period : Nat) : Int))) k.dPrev))
    ∧ (k.released = false → k.initCopy = false → k.startAt ≤ s.hw.tb.now → k.outHeld = [] →
      (∀ x l p, k.mask.testBit x = true → s.hw.sramAt x (.fire l p) = none) → ∃ t, exec (.jobRelease j) s = .next t
      ∧ (t.hw.jobOf j).released = true
      ∧ (t.hw.jobOf j).origin = (s.hw.tb.now : Int) - ((k.t0 * k.period : Nat) : Int)
      ∧ (t.hw.jobOf j).tempo = k.t0 ∧ (t.hw.jobOf j).inTempo = k.t0 ∧ (t.hw.jobOf j).sT = s.hw.tb.now
      ∧ (t.hw.jobOf j).dPrev = s.hw.tb.now ∧ (t.hw.jobOf j).active = true)

/-- O34, GLOBAL_CLOSURE and GLOBAL_DONE, and the record that an update writes. When global closure is due for a job that holds no
output event and whose squares hold no packet, copy no snapshot unit, have no permanent shadow and pass every check of what
they see, and whose cores, with their tables in force, have no unit due, no modulation to make and readable words, its
squares update: every core with a table begins its update with an empty fire record and an empty due bitmap of the tempo, and
the lateness bound of the tempos that start later is fixed. When done is due in a tempo that is no snapshot tempo and not the
last one, no control block of the job waits to be copied and no Kezil command waits, the next tempo runs under that bound,
and the done is noted. In such a closure a due neuron that is no member of a pair, whose record is readable and pending in no
snapshot, is updated so: its program starts with the decayed membrane plus the rescaled sum of the slot (T + 1) mod 8 in W0,
that sum in W1, the refractory count less the tempos since the last touch in W2 and the decayed trace in W3; the record then
holds W0, W2 clamped to 0 to 15 and W3 clamped to 0 to 255, T mod 65,536 and 0 in that slot, and its channel, its model and
the other slots as before; its fire is noted with its value; and, where it is no sample of the shadow core, no byte of memory
outside the record changes. The sweep touch writes the decayed membrane, count and trace and the tempo, and changes nothing
else of the record and no other byte. (R44, R87, R57, R58, R59, R61, R68, R70, R89, R117) -/
def Obligations.TemposClose : Prop :=
  (∀ (j : Fin 4) (s : State), ∀ k, k = s.hw.jobOf j →
    (∀ seen : List (Fin 64 × Seen), s.hw.closureDue j = true → k.outHeld = [] → (∀ y ∈ seen, s.hw.seenFault y.1 y.2 = none) →
      (∀ x : Fin 64, k.mask.testBit x = true → (s.hw.sqOf x).inbox = [] ∧ (s.hw.sqOf x).flt.shadowOut = false
        ∧ (s.hw.sqOf x).flt.pend = []
        ∧ ∀ (l : Fin 18) img, (s.hw.lslot x l).table = some img →
          ((List.range 16).any fun m => modelAlways img.bytes m) = false ∧ mget [] (s.hw.lslot x l).due (k.tempo % 8) = []
          ∧ (∀ i, mget 0 (s.hw.lslot x l).modSum i = 0) ∧ (∀ b : Fin 4, s.hw.sramAt x (.due l (k.tempo % 8) b) = none)
          ∧ s.hw.recFault x l (k.tempo % 16384) = none) →
      ∃ t, exec (.globalClosure j seen) s = .next t ∧ (t.hw.jobOf j).phase = 3 ∧ (t.hw.jobOf j).boundLatch = k.boundNext
        ∧ (t.hw.jobOf j).tempo = k.tempo ∧ t.hw.going j = true
        ∧ ∀ (x : Fin 64) (l : Fin 18), k.mask.testBit x = true → (s.hw.lslot x l).table ≠ none →
          (t.hw.lslot x l).updating = true ∧ (t.hw.lslot x l).fire = [] ∧ mget [] (t.hw.lslot x l).due (k.tempo % 8) = [])
    ∧ (s.hw.doneDue j = true → k.isSnap k.tempo = false → k.lastTempo = false →
      (∀ x, k.mask.testBit x = true → (s.hw.sqOf x).flt.pend.contains .control = false) → s.hw.kz.portA.cmds = [] → s.hw.kz.portB.cmds = [] → ∃ t, exec (.globalDone j) s = .next t
      ∧ (t.hw.jobOf j).tempo = k.tempo + 1 ∧ (t.hw.jobOf j).bound = k.boundLatch ∧ (t.hw.jobOf j).dPrev = s.hw.tb.now
      ∧ t.hw.going j = true))
  ∧ (∀ (h : Hw) (q l n t : Nat) (tb : Tables), Memory.wf h.banks.mem = true → (h.sqOf q).slotFor l < 19 → n < 16384 →
    (h.sqOf q).flt.pend = [] → h.recFault q l n = none → h.placeKept q (h.recAddr q l n) →
    ∀ a r d m v g, a = h.recAddr q l n → r = h.nrec q l n → d = (t + 65536 - recLast r) % 65536 →
      m = (if modelLeakEn tb.img (recModel r) = true then decay (recMembrane r) (modelLeak tb.img (recModel r)) d else recMembrane r) →
      v = Int.fdiv (recSlot r ((t + 1) % 8) * (fld (channelWord tb.img (recChannel r)) 15 0 : Nat))
        (2 ^ fld (channelWord tb.img (recChannel r)) 20 16) →
      g = (match traceTable tb.rule (recModel r) with | some tab => decayU8 (recTrace r) tab d | none => recTrace r) →
      (∀ x : NeuronRun, x = runProgram tb.img (recModel r) 0 ⟨[(0, max (-8388608) (min 8388607 (m + v))),
          (1, max (-8388608) (min 8388607 v)), (2, ((recRefr r - d : Nat) : Int)), (3, (g : Int))], false⟩ →
        ∀ y r', y = h.updateUnit q l t tb [n] → r' = y.1.nrec q l n →
        y.2 = none ∧ recMembrane r' = x.r.get 0 ∧ (recRefr r' : Int) = max 0 (min 15 (x.r.get 2))
          ∧ (recTrace r' : Int) = max 0 (min 255 (x.r.get 3)) ∧ recLast r' = t % 65536
          ∧ recChannel r' = recChannel r ∧ recModel r' = recModel r
          ∧ (∀ i : Fin 8, recSlot r' i = if i.val = (t + 1) % 8 then 0 else recSlot r i)
          ∧ (y.1.lslot q l).fire = (match x.fire with | some z => mset (h.lslot q l).fire n z | none => (h.lslot q l).fire)
          ∧ ((h.sqOf q).shadow = 31 ∨ (n / 2 + t) % sampleRate (h.sqOf q).flt.rate ≠ 0 →
            ∀ b, b < a ∨ a + 32 ≤ b → memRead y.1.banks.mem b = memRead h.banks.mem b))
      ∧ (n = t % 16384 → n < (h.sqOf q).flt.nsnapOf l → ∀ done y r', done.contains n = false → y = h.sweepTouch q l t tb done →
        r' = y.1.nrec q l n →
        y.2 = none ∧ recMembrane r' = m ∧ recRefr r' = recRefr r - d ∧ recTrace r' = g ∧ recLast r' = t % 65536
          ∧ recChannel r' = recChannel r ∧ recModel r' = recModel r ∧ (∀ i : Fin 8, recSlot r' i = recSlot r i)
          ∧ ∀ b, b < a ∨ a + 32 ≤ b → memRead y.1.banks.mem b = memRead h.banks.mem b))

/-- O35, EVENT_DISTRIBUTE, UPDATE_COMPLETE, CONSOLIDATION_PHASE_A, CONSOLIDATION_PHASE_B, SHADOW_COMPARE and SNAPSHOT_COPY_UNIT.
In a square that works: the event distributor takes one packet from the inbox and distributes its events one after the other;
a result or word that fails its check on the way takes the restart path. A core that ends its update updates no more. Phase A
that finds no fault is followed by phase B; one that sees a failed check takes the restart path. Phase B that finds no fault
ends the consolidation of the core; one that sees a failed check takes the restart path; of a core with one record to
consolidate it swaps the W field of every used entry of the block with WN of the record and sets COMMIT to 2. A sample that
agrees waits no more, and one whose recomputation fails a check takes the restart path. The copier copies the first pending
unit of a square, when its words are readable and it is not the last one, to the Mirror tier and it is pending no more.
(R129, R111, R120, R185, R187, R309, R312, R324) -/
def Obligations.SquaresUpdate : Prop :=
  ∀ (q : Fin 64) (l : Fin 18) (s : State), s.hw.works q = true →
    (∀ j e rest tp p evs h seen, s.hw.jobOfSq q = some j → s.hw.going j = true → (s.hw.sqOf q).inUpdate = false →
      takeEvent (s.hw.sqOf q).inbox = some (e, rest) → (s.hw.sqOf q).ledgerT = some tp → p = e.pkt → p.parOk = true →
      p.last = false → 1 ≤ p.count → p.count ≤ 5 → evs = (List.range p.count).map (fun i => (p.evNeuron i, p.evValue i)) →
      ∀ u, u = (s.hw.modSq q fun k => { k with inbox := rest, wdogCount := 0 }).useBanks q [19, 20, 21, 22, 23] →
      (u.seenFind q seen = none →
        chain (fun h x => h.distributeEvent q (mget {} (s.hw.sqOf q).ledger e.slot : LgSlot).bind tp x) u evs = (h, none) →
        exec (.eventDistribute q seen) s = .next (s.withHw (h.localClosure q)))
      ∧ (∀ f, u.seenFind q seen = some f → exec (.eventDistribute q seen) s
        = .next (s.withHw (u.jobFault { f with job := some j, sq := some q.val }))))
    ∧ ((s.hw.lslot q l).updating = true → ∃ t, exec (.updateComplete q l) s = .next t ∧ (t.hw.lslot q l).updating = false)
    ∧ (∀ h seen, s.hw.phaseDue q l = true → (s.hw.lslot q l).phaseA = true →
      (s.hw.seenFind q seen = none → (s.hw.useBanks q [20, 21, 22, 23]).phaseACore q l = (h, none) →
        exec (.consolidationPhaseA q l seen) s
          = .next (s.withHw ((h.modL q l fun k => { k with phaseA := false, phaseB := true }).squareDone q)))
      ∧ (∀ f, s.hw.seenFind q seen = some f → exec (.consolidationPhaseA q l seen) s
        = .next (s.withHw (s.hw.jobFault { f with job := s.hw.jobOfSq q, sq := some q.val }))))
    ∧ (∀ seen, s.hw.phaseDue q l = true → (s.hw.lslot q l).phaseB = true → (s.hw.lslot q l).phaseA = false →
      (s.hw.seenFind q seen = none →
        ((∀ img, (s.hw.lslot q l).rules = some img → consRecords img = []) →
          ∃ t, exec (.consolidationPhaseB q l seen) s = .next t ∧ (t.hw.lslot q l).phaseB = false)
        ∧ (∀ h, s.hw.phaseBCore q l = (h, none) → exec (.consolidationPhaseB q l seen) s
          = .next (s.withHw ((h.modL q l fun k => { k with phaseB := false }).squareDone q)))
        ∧ (∀ img c line i used, (s.hw.lslot q l).rules = some img → consRecords img = [(c, line, i)] → used = (s.hw.sqOf q).used i →
          used ≤ 32 → Memory.wf s.hw.banks.mem = true → (s.hw.sqOf q).flt.pend = [] →
          s.hw.poisoned (recordAt q i) 256 = false → s.hw.poisoned (synTier q + 128 * line) 128 = false →
          s.hw.placeKept q (recordAt q i) → s.hw.placeKept q (synTier q + 128 * line) →
          128 * line + 128 ≤ 0xA00000 + 256 * i ∨ 0xA00000 + 256 * i + 256 ≤ 128 * line →
          ∃ t, exec (.consolidationPhaseB q l seen) s = .next t ∧ (t.hw.lslot q l).phaseB = false ∧ t.hw.recCommit q i = 2
            ∧ ∀ n, n < used → t.hw.weightAt q line n = s.hw.rdN (recordAt q i + 128 + n) 1
              ∧ t.hw.rdN (recordAt q i + 128 + n) 1 = s.hw.weightAt q line n
              ∧ xorBits 32 (t.hw.rdN (synTier q + 128 * line + 4 * n) 4) = true))
      ∧ (∀ f, s.hw.seenFind q seen = some f → exec (.consolidationPhaseB q l seen) s
        = .next (s.withHw (s.hw.jobFault { f with job := s.hw.jobOfSq q, sq := some q.val }))))
    ∧ (∀ j n y, s.hw.jobOfSq q = some j → s.hw.going j = true →
      (s.hw.sqOf q).flt.waiting.find? (fun y => y.has l (n : Fin 16384)) = some y →
      ∀ seen, (s.hw.seenFind q seen = none → ∃ t, exec (.shadowCompare q l n .agree seen) s = .next t
        ∧ (t.hw.sqOf q).flt.waiting = (s.hw.sqOf q).flt.waiting.filter (· != y))
      ∧ (∀ f find, s.hw.seenFind q seen = some f → exec (.shadowCompare q l n find seen) s
        = .next (s.withHw ((s.hw.modFlt q fun f => { f with waiting := f.waiting.filter (· != y) }).jobFault
          { f with core := l.val, job := some j, sq := some q.val }))))
    ∧ (∀ u v rest, (s.hw.sqOf q).flt.pend = u :: v :: rest → s.hw.unitFault q u = none →
      ∀ as, as = ((s.hw.unitSources q u ++ (s.hw.unitMirror q u).map fun x => (x.1, x.2.2)).map (·.1)) →
      exec (.snapshotCopyUnit q) s = .next (s.withHw (((s.hw.useAt q as).copyBytes q u).modFlt q fun f => { f with
        pend := v :: rest, consPend := match u with | .plastic i => sdel f.consPend i | _ => f.consPend })))

/-- O36, TEMPO_STALL and RUNNING_TEMPO_LATE. A running tempo that stalls begins a restart of its job at step 1, with the cause
STALL in that tempo and without a square, when the job has no cause from before, has made fewer restarts without a snapshot
than FLT_MAXRST and has not lost journal entries; that the restart with the number noSnap + 1 still takes place while noSnap
is below FLT_MAXRST is the model's reading of R320 (log 67). A job that has lost some stops instead (R321, R331): its running
task ends FAILED with STALL and the job is over. A running tempo whose lateness passes the bound sets LATE once and signals
source 11 + j. (R71, R369, R320, R321, R331, R332) -/
def Obligations.LateTempos : Prop :=
  ∀ (j : Fin 4) (s : State), ∀ k, k = s.hw.jobOf j →
    (s.hw.stallDue j = true → (k.cause = none → k.noSnap < s.hw.flt.maxRst → k.jfull = false → ∃ t, exec (.tempoStall j) s = .next t
        ∧ (t.hw.jobOf j).restart = some { step := 1, at_ := s.hw.elapsed }
        ∧ (t.hw.jobOf j).cause = some ⟨stSTALL, none, k.tempo⟩ ∧ (t.hw.jobOf j).rstLast = stSTALL)
      ∧ (∀ x, k.jfull = true → s.hw.taskOf k.tid = some x → x.ty = tyTempoRun → x.state = .running → x.jslot = j.val →
        ∃ t, exec (.tempoStall j) s = .next t ∧ (t.hw.jobOf j).active = false
        ∧ (t.hw.taskOf k.tid).map (fun y => (y.state, y.status)) = some (.failed, stSTALL)))
    ∧ (s.hw.going j = true → k.released = true → k.late = false → k.bound * k.period < 16 * s.hw.lateness j →
      exec (.runningTempoLate j) s = .next (s.withHw ((s.hw.modJob j fun k => { k with late := true }).irq (11 + j))))

/-- O37, A contribution is added to one slot accumulator exactly, or the addition overflows and changes nothing. Adding a
contribution to slot k of a neuron whose memory is canonical and readable, in a row that no snapshot has pending: when the
sum fits 24 bits signed, the slot reads the sum, and every byte outside its three bytes reads as before; when it does not
fit, the addition finds the overflow and nothing changes. A slot in a word that is not readable is not written: the addition
finds detector 0x06 where the word is poisoned, and 0x04 where its path parity fails. (R53, R54, R56, R401) -/
def Obligations.SlotAccumulates : Prop :=
  ∀ (h : Hw) (q l n k : Nat) (x : Int), Memory.wf h.banks.mem = true → k < 8 →
    (h.sqOf q).flt.pend.contains (.row l (n / 16)) = false → ∀ v a, v = recSlot (h.nrec q l n) k + x → a = h.recAddr q l n + 8 + 3 * k →
    h.placeKept q a →
    (h.poisoned a 3 = false → -8388608 ≤ v → v ≤ 8388607 →
      (h.addSlot q l n k x).2 = none ∧ recSlot ((h.addSlot q l n k x).1.nrec q l n) k = v
      ∧ ∀ b, b < a ∨ a + 3 ≤ b → memRead (h.addSlot q l n k x).1.banks.mem b = memRead h.banks.mem b)
    ∧ (h.poisoned a 3 = false → v < -8388608 ∨ 8388607 < v →
      h.addSlot q l n k x = (h, some { det := 0x0C, status := stOVERFLOW }))
    ∧ (h.poisoned a 3 = true → ∃ f, h.addSlot q l n k x = (h, some f) ∧ f.det = (if h.hasPoison a 3 then 0x06 else 0x04)
      ∧ f.status = if h.hasPoison a 3 then stECC else stPARITY)

/-- O38, SESSION_OPEN, SESSION_CLOSE, TAKEOVER, SET_LEASE, ECHO and PORT_STATUS. On a quiet port, with a tag that is not 0xFFFF,
each of these commands without ASYNC is answered in its step: SESSION_OPEN is answered OK, and gives ownership to the port
when no port owns, else changes no owner. SESSION_CLOSE is answered OK, and takes ownership from the port when it owns, else
changes no owner. TAKEOVER without an owner is granted. Against the other port, FORCE = 1 is granted, and FORCE = 0 is
refused with NOT_OWNER until the owner's lease has run out, then granted. By the owner itself, FORCE = 0 is refused with
NOT_OWNER, and FORCE = 1 is answered OK and changes no owner (the model's choice, log 129). SET_LEASE of at most 60,000 ms
sets the lease of the owner and starts it again; without ownership it is refused with NOT_OWNER. ECHO of at most 64 bytes
returns its parameters. PORT_STATUS returns 16 bytes. With ASYNC each is refused with BAD_PARAM and DETAIL 3, ahead of the
checks of owner and parameters (the place of that check is the model's choice, log 126). Nothing else changes but the
arrival. (R348, R352, R353, R354, R355, R363) -/
def Obligations.KezilSessionsAndOwnership : Prop :=
  ∀ (p : Bool) (tag : BitVec 16) (ps : List Byte) (s : State), s.hw.kzQuiet p → tag ≠ 0xFFFF → ∀ a, a = s.hw.arrived p →
    (s.hw.kz.owner = none → Completes (.sessionOpen p false tag []) 0x0101 p tag s (a.ownerChange (some p) 0)
        ((a.ownerChange (some p) 0).sessionData p)
      ∧ ∀ f : Fin 2, Completes (.takeover p false tag [BitVec.ofNat 8 f]) 0x0103 p tag s (a.ownerChange (some p) 2)
        ((a.ownerChange (some p) 2).sessionData p))
    ∧ (s.hw.kz.owner ≠ none → Completes (.sessionOpen p false tag []) 0x0101 p tag s a (a.sessionData p))
    ∧ (s.hw.kz.owner ≠ some p → Completes (.sessionClose p false tag []) 0x0102 p tag s a []
      ∧ ∀ ms, ms ≤ 60000 → TurnedAway (.setLease p false tag (leBytes 4 ms)) 0x0104 p false tag s stNOTOWNER 0)
    ∧ (s.hw.kz.owner = some p → Completes (.sessionClose p false tag []) 0x0102 p tag s (a.ownerChange none 1) []
      ∧ TurnedAway (.takeover p false tag [0]) 0x0103 p false tag s stNOTOWNER 0
      ∧ Completes (.takeover p false tag [1]) 0x0103 p tag s a (a.sessionData p)
      ∧ ∀ ms, ms ≤ 60000 → Completes (.setLease p false tag (leBytes 4 ms)) 0x0104 p tag s
        { a with kz := { a.kz with leaseMs := ms, leaseAt := s.hw.elapsed } } [])
    ∧ (s.hw.kz.owner = some (!p) → s.hw.leaseDue = false →
      TurnedAway (.takeover p false tag [0]) 0x0103 p false tag s stNOTOWNER 0
      ∧ Completes (.takeover p false tag [1]) 0x0103 p tag s (a.ownerChange (some p) 3) ((a.ownerChange (some p) 3).sessionData p))
    ∧ (s.hw.kz.owner = some (!p) → s.hw.leaseDue = true → ∀ g, g = (a.ownerChange none 4).ownerChange (some p) 2 →
      ∀ f : Fin 2, Completes (.takeover p false tag [BitVec.ofNat 8 f]) 0x0103 p tag s g (g.sessionData p))
    ∧ (ps.length ≤ 64 → Completes (.echo p false tag ps) 0x0105 p tag s a ps)
    ∧ (Completes (.portStatus p false tag []) 0x0106 p tag s a (a.portStatus p) ∧ (a.portStatus p).length = 16)
    ∧ (ps.length ≤ 64 → ∀ x ∈ [(Instr.sessionOpen p true tag ps, 0x0101), (.sessionClose p true tag ps, 0x0102),
        (.takeover p true tag ps, 0x0103), (.setLease p true tag ps, 0x0104), (.echo p true tag ps, 0x0105),
        (.portStatus p true tag ps, 0x0106)], TurnedAway x.1 x.2 p true tag s stBADPARAM 3)

/-- O39, A change of owner, and LEASE_EXPIRY. A change of owner sets the owner, starts its lease, leaves no owner-only command of
the old owner that would still run, sends an OWNER notification on both ports that have room for it, and changes nothing in
the sequencer, in running jobs, in the streams or in the square states. When the owner's lease has run out, in a cycle before
the present one (R18), and no command waits or is in progress, LEASE_EXPIRY changes the owner to none with cause 4. (R352,
R356, R355, R353, R18) -/
def Obligations.OwnershipChanges : Prop :=
  ∀ (h : Hw) (new : Option Bool) (cause : Nat), ∀ t, t = h.ownerChange new cause →
    t.kz.owner = new ∧ t.kz.leaseAt = h.elapsed
    ∧ (∀ o, h.kz.owner = some o → (t.portOf o).cmds = (h.portOf o).cmds.map Cmd.disowned ∧ (t.portOf (!o)).cmds = (h.portOf (!o)).cmds)
    ∧ (∀ p, (h.portOf p).notes.length < 256 → (t.portOf p).notes = (h.portOf p).notes ++ [⟨7, 0, ownerId new, h.tb.now, cause, []⟩])
    ∧ t.seq = h.seq ∧ t.jobs = h.jobs ∧ t.kz.streams = h.kz.streams ∧ t.sq = h.sq ∧ t.kz.running = h.kz.running
    ∧ ∀ s : State, s.hw = h → h.leasePast = true → (h.portOf false).current = none → (h.portOf true).current = none →
      (h.portOf false).cmds = [] → (h.portOf true).cmds = [] → exec .leaseExpiry s = .next (s.withHw (h.ownerChange none 4))

/-- O40, GET_IDENTITY, GET_STAGE_REPORTS, GET_TELEMETRY, FAULT_READ, STICKY_READ, FW_STATUS, LC_GET, TIME_GET and GET_CERT. On a
quiet port, these opcodes without owner mark that are served before S8 (GET_CERT in every life-cycle state but BLANK) are
answered OK in their step, change nothing but the arrival, and return data of the lengths of their tables: 128, 144, 96, at
most 256 records from a SEQ up, 272, 16, 8 and 24 bytes, and the certificates. That FAULT_READ takes the records in the half
of the 32-bit SEQ space from the SEQ up is the model's choice (log 140), and so is that GET_CERT of a store that has not been
written returns OK without bytes (log 139). (R363, R446, R445, R293) -/
def Obligations.KezilReportsAndStatus : Prop :=
  ∀ (p : Bool) (tag : BitVec 16) (s : State), s.hw.kzQuiet p → tag ≠ 0xFFFF → ∀ a, a = s.hw.arrived p →
    Completes (.getIdentity p false tag []) 0x0201 p tag s a a.identity ∧ a.identity.length = 128
    ∧ Completes (.getStageReports p false tag []) 0x0202 p tag s a a.stageReports ∧ a.stageReports.length = 144
    ∧ Completes (.getTelemetry p false tag []) 0x0205 p tag s a a.telemetry ∧ a.telemetry.length = 96
    ∧ (∀ first count, first < 2 ^ 32 → count < 256 → Completes (.faultRead p false tag (leBytes 4 first ++ leBytes 1 count)) 0x0701 p tag s
      a ((a.flt.ring.filter (seqFrom first)).take (if count = 0 then 256 else count)).flatten)
    ∧ Completes (.stickyRead p false tag []) 0x0702 p tag s a a.stickyBytes ∧ a.stickyBytes.length = 272
    ∧ Completes (.fwStatus p false tag []) 0x0805 p tag s a a.fwStatusBytes ∧ a.fwStatusBytes.length = 16
    ∧ Completes (.lcGet p false tag []) 0x0901 p tag s a a.lcBytes ∧ a.lcBytes.length = 8
    ∧ Completes (.timeGet p false tag []) 0x0A01 p tag s a (a.timeBytes s.hw.tb.now) ∧ (a.timeBytes s.hw.tb.now).length = 24
    ∧ (s.hw.fuses.lc ≠ 0 → ∀ i : Fin 2, Completes (.getCert p false tag [BitVec.ofNat 8 i]) 0x0203 p tag s a
      (if i = 0 then (s.hw.sec.certs.getD ([], [])).1 else (s.hw.sec.certs.getD ([], [])).2))

/-- O41, ATTEST, GET_NET_DIGESTS, TASK_STATUS, SQUARE_INFO, STREAM_GET, BUDGET_GET and JOB_FAULTS. On a quiet port that may use
every opcode, these are answered OK in their step. ATTEST returns the report over its nonce, signed with the identity key and
fresh randomness; the others return digests, status records, the words of a square, a stream's groups, the seven budget
registers and the fault words of a job slot, and change nothing but the arrival. (R363, R446, R445) -/
def Obligations.KezilQueries : Prop :=
  ∀ (p : Bool) (tag : BitVec 16) (s : State), s.hw.kzQuiet p → s.hw.mayAll p → tag ≠ 0xFFFF → ∀ a, a = s.hw.arrived p →
    (∀ nonce : List Byte, nonce.length = 64 → Completes (.attest p false tag nonce) 0x0204 p tag s { a with fresh := a.fresh + 1 }
      (a.attReport nonce ++ sliceB (Config.mlDsaSign s.hw.fuses.idSeed (a.attReport nonce) attContext a.fresh) 0 4627))
    ∧ Completes (.getNetDigests p false tag []) 0x0206 p tag s a a.netDigests ∧ a.netDigests.length = 4096
    ∧ (∀ t : Fin 4096, Completes (.taskStatus p false tag (leBytes 2 t)) 0x0404 p tag s a (leBytes 8 (s.hw.taskRecord t)))
    ∧ (∀ q : Fin 64, Completes (.squareInfo p false tag [BitVec.ofNat 8 q]) 0x0502 p tag s a (a.squareInfo q)
      ∧ (a.squareInfo q).length = 96)
    ∧ (∀ n : Fin 6, Completes (.streamGet p false tag [BitVec.ofNat 8 n]) 0x0504 p tag s a (s.hw.streamBytes n))
    ∧ Completes (.budgetGet p false tag []) 0x0604 p tag s a a.budgetBytes ∧ a.budgetBytes.length = 28
    ∧ ∀ j : Fin 4, Completes (.jobFaults p false tag [BitVec.ofNat 8 j]) 0x0704 p tag s a (s.hw.jobFaultBytes j)
      ∧ (s.hw.jobFaultBytes j).length = 24

/-- O42, SEQ_RUN, STREAM_SET, PWR_SET, PWR_PINS, BUDGET_SET, TRIP_CLEAR, STICKY_CLEAR, TIME_SET and DOORBELL_RING. On a quiet
port that may use every opcode, parameters in their ranges take effect and are answered OK: the sequencer runs or not; a
stream whose job does not run takes its configuration; a domain that no fuse has off is asked ON, or to RETAIN or OFF where
no pin and no rule keeps it; the pins, the budget registers and, with no running job and not disciplined, the timebase take
their values; TRIP, with no square hot, and the sticky bits that a mask names are cleared, but for one that hardware has set
in the same cycle (R15; that it holds for these two commands as for a register write is the model's choice, log 209);
doorbells become pending (shown while no task is in the list). That STREAM_SET is refused exactly while a job of the stream's
JOB_ID runs, enabled or not, and joins no running job, is the model's choice (log 134). What the conditions keep out is
refused with BUSY and changes nothing but the arrival. (R363, R359, R301, R284, R291, R297, R393, R15) -/
def Obligations.KezilSettings : Prop :=
  ∀ (p : Bool) (tag : BitVec 16) (s : State), s.hw.kzQuiet p → s.hw.mayAll p → tag ≠ 0xFFFF → ∀ a, a = s.hw.arrived p →
    (∀ x : Fin 2, Completes (.seqRun p false tag [BitVec.ofNat 8 x]) 0x0407 p tag s { a with seq := { a.seq with run := x.val == 1 } } [])
    ∧ (∀ ps n, streamOk ps = true → n = leAt ps 0 1 → (∀ x ∈ s.hw.kz.streams, x.1 = n → s.hw.jobById x.2.jobId = none) →
      Completes (.streamSet p false tag ps) 0x0503 p tag s
        { a with kz := { a.kz with streams := mset a.kz.streams n { enable := leAt ps 1 1 == 1, jobId := leAt ps 4 4, groups := (groupWords ps).map streamGroup, joined := none } } } [])
    ∧ (∀ ps n x j, streamOk ps = true → n = leAt ps 0 1 → (n, x) ∈ s.hw.kz.streams → s.hw.jobById x.jobId = some j →
      TurnedAway (.streamSet p false tag ps) 0x0503 p false tag s stBUSY 0)
    ∧ (∀ d : Fin 91, ((d.val < 64 → (s.hw.sqOf d).fused = false) → Completes (.pwrSet p false tag [BitVec.ofNat 8 d, 0]) 0x0601 p tag s
        (((a.dropAsk d).wakeDom d).modDom d fun k => { k with held := some .on }) [])
      ∧ (d.val < 64 → (s.hw.sqOf d).fused = true → TurnedAway (.pwrSet p false tag [BitVec.ofNat 8 d, 0]) 0x0601 p false tag s stBUSY 0))
    ∧ (∀ (d : Fin 91) (x : Fin 2) (v : PwrState), v = (if x = 0 then .retain else .off) →
      (s.hw.pinned d = false → (x = 1 → s.hw.keepsOn d = false) → ∀ h, h = a.modDom d (fun k => { k with held := some v }) →
        Completes (.pwrSet p false tag [BitVec.ofNat 8 d, BitVec.ofNat 8 (x + 1)]) 0x0601 p tag s
          (if (a.domOf d).moving.getD (a.domOf d).state = v then h.dropAsk d else h.askDomain d v) [])
      ∧ (s.hw.pinned d = true ∨ (x = 1 ∧ s.hw.keepsOn d = true) →
        TurnedAway (.pwrSet p false tag [BitVec.ofNat 8 d, BitVec.ofNat 8 (x + 1)]) 0x0601 p false tag s stBUSY 0))
    ∧ (∀ x y z : Word, Completes (.pwrPins p false tag (leBytes 4 x.toNat ++ leBytes 4 y.toNat ++ leBytes 4 z.toNat)) 0x0602 p tag s
        (((a.pinWrite 0 x.toNat).pinWrite 1 y.toNat).pinWrite 2 z.toNat) [])
    ∧ (∀ lim sl di tl rt te, 1000 ≤ lim → lim ≤ 60000 → 64 ≤ sl → sl < 256 → 10 ≤ di → di ≤ 50 → 60 ≤ tl → tl ≤ 115 → 32 ≤ rt →
      rt < 256 → te < 256 →
      Completes (.budgetSet p false tag (leBytes 4 lim ++ leBytes 1 sl ++ leBytes 1 di ++ leBytes 1 tl ++ leBytes 1 rt ++ leBytes 1 te ++ [0, 0, 0]))
        0x0603 p tag s { a with bud := { a.bud with limit := lim, slack := sl, didt := di, tlim := tl, rth := rt, tcpExt := te } } [])
    ∧ ((s.hw.bud.hot = [] → Completes (.tripClear p false tag []) 0x0605 p tag s { a with bud := { a.bud with trip := a.bud.trip && (a.rose .budget).testBit 4 } } [])
      ∧ (s.hw.bud.hot ≠ [] → TurnedAway (.tripClear p false tag []) 0x0605 p false tag s stBUSY 0))
    ∧ (∀ ps : List Byte, ps.length = 272 → ∃ t, Completes (.stickyClear p false tag ps) 0x0703 p tag s t []
      ∧ t.flt = { a.flt with sticky1 := clearBits a.flt.sticky1 (a.clears .sticky1 (leAt ps 8 4)), sticky2 := clearBits a.flt.sticky2 (a.clears .sticky2 (leAt ps 12 4)) }
      ∧ (∀ q : Fin 64, t.sqOf q = { (a.sqOf q) with flt := { (a.sqOf q).flt with
          sticky := clearBits (a.sqOf q).flt.sticky (a.clears (.faults q) (leAt ps (16 + 4 * q) 4)) } }) ∧ { t with flt := a.flt, sq := a.sq } = a)
    ∧ (∀ v : DWord, (s.hw.anyJob = false → s.hw.tb.state ≠ .disciplined → Completes (.timeSet p false tag (leBytes 8 v.toNat)) 0x0A02 p tag s
        { a with tb := { a.tb with now := v.toNat, setLast := v.toNat, prevPps := none } } [])
      ∧ (s.hw.anyJob = true ∨ s.hw.tb.state = .disciplined → TurnedAway (.timeSet p false tag (leBytes 8 v.toNat)) 0x0A02 p false tag s stBUSY 0))
    ∧ (∀ m : Word, exec (.doorbellRing p false tag (leBytes 4 m.toNat)) s
        = .next (s.withHw ((a.ring m.toNat).answered p 0x0406 tag.toNat false stOK 0 []).kzGrant)
      ∧ (s.hw.seq.tasks = [] → (a.ring m.toNat).seq = { s.hw.seq with dbPend := s.hw.seq.dbPend ||| m.toNat }))

/-- O43, GRAPH_SUBMIT, TASK_RETIRE, TASK_CANCEL and JOB_STOP. On a quiet port that may use every opcode: a batch whose
descriptors all pass is taken whole, and into an empty task memory a single task without predecessors becomes READY (shown
for one that no running job binds); an ended task that no waiting or ready task names is retired; a task that has not
started, and a running WAIT_TIME or DOORBELL, is cancelled with CLOSED; an open-ended job is asked to stop with the tempo
that runs now, by TASK_CANCEL of its task or by JOB_STOP, and JOB_STOP waits for its task, as the command in progress, or
asynchronously after an OK reply. (R270, R268, R271, R280, R276, R274, R350) -/
def Obligations.KezilGraphCommands : Prop :=
  ∀ (p : Bool) (tag : BitVec 16) (s : State), s.hw.kzQuiet p → s.hw.mayAll p → tag ≠ 0xFFFF → ∀ a, a = s.hw.arrived p →
    (∀ ps, itemsOk ps 64 = true → (∀ i, i < (batchOf ps).length → a.batchStatus (batchOf ps) i = stOK) →
      s.hw.seq.tasks.length + (batchOf ps).length ≤ 4096 → ∀ h : Hw, h = { a with seq := { a.seq with
        tasks := (batchOf ps).foldl (fun m (k : Task) => mset m k.tid k) s.hw.seq.tasks } }.settle →
      exec (.graphSubmit p false tag ps) s = .next (s.withHw (h.answered p 0x0401 tag.toNat false stOK 0 []).kzGrant))
    ∧ (∀ ps k, ps.length = 64 → k = { desc := ps } → s.hw.seq.tasks = [] → a.descStatus k = stOK → k.preds = [] →
      (k.ty = tyConsolidate → a.bindJob k = none) →
      ∃ t, Completes (.graphSubmit p false tag ps) 0x0401 p tag s t []
        ∧ t.seq.tasks = [(k.tid, { k with state := .ready, readyAt := s.hw.tb.now })])
    ∧ (∀ (t : Fin 4096) k, s.hw.taskOf t = some k → k.state.ended = true →
      (∀ x, x ∈ s.hw.seq.tasks → x.2.state = .waiting ∨ x.2.state = .ready → x.2.preds.contains t.val = false) →
      Completes (.taskRetire p false tag (leBytes 2 t)) 0x0402 p tag s
        { a with seq := { a.seq with tasks := s.hw.seq.tasks.filter fun x => x.1 != t.val } } [])
    ∧ (∀ (t : Fin 4096) k, s.hw.taskOf t = some k →
      k.state = .waiting ∨ k.state = .ready ∨ (k.state = .running ∧ (k.ty = tyWaitTime ∨ k.ty = tyDoorbell)) →
      ∀ h, h = (if k.state = .ready then (a.taskEnd t stCLOSED).unbind t else a.taskEnd t stCLOSED) →
      exec (.taskCancel p false tag (leBytes 2 t)) s = .next (s.withHw (h.answered p 0x0403 tag.toNat false stOK 0 []).kzGrant))
    ∧ (∀ (t : Fin 4096) k, s.hw.taskOf t = some k → k.state = .running → k.ty = tyTempoRun → k.param 4 4 = 0 →
      Completes (.taskCancel p false tag (leBytes 2 t)) 0x0403 p tag s
        (a.modJob k.jslot fun k => { k with stopReq := true, stopT := if k.stopReq then k.stopT else k.tempo }) [])
    ∧ (∀ j : Fin 4, (s.hw.jobOf j).active = true → (s.hw.jobOf j).ntempo = 0 → ∀ (async : Bool) c h,
      c = { cmdOf 0x0405 tag.toNat async [BitVec.ofNat 8 j] with arrived := s.hw.kz.arrivals, time := s.hw.tb.now } →
      h = a.modJob j (fun k => { k with stopReq := true, stopT := if k.stopReq then k.stopT else k.tempo }) →
      (async = false → exec (.jobStop p false tag [BitVec.ofNat 8 j]) s
        = .next (s.withHw (h.modPort p fun q => { q with current := some (c, .task (s.hw.jobOf j).tid) })))
      ∧ (async = true → exec (.jobStop p true tag [BitVec.ofNat 8 j]) s = .next (s.withHw
          ({ h with kz := { h.kz with running := s.hw.kz.running ++ [(⟨p, c, .task (s.hw.jobOf j).tid⟩ : Running)] } }.answered p 0x0405
            tag.toNat true stOK 0 []))))

/-- O44, MEM_READ, MEM_WRITE, DMA_START and IMAGE_CHECK. On a quiet port that may use every opcode: MEM_READ and MEM_WRITE of 1
byte to 1 MiB start the lowest free DMA channel of 0 to 3 on their one descriptor (R364 says one of channels 0 to 3; that it
is the lowest free one is the model's choice, log 208), and are the port's command in progress until it ends; DMA_START
starts an idle channel of 4 to 11 on a descriptor list, likewise; IMAGE_CHECK of an image that passes wakes and uses the
PSRAM pairs that hold it and is answered with its digest, and while a channel of it trains or its pair is not ON it is the
port's command in progress. (R364, R258, R256, R363, R350) -/
def Obligations.KezilMemoryCommands : Prop :=
  ∀ (p : Bool) (tag : BitVec 16) (s : State), s.hw.kzQuiet p → s.hw.mayAll p → tag ≠ 0xFFFF → ∀ a, a = s.hw.arrived p →
    (∀ ad n w c, ad < 2 ^ 44 → 1 ≤ n → n ≤ 0x100000 → w < 2 → firstOf [0, 1, 2, 3] (fun c => !(s.hw.dmaOf c).run) = some c →
      (∀ ps, ps = leBytes 8 ad ++ leBytes 4 n ++ leBytes 1 w → exec (.memRead p false tag ps) s = .next (s.withHw
        (((a.dmaStart c none).modDma c fun k => { k with d := some (a.kzDesc false ad n w []), kmode := 1 }).modPort p fun q =>
          { q with current := some ({ cmdOf 0x0301 tag.toNat false ps with arrived := s.hw.kz.arrivals, time := s.hw.tb.now }, .chain c) })))
      ∧ (∀ data ps, data.length = n → ps = leBytes 8 ad ++ leBytes 4 n ++ leBytes 1 w ++ data →
        exec (.memWrite p false tag ps) s = .next (s.withHw
        (((a.dmaStart c none).modDma c fun k => { k with d := some (a.kzDesc true ad n w data), kmode := 2 }).modPort p fun q =>
          { q with current := some ({ cmdOf 0x0302 tag.toNat false ps with arrived := s.hw.kz.arrivals, time := s.hw.tb.now }, .chain c) }))))
    ∧ (∀ c ad ps, 4 ≤ c → c ≤ 11 → ad < 2 ^ 40 → (s.hw.dmaOf c).run = false → ps = leBytes 1 c ++ leBytes 8 ad →
      exec (.dmaStart p false tag ps) s = .next (s.withHw
        (((a.modDma c fun k => { k with desc := ad }).dmaStart c none).modPort p fun q =>
          { q with current := some ({ cmdOf 0x0303 tag.toNat false ps with arrived := s.hw.kz.arrivals, time := s.hw.tb.now }, .chain c) })))
    ∧ (∀ ad len w ps h, ad < 2 ^ 64 → len < 2 ^ 32 → w < 2 → ps = leBytes 8 ad ++ leBytes 4 len ++ leBytes 1 w →
      h = (psramPairs ad len).foldl (fun (h : Hw) k => h.wakeDom (domPsc k)) a →
      (∀ env body, a.envelope ad (some len) (some w) = (stOK, env, body) → s.hw.psramHeld ad len = false →
        Completes (.imageCheck p false tag ps) 0x0501 p tag s (h.touchPsram ad len) ((env.drop 8).take 64))
      ∧ (s.hw.envHeld ad (some len) = true → exec (.imageCheck p false tag ps) s = .next (s.withHw (h.modPort p fun q =>
          { q with current := some ({ cmdOf 0x0501 tag.toNat false ps with arrived := s.hw.kz.arrivals, time := s.hw.tb.now }, .retry) }))))

/-- O45, FW_BEGIN, FW_DATA, FW_END, FW_ACTIVATE, FW_CORE_REPORT and FW_ACTIVATION_TIMEOUT. On a quiet port that may use every
opcode: FW_BEGIN with MODE 1 starts a transfer of 1 byte to 16 MiB and discards what was staged (that it also discards an
image already staged is the model's choice, log 135); FW_DATA at the next offset, on channels that serve, stores its bytes in
the staging region, and waits while a channel trains; FW_END of a whole image that passes its checks stages it and is
answered with its digest; FW_ACTIVATE of a staged image that passes again begins with core 3. With the owner's port quiet at
S4, MODE 0 does the same for the boot image. A report of core n above 0, while no takeover waits, moves on to core n − 1;
that of core 0, while no command waits, completes the activation: the staged image is the one that runs, its SVN is committed
where it asks so and is above the count in use, which is the model's reading of the order of the steps (log 123), and the
command is answered OK. FW_END and FW_ACTIVATE of an image on a channel that has failed or is OFF are answered ABSENT (R412).
A core that has not reported after 50 ms sets bit 0 of FLT_STICKY2, resets the control complex, and no port owns. (R365,
R433, R442, R443, R435, R444, R412, R18) -/
def Obligations.KezilFirmware : Prop :=
  ∀ (p : Bool) (tag : BitVec 16) (s : State), ∀ a, a = s.hw.arrived p →
    (s.hw.kzQuiet p → tag ≠ 0xFFFF → s.hw.kz.owner = some p → ∀ m : Nat, (m = 1 ∧ s.hw.mayAll p) ∨ (m = 0 ∧ s.hw.s4Runs = true) →
      (∀ n, 1 ≤ n → n ≤ 16777216 → Completes (.fwBegin p false tag (leBytes 4 n ++ leBytes 1 m ++ [0, 0, 0])) 0x0801 p tag s
        { a with fw := { a.fw with xfer := 1, mode := m, length := n, received := 0, bootImage := [], bootOk := false, stagedVersion := 0, stagedLength := 0 } } [])
      ∧ (s.hw.fw.xfer = 1 → s.hw.fw.mode = m →
        (∀ b : List Byte, 1 ≤ b.length → b.length ≤ 1048576 → s.hw.fw.received + b.length ≤ s.hw.fw.length → s.hw.fw.length ≤ 16777216 →
          ∀ ad ps, ad = 0x17F000000 + s.hw.fw.received → ps = leBytes 4 s.hw.fw.received ++ b →
          (m = 1 → s.hw.psramHeld ad b.length = true → exec (.fwData p false tag ps) s = .next (s.withHw ((a.wakePsram ad b.length).modPort p fun q =>
            { q with current := some ({ cmdOf 0x0802 tag.toNat false ps with arrived := s.hw.kz.arrivals, time := s.hw.tb.now }, .retry) })))
          ∧ ((m = 1 → s.hw.psramAbsent ad b.length = false ∧ s.hw.psramHeld ad b.length = false) →
            ∃ t, Completes (.fwData p false tag ps) 0x0802 p tag s t []
            ∧ t.fw.received = s.hw.fw.received + b.length
            ∧ t.banks.mem = (if m = 1 then memWriteN s.hw.banks.mem ad b else s.hw.banks.mem)
            ∧ t.fw.bootImage = (if m = 1 then s.hw.fw.bootImage else s.hw.fw.bootImage ++ b)))
        ∧ (s.hw.fw.received = s.hw.fw.length →
          (m = 1 → s.hw.psramHeld 0x17F000000 s.hw.fw.length = false ∧ s.hw.psramAbsent 0x17F000000 s.hw.fw.length = false) → ∀ img, img = (if m = 1 then memReadN s.hw.banks.mem 0x17F000000 s.hw.fw.length else s.hw.fw.bootImage) →
          s.hw.fwCheck img = stOK → Completes (.fwEnd p false tag []) 0x0803 p tag s
            (if m = 1 then { a with fw := { a.fw with xfer := 2, stagedVersion := leAt img 4 4, stagedLength := img.length } }
             else { a with fw := { a.fw with xfer := 0, bootOk := true } }) (shaBytes img))
        ∧ (s.hw.fw.received = s.hw.fw.length → m = 1 → s.hw.psramHeld 0x17F000000 s.hw.fw.length = false →
          s.hw.psramAbsent 0x17F000000 s.hw.fw.length = true → TurnedAway (.fwEnd p false tag []) 0x0803 p false tag s stABSENT 0))
      ∧ (m = 1 → s.hw.fw.xfer = 2 → s.hw.psramHeld 0x17F000000 s.hw.fw.stagedLength = false →
        (s.hw.psramAbsent 0x17F000000 s.hw.fw.stagedLength = true → TurnedAway (.fwActivate p false tag []) 0x0804 p false tag s stABSENT 0)
        ∧ (s.hw.psramAbsent 0x17F000000 s.hw.fw.stagedLength = false → s.hw.fwCheck s.hw.stagedImage = stOK → exec (.fwActivate p false tag []) s = .next (s.withHw
          ({ a with fw := { a.fw with xfer := 3, actCore := some (3, s.hw.elapsed + 50000000), coresUp := [] } }.modPort p fun q =>
            { q with current := some ({ cmdOf 0x0804 tag.toNat false [] with arrived := s.hw.kz.arrivals, time := s.hw.tb.now }, .activation) })))))
    ∧ (∀ n e, s.hw.fw.actCore = some (n + 1, e) → (∀ x c, (s.hw.portOf x).current ≠ some (c, .grant)) → exec .fwCoreReport s = .next (s.withHw
        { s.hw with fw := { s.hw.fw with actCore := some (n, s.hw.elapsed + 50000000), coresUp := sins s.hw.fw.coresUp (n + 1) } }))
    ∧ (∀ e, s.hw.fw.actCore = some (0, e) → (∀ x, (s.hw.portOf x).cmds = []) →
      (∀ x c w, (s.hw.portOf x).current = some (c, w) → w = .activation) → ∀ img, img = s.hw.stagedImage →
      ∃ t, exec .fwCoreReport s = .next t ∧ t.hw.fw = { version := fwVersion img, digest := Config.sha3 img, svn := fwSvn img, commit := fwCommit img, coresUp := [0, 1, 2, 3] }
      ∧ t.hw.fuses = (if fwCommit img = true ∧ s.hw.fuses.inUse = true ∧ s.hw.fuses.svnCount < fwSvn img
        then { s.hw.fuses with svnMin := BitVec.ofNat 64 (2 ^ fwSvn img - 1) } else s.hw.fuses)
      ∧ ∀ x c, (s.hw.portOf x).current = some (c, .activation) → (t.hw.portOf x).current = none
        ∧ (t.hw.portOf x).replies = (s.hw.portOf x).replies ++ [replyBytes c.opcode c.tag c.async stOK 0 []])
    ∧ (∀ n e, s.hw.fw.actCore = some (n, e) → e < s.hw.elapsed → ∃ t, exec .fwActivationTimeout s = .next t
      ∧ t.hw.flt.sticky2 = s.hw.flt.sticky2 ||| 1
      ∧ t.hw.fw.actCore = none ∧ t.hw.fw.xfer = 0 ∧ t.hw.kz.owner = none ∧ t.hw.bring.ctrlS4 = some 2)

/-- O46, The checks on a Kezil command come in order, and the first that fails decides the reply. For each of the 46 opcodes, on
a quiet port: a command with tag 0xFFFF is answered BAD_PARAM with DETAIL 7; one with ASYNC whose opcode is not marked async,
BAD_PARAM with DETAIL 3 (that this check stands ahead of those of stage, port and life cycle is the model's choice, log 126);
before S8, one not marked for it, BUSY with the number of the stage; an owner-only one from another port, NOT_OWNER; one that
its life-cycle column does not name, LIFECYCLE. None of them is executed. (R348, R350, R353, R352, R363) -/
def Obligations.KezilCommandsAreChecked : Prop :=
  ∀ (p async : Bool) (tag : BitVec 16) (ps : List Byte) (op : Nat) (i : Instr) (r : OpRow) (s : State), s.hw.kzQuiet p →
    kezilInstr op p async tag ps = some i → opRow op = some r → ps.length ≤ 1048592 →
    (tag = 0xFFFF → TurnedAway i op p async tag s stBADPARAM 7)
    ∧ (tag ≠ 0xFFFF → async = true → r.async = false → TurnedAway i op p async tag s stBADPARAM 3)
    ∧ (tag ≠ 0xFFFF → (async = true → r.async = true) →
      (r.early = false → s.hw.served = false → TurnedAway i op p async tag s stBUSY s.hw.stageNo)
      ∧ ((r.early = true ∨ s.hw.served = true) →
        (r.owner = true → s.hw.kz.owner ≠ some p → TurnedAway i op p async tag s stNOTOWNER 0)
        ∧ ((r.owner = true → s.hw.kz.owner = some p) → r.lcs.testBit s.hw.fuses.lc = false → TurnedAway i op p async tag s stLIFECYCLE 0)))

/-- O47, MALFORMED_COMMAND: the answer to a transfer that fails framing. On a quiet port, a transfer without a trustworthy header
is answered BAD_PARAM with DETAIL 1, opcode 0 and tag 0xFFFF. With a good header, the first framing failure is answered
BAD_PARAM with its DETAIL and the opcode and tag of the transfer, and an unlisted opcode BAD_OPCODE. Only the arrival changes
the module besides. (R348, R345, R346) -/
def Obligations.FramingFailures : Prop :=
  ∀ (p : Bool) (raw : List Byte) (s : State), s.hw.kzQuiet p → ∀ a, a = s.hw.arrived p →
    ((raw.length < 16 ∨ leAt raw 0 2 ≠ 0x4B5A ∨ leAt raw 14 2 ≠ crc16 (raw.take 14)) →
      exec (.malformedCommand p raw) s = .next (s.withHw (a.answered p 0 0xFFFF false stBADPARAM 1 [])))
    ∧ (∀ d, framing raw = (d, true) → d ≠ 0 → exec (.malformedCommand p raw) s
        = .next (s.withHw (a.answered p (leAt raw 4 2) (leAt raw 6 2) ((leAt raw 3 1).testBit 0) stBADPARAM d [])))
    ∧ (framing raw = (0, true) → opRow (leAt raw 4 2) = none → exec (.malformedCommand p raw) s
        = .next (s.withHw (a.answered p (leAt raw 4 2) (leAt raw 6 2) ((leAt raw 3 1).testBit 0) stBADOP 0 [])))

/-- O48, LC_TRANSITION, KEY_ENROL and RESET. From the quiet port of the owner at S8, a listed transition with a good
authorisation and no running job or activation is answered OK and followed by a warm reset with cause 3: RETIRED is blown, or
LC_COUNT has one more bit, and with the first transition the certificate store is written; no port owns. KEY_ENROL with a
good authorisation blows the digest of the key into the lowest unused slot and returns it. RESET is answered OK and followed
by a warm reset with cause 2, which keeps the fuses and leaves no job, no task and no owner. (R450, R451, R452, R453, R366,
R352, R420) -/
def Obligations.KezilSecurity : Prop :=
  ∀ (p : Bool) (tag : BitVec 16) (ps : List Byte) (s : State), s.hw.kzQuiet p → tag ≠ 0xFFFF → s.hw.kz.owner = some p →
    (∀ tgt x first, tgt = leAt ps 0 1 → x = ps.drop 1 → first = (s.hw.fuses.lc == 0 && tgt == 1) → s.hw.served = true →
      7347 ≤ x.length → x.length = 7347 + leAt x 6 2 → lcListed s.hw.fuses tgt = true → s.hw.anyJob = false → authForm x 1 tgt = true →
      (first = false → authExtra x = []) → s.hw.authOk x s.hw.lcSigner = true →
      (first = true → ∃ c, twoCerts (authExtra x) = some c ∧ s.hw.sec.publicKey = some (Config.certPublicKey c.1)) →
      ∃ t, exec (.lcTransition p false tag ps) s = .next t ∧ t.hw.bring.cause = 3 ∧ t.hw.kz.owner = none ∧ t.hw.jobs = []
        ∧ (t.hw.portOf p).lastReply = replyBytes 0x0902 tag.toNat false stOK 0 []
        ∧ (tgt = 4 → t.hw.fuses.retired ≠ 0 ∧ t.hw.fuses.lc = 4)
        ∧ (tgt ≠ 4 → t.hw.fuses = { s.hw.fuses with lcCount := BitVec.ofNat 64 (2 ^ (s.hw.fuses.lcN + 1) - 1) })
        ∧ t.hw.sec.certs = if first then twoCerts (authExtra x) else s.hw.sec.certs)
    ∧ (∀ a k d, a = ps.drop 2592 → d = Config.sha3 (ps.take 2592) → s.hw.served = true → s.hw.fuses.lc = 1 ∨ s.hw.fuses.lc = 3 →
      ps.length = 2592 + 7347 → leAt a 6 2 = 0 → s.hw.fuses.freeKey = some k → authForm a 2 0 = true → leAt a 32 64 = d.toNat →
      s.hw.authOk a (if s.hw.fuses.keysUsed = 0 then 0 else 1) = true →
      Completes (.keyEnrol p false tag ps) 0x0903 p tag s
        { s.hw.arrived p with fuses := { s.hw.fuses with key := mset s.hw.fuses.key k d } } (leBytes 64 d.toNat))
    ∧ ∃ t, exec (.reset p false tag [0]) s = .next t ∧ t.hw.bring.cause = 2
      ∧ t.hw.bring.stage = (if s.hw.supply.resetLow then 0 else 1) ∧ t.hw.fuses = s.hw.fuses ∧ t.hw.kz.owner = none
      ∧ t.hw.jobs = [] ∧ t.hw.seq = {} ∧ t.hw.results = [] ∧ t.hw.bud = {}
      ∧ (t.hw.portOf p).lastReply = replyBytes 0x0904 tag.toNat false stOK 0 []

/-- O49, REPLY_COLLECTED, NOTIFICATION_DELIVERED, USB_LINK_LOSS, USB_SUSPEND, VBUS_CHANGE, RESULT_RECORD_ACK and INPUT_RECORD. On
a port that can move transfers, the host takes the oldest reply, and the oldest notification with the count of those lost.
Where no command waits on either port and none is in progress: a lost link, and VBUS that goes, take the port down and keep
its replies (what a lost link does to replies and to waiting commands is the model's choice, log 130); no port owns when it
owned, and the other port goes on owning when that did. A port enters U3 and leaves it. VBUS brings a port up whose PLL has
locked. A waiting owner-only command of an owner whose link is lost is answered NOT_OWNER. With no running job, an
acknowledged record of the owner leaves the held records, and FLT_OUT of its job, when that holds the slot, names its tempo.
A transfer of input records on the observer's port is counted and assigned nowhere; a record of the owner that its stream
takes is assigned event by event. (R344, R349, R353, R356, R357, R358, R361, R362) -/
def Obligations.KezilPortEvents : Prop :=
  ∀ (p : Bool) (s : State), ∀ q o, q = s.hw.portOf p → o = s.hw.portOf (!p) →
    (q.live = true → (∀ b r, q.replies = b :: r → q.cmds = [] → o.cmds = [] → q.current = none → o.current = none →
        exec (.replyCollected p) s = .next (s.withHw (s.hw.modPort p fun q => { q with replies := r, lastReply := b })))
      ∧ (∀ n r, q.notes = n :: r → exec (.notificationDelivered p) s = .next (s.withHw (s.hw.modPort p fun q =>
        { q with notes := r, lost := 0, lastNote := noteBytes n q.lost }))))
    ∧ (q.cmds = [] → o.cmds = [] → q.current = none → o.current = none →
      (q.up = true → (∃ t, exec (.usbLinkLoss p false) s = .next t ∧ (t.hw.portOf p).up = false ∧ (t.hw.portOf p).replies = q.replies
          ∧ t.hw.kz.owner = (if s.hw.kz.owner = some p then none else s.hw.kz.owner))
        ∧ (∃ t, exec (.vbusChange p false) s = .next t ∧ (t.hw.portOf p).up = false ∧ (t.hw.portOf p).replies = q.replies
          ∧ t.hw.supply.vbus p = false ∧ t.hw.kz.owner = (if s.hw.kz.owner = some p then none else s.hw.kz.owner))
        ∧ (∀ enter wake, q.suspended = !enter → ∃ t, exec (.usbSuspend p enter wake) s = .next t
          ∧ t.hw.portOf p = { q with suspended := enter, remoteWake := enter && wake, waking := false }))
      ∧ (q.up = false → 2 ≤ s.hw.bring.last → s.hw.isOn (domUsb p) = true → ∃ t, exec (.vbusChange p true) s = .next t
        ∧ t.hw.portOf p = { q with up := true } ∧ t.hw.supply.vbus p = true))
    ∧ (∀ c, q.up = true → s.hw.kz.owner = some p → s.hw.kzOn = true → q.cmds = [c] → ownerOnly c.opcode = true → c.bad = none →
      q.current = none → o.cmds = [] → o.current = none → q.replies.length < 32 → ∃ t, exec (.usbLinkLoss p false) s = .next t
        ∧ (t.hw.portOf p).cmds = [] ∧ (t.hw.portOf p).replies = q.replies ++ [replyBytes c.opcode c.tag c.async stNOTOWNER 0 []]
        ∧ t.hw.kz.owner = none)
    ∧ (q.live = true → s.hw.kz.owner = some p → (∀ r rest, s.hw.results = r :: rest → s.hw.anyJob = false →
        (r.run = (s.hw.jobOf r.slot).run → exec (.resultRecordAck p) s = .next (s.withHw { s.hw with
          results := rest, jobs := mupd {} s.hw.jobs r.slot (fun (k : Job) => { k with outT := r.tempo, outV := true }),
          kz := { s.hw.kz with leaseAt := s.hw.elapsed } }))
        ∧ (r.run ≠ (s.hw.jobOf r.slot).run → exec (.resultRecordAck p) s = .next (s.withHw { s.hw with
          results := rest, kz := { s.hw.kz with leaseAt := s.hw.elapsed } })))
      ∧ (∀ b j t late, 20 ≤ b.length → b.length = recLen b → ∀ h, h = s.hw.wakeDom domHub → h.recTarget b = some (j, t, late) →
        exec (.inputRecord p b) s = .next (s.withHw ((recEvents b).foldl (fun (h : Hw) w =>
          h.assign j (26 + leAt b 4 1) t late (fld w 37 24) (fld w 13 0) (fld w 23 16)) h))))
    ∧ (q.live = true → s.hw.kz.owner ≠ some p → ∀ b, ∃ t, exec (.inputRecord p b) s = .next t
      ∧ (t.hw.portOf p).discarded = satAdd 0xFFFF q.discarded 1 ∧ t.hw.journal = s.hw.journal)

/-- O50, CSI_PACKET. A port that is enabled and ON counts a packet whose header its ECC cannot correct, and one of another
virtual channel, and takes no event of it. A frame start begins a frame, a frame end ends it, and a whole frame since the
port joined its job becomes the reference. A vendor packet with a failed CRC is discarded whole; a good one gives its words
to the tiles in order. A line of a frame in MODE 0, of a port in a job: until a reference frame is held its pixels become the
reference and no event is emitted; after that, a line in which every pixel differs from its reference by less than TH changes
nothing but the line number, and where one pixel x differs by TH or more it becomes the reference and the tile that holds (x,
y) takes its event, of polarity 1 for a brighter pixel and, with GRADED, of the value that GSHIFT and the limits 1 and 255
give. HS tells whether the lanes stay in HS. That every pixel of a port in a job becomes the reference, without an event,
until the first whole frame sets it is the model's choice (log 145); so is what counts as a packet of a frame that is not in
progress and when a line closes a frame (log 144), and what the command says of the lanes (log 181). The error bits that a
packet sets count as set in this cycle (R15). (R484, R485, R487, R488, R15) -/
def Obligations.CameraPackets : Prop :=
  ∀ (n : Fin 8) (vc : Fin 4) (bad crcBad more : Bool) (body : CsiBody) (s : State), ∀ c h, c = s.hw.csiOf n →
    h = (s.hw.touchDom (domCsi n)).modCsi n (fun c => { c with hs := more }) →
    c.en = true → s.hw.isOn (domCsi n) = true →
    (bad = true → exec (.csiPacket n vc bad crcBad more body) s
      = .next (s.withHw (((h.modCsi n fun c => { c with errEcc := satAdd 255 c.errEcc 1, crcEvt := true }).rise (.csi n) 8).irq (198 + n))))
    ∧ (bad = false → vc.val ≠ c.vc → exec (.csiPacket n vc bad crcBad more body) s
      = .next (s.withHw (((h.modCsi n fun c => { c with errIgn := satAdd 255 c.errIgn 1, crcEvt := true }).rise (.csi n) 8).irq (198 + n))))
    ∧ (bad = false → vc.val = c.vc → c.mode = false →
      exec (.csiPacket n vc bad crcBad more .frameStart) s = .next (s.withHw ((h.modCsi n fun c =>
        { c with skip := c.skip || c.inFrame, inFrame := true, line := 0, whole := true, fresh := c.joined.isSome }).rise (.csi n) (if c.inFrame then 16 else 0)))
      ∧ (c.inFrame = true → exec (.csiPacket n vc bad crcBad more .frameEnd) s = .next (s.withHw ((h.modCsi n fun c =>
        { c with inFrame := false, skip := c.skip || !(c.whole && decide (c.height < c.line))
                 refOk := c.refOk || (c.whole && decide (c.height < c.line) && c.fresh && c.joined.isSome) }).rise (.csi n)
          (if c.whole && decide (c.height < c.line) then 0 else 16)))))
    ∧ (bad = false → vc.val = c.vc → c.mode = true → ∀ b : List Byte,
      exec (.csiPacket n vc bad true more (.vendor b)) s
        = .next (s.withHw (((h.modCsi n fun c => { c with errCrc := satAdd 255 c.errCrc 1, crcEvt := true }).rise (.csi n) 8).irq (198 + n)))
      ∧ (∀ j, c.joined = some j → b.length % 4 = 0 → exec (.csiPacket n vc bad false more (.vendor b)) s
        = .next (s.withHw (forAll (List.range (b.length / 4)) (fun i h => h.csiWord n j (leAt b (4 * i) 4)) h))))
    ∧ (bad = false → vc.val = c.vc → c.mode = false → c.inFrame = true → c.line ≤ c.height → ∀ (j : Nat) (px : List (BitVec 10)), c.joined = some j →
      ∀ (key ref diff : Nat → Nat), (∀ x, key x = c.line * (c.width + 1) + x) → (∀ x, ref x = mget 0 c.refPix (key x)) →
      (∀ x v, px[x]? = some v → diff x = (if ref x ≤ v.toNat then v.toNat - ref x else ref x - v.toNat)) →
      ∀ g, g = h.modCsi n (fun c => { c with line := c.line + 1, whole := c.whole && decide (c.width + 1 ≤ px.length) }) →
      (c.refOk = false → ∃ t, exec (.csiPacket n vc bad false more (.raw10 px)) s = .next t ∧ t.hw.journal = s.hw.journal
        ∧ (t.hw.csiOf n).line = c.line + 1 ∧ ∀ x v, x ≤ c.width → px[x]? = some v → mget 0 (t.hw.csiOf n).refPix (key x) = v.toNat)
      ∧ (c.refOk = true → (∀ x v, x ≤ c.width → px[x]? = some v → diff x < c.th) →
        exec (.csiPacket n vc bad false more (.raw10 px)) s = .next (s.withHw g))
      ∧ (c.refOk = true → ∀ x v tile, x ≤ c.width → px[x]? = some v → c.th ≤ diff x →
        (∀ y w, y ≤ c.width → y ≠ x → px[y]? = some w → diff y < c.th) → c.tileFor x c.line = some tile →
        exec (.csiPacket n vc bad false more (.raw10 px)) s = .next (s.withHw
          ((g.modCsi n fun c => { c with refPix := mset c.refPix (key x) v.toNat }).assign j (18 + n) (s.hw.inputTempo j) false (tileGroup tile)
            (tileNeuron tile x c.line (decide (ref x < v.toNat)))
            (if c.graded then Nat.max 1 (Nat.min (diff x / 2 ^ c.gshift) 255) else 0)))))

/-- O51, DMA_START_CHAIN, DMA_STOP_CHAIN, DMA_DESCRIPTOR, DMA_DESCRIPTOR_COMPLETE and DMA_TIMEOUT. A START of an idle channel of
0 to 11 begins its chain at DMA_DESC, and is refused with BUSY while the chain runs; a STOP is noted while it runs; channels
12 to 15 answer both with BUSY. A descriptor in PSRAM that passes its checks and moves 16 aligned bytes within PSRAM writes
them at its destination. A completed descriptor in PSRAM whose WRITE packets are all injected gets its STATUS and DONE there;
the last one ends the chain and sets DONE, one with NEXT goes on unless a STOP is noted. A READ or a FENCE that has waited
longer than DMA_TMO ends the descriptor with TIMEOUT. (R256, R257, R258, R259, R262, R263, R264, R18) -/
def Obligations.DmaChains : Prop :=
  ∀ (ini : Initiator) (c : Fin 16) (s : State), ∀ k, k = s.hw.dmaOf c →
    (s.hw.isOn domHub = true → c.val < 12 → (k.run = false → exec (.dmaStartChain ini c) s = .next (s.withHw
          ((s.hw.modDma c fun k => { k with run := true, stop := false, cur := k.desc, d := none, reads := [], kmode := 0, kezil := none, task := none }).answer 0 stOK)))
      ∧ (k.run = true → exec (.dmaStartChain ini c) s = .next (s.withHw (s.hw.answer 0 stBUSY)))
      ∧ exec (.dmaStopChain ini c) s = .next (s.withHw ((s.hw.modDma c fun k => { k with stop := k.run }).answer 0 stOK)))
    ∧ (s.hw.isOn domHub = true → 12 ≤ c.val → exec (.dmaStartChain ini c) s = .next (s.withHw (s.hw.answer 0 stBUSY))
      ∧ exec (.dmaStopChain ini c) s = .next (s.withHw (s.hw.answer 0 stBUSY)))
    ∧ (∀ d, k.run = true → k.d = none → k.kmode = 0 → k.paused = false → (sideOf k.cur).1 = .psram → k.cur % 64 = 0 →
      s.hw.pscGate k.cur = .serve → reservedOk (s.hw.rd k.cur 64) = true → d = parseDesc k.cur (s.hw.rd k.cur 64) →
      s.hw.descOk d false = true → d.len = 16 → d.barrier = false → d.rowload = false → d.sfix = false → d.dfix = false →
      (sideOf d.src).1 = .psram → (sideOf d.dst).1 = .psram → d.src % 16 = 0 → d.dst % 16 = 0 →
      s.hw.pscGate (d.src % 2 ^ 40) = .serve → s.hw.pscGate (d.dst % 2 ^ 40) = .serve → ∃ t, exec (.dmaDescriptor c) s = .next t
        ∧ t.hw.banks.mem = memWriteN s.hw.banks.mem (d.dst % 2 ^ 40) (memReadN s.hw.banks.mem (d.src % 2 ^ 40) 16)
        ∧ (t.hw.dmaOf c).d = some { d with asked := 16, taken := 16, written := 16, funnel := [] } ∧ (t.hw.dmaOf c).reads = [])
    ∧ (∀ d, k.d = some d → k.complete = true → s.hw.dmaIssued c = true → s.hw.pscGate d.addr = .serve → k.kmode = 0 → k.task = none → d.status = 0 → d.irq = false →
      (sideOf d.addr).1 = .psram → d.addr % 64 = 0 → s.hw.kz.portA.cmds = [] → s.hw.kz.portB.cmds = [] →
      s.hw.kz.portA.current = none → s.hw.kz.portB.current = none → s.hw.kz.running = [] →
      ∃ t, exec (.dmaDescriptorComplete c) s = .next t
        ∧ t.hw.banks.mem = memWriteN s.hw.banks.mem (d.addr + 56) (leBytes 1 0 ++ leBytes 3 0 ++ leBytes 4 d.written)
        ∧ (t.hw.dmaOf c).d = none ∧ (t.hw.dmaOf c).code = 0 ∧ (t.hw.dmaOf c).err = k.err
        ∧ (d.nextV = false → (t.hw.dmaOf c).run = false ∧ (t.hw.dmaOf c).done = true)
        ∧ (d.nextV = true → k.stop = false → (t.hw.dmaOf c).run = true ∧ (t.hw.dmaOf c).cur = d.next ∧ (t.hw.dmaOf c).done = k.done))
    ∧ (∀ d, k.d = some d → d.status = 0 →
      (∃ r, r ∈ k.reads ∧ r.data = none ∧ r.sent + s.hw.dmaTmo < s.hw.elapsed) ∨ (∃ f, f ∈ d.fencing ∧ f.2 + s.hw.dmaTmo < s.hw.elapsed) →
      exec (.dmaTimeout c) s = .next (s.withHw (s.hw.modDma c fun k => { k with
        reads := [], d := some { d with status := stTIMEOUT, asked := d.len, fencing := [], fenced := true } })))

/-- O52, TASK_START, TASK_END, WAIT_TIME_EXPIRY, TASK_DEADLINE and WAIT_TIME_LEAD_REACHED. While the sequencer runs, a cycle of
the arbiter starts the first of the ready tasks in their order, when all of them pass the energy test and have their domains
ON; a class-2 task that fails it alone is deferred with DEFER and a notification. A SWEEP alone in task memory enables its
JOB_ID and is DONE in that cycle. Of a task alone in task memory: a DMA task starts the chain at its address on the channel
it takes, which is paused while throttling is in force if it is one of 12 to 15. A TEMPO_RUN on squares of a running job ends
FAILED with BUSY; else it takes a free job slot: one without a sweep for its JOB_ID, or on a fenced or an unloaded square,
ends FAILED with the status that says so; one whose roots and send tables can be read starts its job (shown with no EVENT
packet in the inboxes of its squares), with its parameters, the snapshot of the tempo before T0, and ledgers for T0, and its
squares keep the root as it stands. A LOAD_SQUARE whose checks fail ends FAILED with their status and changes no square; with
checks that pass, a loaded square that serves and owes something drains first, and one that is absent or has no network is
written at once, the task ending with the status of the write. A DRAIN_SQUARE on squares of a running job ends FAILED with
BUSY; else squares that owe something drain, and a square that owes nothing becomes ABSENT, loses its network and closes its
queues, and the task that drains it alone without a spill ends DONE. A CHECK task whose runs found nothing, with no clock of
its squares gated, and a WAIT_TIME task whose time has come, end DONE with status OK. A task past its deadline is late, and
one notification says so. A WAIT_TIME within BUD_LEAD has the domains of what waits for it brought ON. (R271, R274, R277,
R278, R279, R283, R284, R302, R318, R228, R322, R63) -/
def Obligations.TasksStartAndEnd : Prop :=
  ∀ s : State,
    (s.hw.seq.run = true → (∀ t k rest, s.hw.eligible = (t, k) :: rest →
        (∀ x, x ∈ s.hw.eligible → (x.2.cls = 0 ∨ s.hw.passes x.2 = true) ∧ (s.hw.taskDomains x.2).all (fun d => s.hw.isOn d) = true) →
        exec .taskStart s = .next (s.withHw (s.hw.launch t k)))
      ∧ (∀ t k, s.hw.eligible = [(t, k)] → s.hw.taskOf t = some k → k.cls = 2 → s.hw.passes k = false → k.episode = false →
        ∃ u, exec .taskStart s = .next u ∧ u.hw.taskOf t = some { k with deferred := true, episode := true } ∧ u.hw.bud.defer = true ∧ (u.hw.rose .budget).testBit 0 = true)
      ∧ (∀ t k, s.hw.seq.tasks = [(t, k)] → k.state = .ready → k.ty = tySweep → k.cls = 0 → k.mask = 0 → k.notify = false → k.irq = false →
        s.hw.seq.sweeps.contains (k.param 0 4) = false → s.hw.seq.sweeps.length < 4 → s.hw.kz.portA.current = none →
        s.hw.kz.portB.current = none → s.hw.kz.running = [] → ∃ u, exec .taskStart s = .next u
          ∧ u.hw.seq.sweeps = s.hw.seq.sweeps ++ [k.param 0 4]
          ∧ u.hw.seq.tasks = [(t, { k with state := .done, status := 0, time := s.hw.tb.now, episode := false })])
      ∧ (∀ t k, s.hw.eligible = [(t, k)] → s.hw.seq.tasks = [(t, k)] → k.cls = 0 → (s.hw.taskDomains k).all (fun d => s.hw.isOn d) = true →
        s.hw.kz.portA.current = none → s.hw.kz.portB.current = none → s.hw.kz.portA.cmds = [] → s.hw.kz.portB.cmds = [] → s.hw.kz.running = [] →
        ∀ r : Task, r = { k with state := .running, time := s.hw.tb.now, episode := false } →
        ∀ ends : Hw → Nat → Prop, ends = (fun h st => (h.taskOf t).map (fun y => (y.state, y.status)) = some (if st = stOK then .done else .failed, st)) →
        (∀ c, k.ty = tyDmaTask → s.hw.dmaChannel k = some c → ∃ u, exec .taskStart s = .next u
          ∧ u.hw.taskOf t = some { r with chan := c }
          ∧ u.hw.dmaOf c = { (s.hw.dmaOf c) with desc := k.param 8 5, run := true, stop := false, cur := k.param 8 5, d := none, reads := [], kmode := 0, kezil := none, task := some t, paused := if 12 ≤ c then u.hw.bud.throttle else (s.hw.dmaOf c).paused })
        ∧ (k.ty = tyTempoRun → (s.hw.jobOverlap k.mask = true → ∃ u, exec .taskStart s = .next u ∧ ends u.hw stBUSY ∧ u.hw.jobs = s.hw.jobs)
          ∧ (∀ j, s.hw.jobOverlap k.mask = false → s.hw.freeSlot = some j →
            (s.hw.runRefused k ≠ stOK → ∃ u, exec .taskStart s = .next u ∧ ends u.hw (s.hw.runRefused k))
            ∧ (s.hw.runRefused k = stOK → s.hw.rootLost k = none → (∀ q, q ∈ k.sqs → ∀ e, e ∈ (s.hw.sqOf q).inbox → e.pkt.ty ≠ 0) →
              ∃ u, exec .taskStart s = .next u ∧ u.hw.taskOf t = some { r with jslot := j }
                ∧ (u.hw.jobOf j).active = true ∧ (u.hw.jobOf j).tid = t ∧ (u.hw.jobOf j).jobId = k.param 0 4 ∧ (u.hw.jobOf j).mask = k.mask
                ∧ (u.hw.jobOf j).ntempo = k.param 4 4 ∧ (u.hw.jobOf j).t0 = k.param 8 6 ∧ (u.hw.jobOf j).startAt = k.param 24 8
                ∧ (u.hw.jobOf j).period = (if k.param 16 4 = 0 then 50000 else k.param 16 4) ∧ (u.hw.jobOf j).released = false
                ∧ (u.hw.jobOf j).snapV = true ∧ (u.hw.jobOf j).snapT = (k.param 8 6 + (2 ^ 48 - 1)) % 2 ^ 48
                ∧ ∀ q, q ∈ k.sqs → (u.hw.sqOf q).root = some (s.hw.rd (sqMem q + 0x1FFFC0) 64) ∧ (u.hw.sqOf q).ledgerT = some (k.param 8 6)
                  ∧ (u.hw.sqOf q).flt.snapAt = (k.param 8 6 + (2 ^ 48 - 1)) % 2 ^ 48)))
        ∧ (∀ q rest, k.ty = tyLoad → s.hw.squareRefused k = stOK → k.sqs = q :: rest → s.hw.loadHeld k = false →
          ((s.hw.loadChecks q k).1 ≠ stOK → ∃ u, exec .taskStart s = .next u ∧ ends u.hw (s.hw.loadChecks q k).1
            ∧ ∀ x, (u.hw.rtOf x).state = (s.hw.rtOf x).state ∧ (u.hw.sqOf x).loaded = (s.hw.sqOf x).loaded)
          ∧ ((s.hw.loadChecks q k).1 = stOK → (s.hw.rtOf q).state = .normal → (s.hw.sqOf q).loaded = true → s.hw.owesNothing q = false →
            ∃ u, exec .taskStart s = .next u ∧ (u.hw.rtOf q).state = .draining ∧ u.hw.taskOf t = some r)
          ∧ (∀ x y, s.hw.loadChecks q k = (stOK, some x) → (s.hw.rtOf q).state = .absent ∨ (s.hw.sqOf q).loaded = false →
            y = (((s.hw.modTask t fun _ => r).repoint k.mask).touchLoad k).loadWrite q x →
            ∃ u, exec .taskStart s = .next u ∧ ends u.hw y.2 ∧ (u.hw.rtOf q).state = (y.1.rtOf q).state
              ∧ (u.hw.sqOf q).loaded = (y.2 == stOK) ∧ (y.2 = stOK → (u.hw.rtOf q).state = .normal ∧ (u.hw.sqOf q).digest = x.digest)))
        ∧ (k.ty = tyDrain → (s.hw.jobOverlap k.mask = true → ∃ u, exec .taskStart s = .next u ∧ ends u.hw stBUSY)
          ∧ (s.hw.jobOverlap k.mask = false → (k.param 13 1).testBit 0 = false →
            (k.sqs ≠ [] → (∀ q, q ∈ k.sqs → (s.hw.rtOf q).state ≠ .absent ∧ s.hw.owesNothing q = false) →
              ∃ u, exec .taskStart s = .next u ∧ u.hw.taskOf t = some r ∧ ∀ q, q ∈ k.sqs → (u.hw.rtOf q).state = .draining)
            ∧ (∀ q, k.sqs = [q] → (s.hw.rtOf q).state ≠ .absent → s.hw.owesNothing q = true → ∃ u, exec .taskStart s = .next u ∧ ends u.hw stOK
              ∧ (u.hw.rtOf q).state = .absent ∧ (u.hw.sqOf q).loaded = false ∧ ∀ l i, l < 18 → i < 4 → (u.hw.queueOf q l i).open_ = false)))))
    ∧ (∀ (t : Fin 4096) k, s.hw.seq.tasks = [(t.val, k)] → k.state = .running → s.hw.kz.portA.current = none →
      s.hw.kz.portB.current = none → s.hw.kz.portA.cmds = [] → s.hw.kz.portB.cmds = [] → s.hw.kz.running = [] →
      ∀ e : Task, e = { k with state := .done, status := 0, time := s.hw.tb.now, episode := false } →
      (k.ty = tyCheck → (∀ q, q ∈ k.sqs → (s.hw.sqOf q).gated = false) → ∃ u, exec (.taskEnd t []) s = .next u ∧ u.hw.seq.tasks = [(t.val, e)])
      ∧ (k.ty = tyWaitTime → k.waitUntil ≤ s.hw.tb.now → ∃ u, exec (.waitTimeExpiry t) s = .next u ∧ u.hw.seq.tasks = [(t.val, e)]))
    ∧ (∀ (t : Fin 4096) k d, s.hw.taskOf t = some k →
      (k.dueAt = some d → k.state = .ready ∨ k.state = .running → k.lateSent = false → d < s.hw.tb.now →
        exec (.taskDeadline t) s = .next (s.withHw
          (((s.hw.modTask t fun k => { k with late := true, lateSent := true }).irq 1).noteBoth ⟨3, stLATE, t, s.hw.tb.now, d, []⟩)))
      ∧ (k.state = .running → k.ty = tyWaitTime → k.waitUntil ≤ s.hw.tb.now + 1000 * s.hw.bud.leadUs →
        exec (.waitTimeLeadReached t) s = .next (s.withHw s.hw.wakeAhead)))

/-- O53, WINDOW_START, POWER_SAMPLE, TEMP_SAMPLE and DVFS_RAISE_COMPLETE. With no descriptor in progress on a DMA channel: a
window start moves the energy of the window just ended into the history, begins an empty window at a whole millisecond, and
limits it so that neither BUD_WINDOW nor 1,200,000 µJ over 20 windows is exceeded. A power sample adds its energy to the
window, sets C0_OVER when the work that is never throttled first passes 60,000 µJ, and throttles above 720 µJ. A temperature
sample is kept; the square is hot from 3 °C below the limit, and without a running job 125 °C sets TRIP. When a raise that
has begun completes, the square switches to its new point with a pause of 64 cycles, at once or at the tempo start that it
waits for; a square that has become hot meanwhile and is in no job of class 0 stays at its point. (R285, R287, R288, R289,
R290, R291, R294) -/
def Obligations.PowerAccounting : Prop :=
  ∀ s : State,
    ((∀ c : Fin 16, (s.hw.dmaOf c).d = none) →
      (∀ temps, ∃ t, exec (.windowStart temps) s = .next t ∧ t.hw.bud.emNow = 0 ∧ t.hw.bud.emPrev = s.hw.bud.emNow
        ∧ t.hw.bud.hist = (s.hw.bud.emNow :: s.hw.bud.hist).take 20 ∧ t.hw.bud.winStart = s.hw.tb.now / 1000000 * 1000000
        ∧ t.hw.bud.sqPrev = s.hw.bud.sqNow ∧ t.hw.bud.c0Now = 0 ∧ t.hw.bud.winLimit ≤ (s.hw.bud.limit : Int)
        ∧ t.hw.bud.winLimit + ((t.hw.bud.hist.take 19).sum : Nat) ≤ 1200000)
      ∧ (∀ e sqs c0, ∃ t, exec (.powerSample e sqs c0) s = .next t ∧ t.hw.bud.emNow = s.hw.bud.emNow + e
        ∧ t.hw.bud.c0Now = s.hw.bud.c0Now + c0
        ∧ t.hw.bud.c0Over = (s.hw.bud.c0Over || decide (s.hw.bud.c0Now ≤ 60000 ∧ 60000 < s.hw.bud.c0Now + c0))
        ∧ (720 < e → t.hw.bud.throttle = true)))
    ∧ (∀ (q : Fin 64) (x : Int), (x < 125 ∨ s.hw.anyJob = false) → ∃ t, exec (.tempSample q x) s = .next t ∧ (t.hw.sqOf q).temp = x
      ∧ t.hw.bud.hot.contains q.val = decide ((s.hw.bud.tlim : Int) - 3 ≤ x) ∧ t.hw.bud.trip = (s.hw.bud.trip || decide (125 ≤ x)))
    ∧ (∀ (q : Fin 64) p, (s.hw.sqOf q).raising = some p → (∀ n, Transition.dvfs q n true ∉ s.hw.power.waiting) →
      (s.hw.awaitsStart q = false → s.hw.heldLow q = false → exec (.dvfsRaiseComplete q) s = .next (s.withHw (s.hw.modSq q fun k =>
          { k.account s.hw.elapsed with dvfsCur := p, pauses := k.pauses + 64, raising := none, volt := none })))
      ∧ (s.hw.awaitsStart q = false → s.hw.heldLow q = true → exec (.dvfsRaiseComplete q) s
        = .next (s.withHw (s.hw.modSq q fun k => { k with raising := none })))
      ∧ (s.hw.awaitsStart q = true → exec (.dvfsRaiseComplete q) s
        = .next (s.withHw (s.hw.modSq q fun k => { k with raising := none, volt := some p }))))

/-- O54, DOMAIN_IDLE_ENTRY, DOMAIN_TRANSITION_BEGIN, DOMAIN_TRANSITION_DONE, PWR_REQ_WRITE and WAKE_REQUEST. A loaded square that
is ON, runs nothing, is neither pinned nor held, and whose last wake and last use are both BUD_IDLE ago, is asked to RETAIN.
The first waiting transition begins when its slope fits beside the ramps in progress, and waits otherwise; a square's compute
clock stops as it begins, and its router drains on the way to OFF, from ON with what has reached the square still served; a
step of a DVFS change takes 0.08 A/µs and 500 ns for each of its points; one to OFF of a domain that is to stay out of OFF is
dropped. A PSRAM pair that does not come from OFF, and a square on its way from RETAIN to ON, arrive in their new state when
nothing waits for them. PWR_REQ asks a domain ON (a fused-off square answers BUSY), or to RETAIN or OFF where neither a pin
nor a rule keeps it, and is refused with BUSY there; a request for the state in force only drops what waits. A wake takes a
domain in RETAIN or OFF to ON, cancels an entry that waits, and is latched during an entry. (R33, R34, R295, R296, R297,
R300, R303) -/
def Obligations.PowerDomains : Prop :=
  ∀ s : State,
    (∀ q : Fin 64, (s.hw.sqOf q).loaded = true → s.hw.jobOfSq q = none → s.hw.heldBy q = none → s.hw.pinned q = false →
      ∀ k, k = s.hw.domOf q → k.state = .on → k.moving = none → k.held = none → waitsFor s.hw.power.waiting q = false →
      k.wokeAt.all (fun w => decide (w + 1000 * s.hw.bud.idleUs ≤ s.hw.elapsed)) = true → k.lastUse + 1000 * s.hw.bud.idleUs ≤ s.hw.elapsed →
      exec (.domainIdleEntry (q.castLE (by decide))) s = .next (s.withHw (s.hw.askDomain q .retain)))
    ∧ (∀ (d : Nat) v rest ramps h, s.hw.power.waiting = .domain d v :: rest → (s.hw.domOf d).moving = none → (s.hw.domOf d).state ≠ v →
      (v = .off → s.hw.keepsOn d = false) → ramps = s.hw.power.ramps.filter (fun r => decide (s.hw.elapsed < r.until_)) →
      h = ({ s.hw with power := { s.hw.power with
        waiting := rest, ramps := ramps ++ [({ slope := (rampOf d).1, until_ := s.hw.elapsed + (rampOf d).2 } : Ramp)] } }.modDom d fun k => { k with moving := some v }) →
      ((ramps.map (·.slope)).sum + (rampOf d).1 ≤ s.hw.bud.didt * 10 →
        (64 ≤ d → d ≠ domTb → exec .domainTransitionBegin s = .next (s.withHw h))
        ∧ (d < 64 → ∀ g, g = h.modSq d (fun q => { q.account s.hw.elapsed with clkOff := true }) →
          (v ≠ .off → exec .domainTransitionBegin s = .next (s.withHw g))
          ∧ (v = .off → (s.hw.rtOf d).state = .normal → exec .domainTransitionBegin s = .next (s.withHw ((g.setRtState d .draining).modSq d fun q =>
            { q with inbox := q.inbox.map fun e => { e with owed := (s.hw.domOf d).state == .on } })))))
      ∧ (s.hw.bud.didt * 10 < (ramps.map (·.slope)).sum + (rampOf d).1 → exec .domainTransitionBegin s = .next s))
    ∧ (∀ q n up rest, s.hw.power.waiting = .dvfs q n up :: rest → ∀ ramps,
      ramps = s.hw.power.ramps.filter (fun r => decide (s.hw.elapsed < r.until_)) → (ramps.map (·.slope)).sum + 80 ≤ s.hw.bud.didt * 10 →
      exec .domainTransitionBegin s = .next (s.withHw { s.hw with power := { s.hw.power with
        waiting := rest, ramps := ramps ++ [({ slope := 80, until_ := s.hw.elapsed + 500 * n } : Ramp)] } }))
    ∧ (∀ (d : Nat) rest, s.hw.power.waiting = .domain d .off :: rest → (s.hw.domOf d).moving = none → s.hw.keepsOn d = true →
      exec .domainTransitionBegin s = .next (s.withHw { s.hw with power := { s.hw.power with waiting := rest } }))
    ∧ (∀ (d : Fin 91) v, ∀ k, k = s.hw.domOf d → k.moving = some v → k.wake = false → s.hw.heldAcc = [] →
      (∀ c : Fin 16, (s.hw.dmaOf c).d = none) → s.hw.kz.portA.cmds = [] → s.hw.kz.portB.cmds = [] → s.hw.kz.portA.current = none →
      s.hw.kz.portB.current = none → (∀ x, x ∈ s.hw.kz.running → x.wait ≠ .retry) → s.hw.noTaskWaits → ∀ h, h = (s.hw.modDom d fun k => { k with
        state := v, moving := none, wake := false, lastUse := s.hw.elapsed, wokeAt := if v = .on then some s.hw.elapsed else k.wokeAt }) →
      (64 ≤ d.val ∧ d.val < 72 ∧ v ≠ .off ∧ (v = .on → k.state = .retain) → exec (.domainTransitionDone d) s = .next (s.withHw h))
      ∧ (d.val < 64 ∧ v = .on ∧ k.state = .retain → exec (.domainTransitionDone d) s
        = .next (s.withHw (h.modSq d fun q => { q.account s.hw.elapsed with clkOff := false }))))
    ∧ (∀ (ini : Initiator) (v : Word) (d : Nat), d = fld v.toNat 6 0 → d < 91 →
      (fld v.toNat 9 8 = 0 → (d < 64 ∧ (s.hw.sqOf d).fused = true → exec (.pwrReqWrite ini v) s = .next (s.withHw (s.hw.answer 0 stBUSY)))
        ∧ ((d < 64 → (s.hw.sqOf d).fused = false) → exec (.pwrReqWrite ini v) s
          = .next (s.withHw ((((s.hw.dropAsk d).wakeDom d).modDom d fun k => { k with held := some .on }).answer 0 stOK))))
      ∧ (∀ x h, fld v.toNat 9 8 = 1 ∧ x = PwrState.retain ∨ fld v.toNat 9 8 = 2 ∧ x = .off →
        h = s.hw.modDom d (fun k => { k with held := some x }) →
        (s.hw.pinned d = true ∨ (x = .off ∧ s.hw.keepsOn d = true) → exec (.pwrReqWrite ini v) s = .next (s.withHw (s.hw.answer 0 stBUSY)))
        ∧ (s.hw.pinned d = false → (x = .off → s.hw.keepsOn d = false) →
          ((s.hw.domOf d).moving.getD (s.hw.domOf d).state = x → exec (.pwrReqWrite ini v) s = .next (s.withHw ((h.dropAsk d).answer 0 stOK)))
          ∧ ((s.hw.domOf d).moving.getD (s.hw.domOf d).state ≠ x → exec (.pwrReqWrite ini v) s
            = .next (s.withHw ((h.askDomain d x).answer 0 stOK))))))
    ∧ (∀ d : Fin 91, (d.val < 64 → (s.hw.sqOf d).fused = false) → ∀ k h, k = s.hw.domOf d →
      h = s.hw.modDom d (fun k => { k with held := none, wokeAt := some s.hw.elapsed }) →
      (k.moving = none → k.state ≠ .on → exec (.wakeRequest d) s = .next (s.withHw (h.askDomain d .on)))
      ∧ (k.moving = none → k.state = .on → exec (.wakeRequest d) s
        = .next (s.withHw { h with power := { h.power with waiting := dropWait s.hw.power.waiting d } }))
      ∧ (k.moving = some .on → exec (.wakeRequest d) s = .next (s.withHw h))
      ∧ (k.moving = some .retain ∨ k.moving = some .off → exec (.wakeRequest d) s = .next (s.withHw (h.modDom d fun k => { k with wake := true }))))

/-- O55, RESTART_PURGE_DONE, RESTORE_START and RESTORE_DONE. Step 2 of a restart of a job without a unit to fence and without a
marked link leaves no EVENT packet in the inboxes of its squares, and every other packet there, and goes on to step 2: R332
says that the inboxes are emptied; that this means the EVENT packets alone is the model's choice (log 73). At least 4 µs
after step 1, with no record of the job's run held and no other point named, step 3 begins. A job of one square whose only
dirty unit is one row that the Mirror tier holds readable, and which was not released, gets the row back from the Mirror
tier, no unit stays dirty, and the restart is over, when what its checks saw passes. (R332, R333, R337, R334) -/
def Obligations.RestartSteps : Prop :=
  ∀ (j : Fin 4) (s : State), ∀ k r, k = s.hw.jobOf j → k.active = true → k.restart = some r →
    (r.step = 1 → r.flip = false → (∀ n : Fin 6, (s.hw.linkOf n).jobs.testBit j = false) →
      (∀ q : Fin 64, k.mask.testBit q = true → (s.hw.sqOf q).flt.fenceAt2 = [] ∧ (s.hw.sqOf q).flt.fenceSq = false
        ∧ (s.hw.sqOf q).flt.fenceRt = false ∧ (s.hw.sqOf q).flt.shadowOut = false) → ∃ t, exec (.restartPurgeDone j) s = .next t
      ∧ (t.hw.jobOf j).restart = some { r with step := 2 } ∧ (t.hw.jobOf j).injected = false
      ∧ ∀ q : Fin 64, k.mask.testBit q = true → (t.hw.sqOf q).inbox = (s.hw.sqOf q).inbox.filter (fun e => e.pkt.ty != tyEVENT))
    ∧ (r.step = 2 → r.at_ + 4000 ≤ s.hw.elapsed → r.named = none → k.pendHdr = none → (∀ x, x ∈ s.hw.results → x.slot ≠ j.val ∨ x.run ≠ k.run) →
      exec (.restoreStart j) s = .next (s.withHw (s.hw.modJob j fun k =>
        { k with firstDue := true, afterRst := true, restart := some { r with step := 3 } })))
    ∧ (∀ (q : Fin 64) (l row : Nat) (seen : List (Fin 64 × Seen)), (∀ x, x ∈ seen → x.1 = q → s.hw.seenFault q x.2 = none) → r.step = 3 → k.released = false → k.mask = 2 ^ q.val → (s.hw.sqOf q).flt.dirty = [.row l row] →
      (s.hw.sqOf q).flt.pend = [] → (s.hw.sqOf q).moved = [] → (s.hw.sqOf q).usedSlots = [] → (s.hw.rtOf q).state ≠ .sink → s.hw.unreadable j q = none →
      ∃ t, exec (.restoreDone j seen) s = .next t ∧ (t.hw.jobOf j).restart = none ∧ (t.hw.sqOf q).flt.dirty = []
        ∧ t.hw.banks.mem = (s.hw.rowNeurons q l row).foldl
            (fun m n => memWriteN m (s.hw.recAddr q l n) (memReadN m (s.hw.mirRec q l n) 32)) s.hw.banks.mem)

/-- O56, ECC_WRITEBACK, ROW_REPAIR, SQ_BANKREQ_WRITE and BANK_GROUP_TRANSITION_DONE. A corrected word of a square is counted and
noted for its row, and memory reads as before; where the word as its bank hands it on does not match the parity added to it,
a word of a bank group is one that the next read of it cannot use, and no job is restarted before that (that the word is
noted so, and that no restart comes before its next read, is the model's choice, log 65). Which words of memory a row covers
is the model's choice (log 27). A row without an uncorrectable read and with fewer than four corrected ones in 10 s stays;
one with four, in a bank with a spare row, is entered in the soft repair table and takes a spare row, and memory and poison
stay; an uncorrectable read in a square without a job, or by a reload check, does the same, poisons the words that cannot be
corrected and takes no job to a restart. SQ_BANKREQ takes a bank group of an ON square toward ON, RETAIN or OFF, or leaves it
there; OFF in a loaded square, and RETAIN or OFF under a job, are refused with BUSY but for an unused or fenced slot. A bank
group arrives in its state, ON only with its domain ON; one that leaves or enters OFF is wiped, and one that was woken on its
way goes on to ON. (R306, R395, R396, R397, R402, R403, R404) -/
def Obligations.RowsAndBankGroups : Prop :=
  ∀ (u : Fin 64) (g : Fin 28) (b : Fin 16) (r : Fin 2048) (s : State), ∀ sp, sp = mget 0 s.hw.banks.spare (bankKey u g b) →
    (∃ t, exec (.eccWriteback (u.castLE (by decide)) (g.castLE (by decide)) b r none) s = .next t ∧ t.hw.banks.mem = s.hw.banks.mem
        ∧ (t.hw.sqOf u).flt.eccCount = satAdd 0xFFFF (s.hw.sqOf u).flt.eccCount 1 ∧ (t.hw.sqOf u).flt.sticky.testBit 22 = true
        ∧ mget [] t.hw.banks.corr (rowKey u g b r) = recent s.hw.tb.now (mget [] s.hw.banks.corr (rowKey u g b r)) ++ [s.hw.tb.now]
        ∧ ∀ i w par, (pathOk w par = true → exec (.eccWriteback (u.castLE (by decide)) (g.castLE (by decide)) b r (some (i, w, par))) s = .next t)
          ∧ (pathOk w par = false → isBank u g b = true → ∃ x, exec (.eccWriteback (u.castLE (by decide)) (g.castLE (by decide)) b r (some (i, w, par))) s = .next x
            ∧ x.hw.banks.mem = s.hw.banks.mem ∧ x.hw.jobs = s.hw.jobs ∧ (x.hw.eccAt (8 * (rowAddr u g b r / 8 + i)) 8).isSome))
    ∧ (∀ bad ck n, n = (recent s.hw.tb.now (mget [] s.hw.banks.corr (rowKey u g b r))).length →
      (n < 4 → exec (.rowRepair (u.castLE (by decide)) (g.castLE (by decide)) b r bad false ck) s = .next s)
      ∧ (sp < spareRows u g → s.hw.banks.soft.length < 64 →
        (4 ≤ n → ∃ t, exec (.rowRepair (u.castLE (by decide)) (g.castLE (by decide)) b r bad false ck) s = .next t
          ∧ t.hw.banks.soft = s.hw.banks.soft ++ [⟨u, g, b, r⟩] ∧ mget 0 t.hw.banks.spare (bankKey u g b) = sp + 1
          ∧ t.hw.banks.mem = s.hw.banks.mem ∧ t.hw.banks.poison = s.hw.banks.poison)
        ∧ (s.hw.jobOfSq u = none ∨ ck ≠ none → (s.hw.sqOf u).flt.pend = [] →
          ∃ t, exec (.rowRepair (u.castLE (by decide)) (g.castLE (by decide)) b r bad true ck) s = .next t
          ∧ t.hw.banks.soft = s.hw.banks.soft ++ [⟨u, g, b, r⟩] ∧ t.hw.banks.mem = s.hw.banks.mem ∧ t.hw.jobs = s.hw.jobs
          ∧ ∀ w, w ∈ bad → w < rowLen g / 8 → t.hw.banks.poison.contains (rowAddr u g b r / 8 + w) = true)))
    ∧ (∀ (ini : Initiator) (v : Word) (x : PwrState) (q : Square), q = s.hw.sqOf u → s.hw.sqServes u → fld v.toNat 4 0 = g.val →
      fld v.toNat 6 5 = 0 ∧ x = .on ∨ fld v.toNat 6 5 = 1 ∧ x = .retain ∨ fld v.toNat 6 5 = 2 ∧ x = .off →
      (q.idleSlot g = false → (x = .off ∧ q.loaded = true) ∨ (x ≠ .on ∧ s.hw.jobOfSq u ≠ none) →
        exec (.sqBankreqWrite ini u v) s = .next (s.withHw (s.hw.answer 0 stBUSY)))
      ∧ (x = .on ∨ q.idleSlot g = true ∨ (s.hw.jobOfSq u = none ∧ (x = .off → q.loaded = false)) → ∀ k, k = q.bankOf g →
        exec (.sqBankreqWrite ini u v) s = .next (s.withHw ((s.hw.modSq u fun q => q.setBank g fun b => { b with
          moving := if k.state = x ∧ k.moving = none then none else some x, reqOn := fld v.toNat 6 5 == 0 }).answer 0 stOK))))
    ∧ (∀ x (old : BankGroup), old = (s.hw.sqOf u).bankOf g → old.moving = some x → s.hw.heldAcc = [] →
      (∀ c : Fin 16, (s.hw.dmaOf c).d = none) → (x = .on → (s.hw.domOf u).state = .on) →
      ∀ h, h = (if old.state = .off ∨ x = .off then s.hw.wipe (bankRange u g).1 (bankRange u g).2 else s.hw) →
      exec (.bankGroupTransitionDone u g) s = .next (s.withHw (h.modSq u fun q => q.setBank g fun b => { b with
        state := x, moving := if old.wake = true ∧ x ≠ .on then some .on else none, wake := false })))

/-- O57, PSRAM_DRIFT_CHECK, PSRAM_RETRAIN_DONE, PSRAM_RETRAIN_TIMEOUT and JOURNAL_PAGE_WRITE. With no channel waiting to retrain,
and no descriptor, task or command whose access to PSRAM is held: a drift check, run PERIOD ms or more after the one before,
begins to retrain the one ready channel whose drift is above DRIFT, and retrains none when there is none. Before PERIOD ms
are over it changes nothing (the first is counted from reset: log 179). A retrain that ends makes the channel ready, counts,
sets its event bit, which counts as set in this cycle (R15), and signals source 208 + k: R412 gives the signal for a channel
that fails, and that a good end signals too is the model's choice (log 110). One that has not ended when more than 400 µs are
over goes on at the next lower frequency, and at the lowest fails the channel and sets its sticky bit. The next page of the
incident journal, when its channel serves, is written with the result records that wait and fit, or with the input entries of
a job that wait and fit, and the ring moves on. (R411, R412, R413, R414, R416, R15, R18) -/
def Obligations.PsramInService : Prop :=
  ∀ (k : Fin 16) (s : State), s.hw.psc.queue = [] → (∀ c : Fin 16, (s.hw.dmaOf c).d = none) → s.hw.noTaskWaits →
    s.hw.kz.portA.cmds = [] → s.hw.kz.portB.cmds = [] → s.hw.kz.portA.current = none → s.hw.kz.portB.current = none →
    (∀ x, x ∈ s.hw.kz.running → x.wait ≠ .retry) →
    (∀ drifts, (∀ x : Fin 16, (s.hw.chanOf x).state = 0 ∧ ((s.hw.bud.tcp - (s.hw.chanOf x).tcpAt).natAbs ≤ s.hw.psc.dtemp)
        ∧ (x ≠ k → mget 0 drifts x ≤ s.hw.psc.drift)) →
      ∀ h, h = ({ s.hw with psc := { s.hw.psc with driftAt := s.hw.elapsed } } : Hw) →
      (s.hw.psc.driftAt + s.hw.psc.period * 1000000 ≤ s.hw.elapsed →
        (s.hw.psc.drift < mget 0 drifts k → exec (.psramDriftCheck drifts) s
          = .next (s.withHw (h.modChan k fun c => { c with state := 2, began := s.hw.elapsed })))
        ∧ (mget 0 drifts k ≤ s.hw.psc.drift → exec (.psramDriftCheck drifts) s = .next (s.withHw h)))
      ∧ (s.hw.elapsed < s.hw.psc.driftAt + s.hw.psc.period * 1000000 → exec (.psramDriftCheck drifts) s = .next s))
    ∧ ((s.hw.chanOf k).state = 2 → (∀ w, exec (.psramRetrainDone k w) s = .next (s.withHw (((s.hw.modChan k fun c => { c with
          state := 0, rtEvt := true, win := w % 256, retrains := satAdd 0xFFFF c.retrains 1, tcpAt := s.hw.bud.tcp }).rise (.psc k) 16).irq (208 + k))))
      ∧ ((s.hw.chanOf k).began + 400000 < s.hw.elapsed →
        ((s.hw.chanOf k).freq < 2 → exec (.psramRetrainTimeout k) s
          = .next (s.withHw (s.hw.modChan k fun c => { c with freq := c.freq + 1, began := s.hw.elapsed })))
        ∧ (2 ≤ (s.hw.chanOf k).freq → ∃ t, exec (.psramRetrainTimeout k) s = .next t ∧ (t.hw.chanOf k).state = 3
          ∧ t.hw.flt.sticky1 = s.hw.flt.sticky1 ||| 2 ^ (6 + k.val))))
    ∧ (∀ i, i = s.hw.psc.jpage → i < s.hw.psc.pages → (s.hw.chanOf (i % 16)).state = 0 → s.hw.isOn (domPsc (i % 16 / 2)) = true →
      ∀ a, a = s.hw.journalBase + 1024 * i →
      (∀ x : List Byte, s.hw.psc.outWait = [x] → s.hw.psc.outPos = 0 → x.length ≤ 1004 → (∀ j : Fin 4, mget [] s.hw.psc.inWait j = []) →
        ∃ t, exec .journalPageWrite s = .next t ∧ t.hw.banks.mem = memWriteN s.hw.banks.mem a (journalPage 2 0 0 s.hw.psc.jseq x)
          ∧ t.hw.psc = { s.hw.psc with outWait := [], outPos := 0, jpage := (i + 1) % s.hw.psc.pages, jseq := (s.hw.psc.jseq + 1) % 2 ^ 48 })
      ∧ (∀ (j : Fin 4) l, firstOf [0, 1, 2, 3] s.hw.inWaiting = some j.val → l = mget [] s.hw.psc.inWait j → l.length ≤ 125 → s.hw.seq.tasks = [] →
        ∃ t, exec .journalPageWrite s = .next t
          ∧ t.hw.banks.mem = memWriteN s.hw.banks.mem a (journalPage 1 0 j s.hw.psc.jseq l.flatten)
          ∧ t.hw.psc = { s.hw.psc with inWait := mset s.hw.psc.inWait j [], jpage := (i + 1) % s.hw.psc.pages, jseq := (s.hw.psc.jseq + 1) % 2 ^ 48 }))

/-- O58, STAGE_S1 to STAGE_S8. The stage in progress that finds nothing wrong ends with OK and the next one begins. S1 fuses
squares off as SQ_FUSED says, and stops with PARITY when the factory CRC is wrong. S2 brings up the ports that have VBUS, and
a square whose PLL does not lock is fenced and counted, also when another PLL stops the stage. S3 wipes memory but the
staging region, which it wipes only after a life-cycle transition, and a PSRAM device that fails stops it with ECC after the
wipe of the SRAM banks alone (log 194). S4 runs the image it has chosen and wipes the staging region. S6 leaves each channel
ready at the highest frequency at which its window reaches 0.25 UI, also when another channel fails and stops the stage. S7
ends with every link port disabled. S8 makes the module ready. (R420, R421, R425, R427, R428, R434, R436, R437, R402, R406,
R410, R438) -/
def Obligations.BringUpStages : Prop :=
  ∀ s : State,
    (s.hw.inStage 1 = true → ∀ f, f = s.hw.fuses.complete →
      (f.crcOf = f.crc → f.gradeOk = true → Config.sha3 (Config.mlDsaPublicKey f.idSeed) = f.pkDigest → ∃ t, exec .stageS1 s = .next t
        ∧ t.hw.bring.last = 1 ∧ t.hw.bring.stage = 2 ∧ t.hw.fuses = f ∧ t.hw.sec.publicKey = some (Config.mlDsaPublicKey f.idSeed)
        ∧ ∀ q : Fin 64, (t.hw.sqOf q).fused = f.sqFused.getLsbD q)
      ∧ (f.crcOf ≠ f.crc → ∃ t, exec .stageS1 s = .next t ∧ t.hw.bring.stopped = true ∧ t.hw.bring.last = s.hw.bring.last
        ∧ leAt (mget [] t.hw.bring.reports 1) 1 1 = 0x20))
    ∧ (s.hw.inStage 2 = true → (∃ t, exec (.stageS2 [] none) s = .next t ∧ t.hw.bring.last = 2 ∧ t.hw.bring.stage = 3
        ∧ t.hw.kz.portA.up = s.hw.supply.vbusA ∧ t.hw.kz.portB.up = s.hw.supply.vbusB)
      ∧ ∀ (q : Fin 64) (k : Fin 256), (s.hw.sqOf q).fused = false → ∃ t, exec (.stageS2 [q.val] (some k.val)) s = .next t
        ∧ t.hw.bring.stopped = true ∧ (t.hw.sqOf q).fenced = true ∧ leAt (mget [] t.hw.bring.reports 2) 2 2 = 1
        ∧ leAt (mget [] t.hw.bring.reports 2) 8 8 = k.val)
    ∧ (s.hw.inStage 3 = true → (∃ t, exec (.stageS3 [] none) s = .next t ∧ t.hw.bring.last = 3 ∧ t.hw.bring.stage = 4
        ∧ t.hw.banks.mem = (if s.hw.bring.lcReset then [] else s.hw.banks.mem.filter fun c => decide (0x17F000000 ≤ c.1 ∧ c.1 < 0x180000000)))
      ∧ ∀ (c : Fin 16) (cs : Fin 2), ∃ t, exec (.stageS3 [] (some (c, cs))) s = .next t ∧ t.hw.bring.stopped = true
        ∧ leAt (mget [] t.hw.bring.reports 3) 1 1 = 0x25
        ∧ t.hw.banks.mem = s.hw.banks.mem.filter fun c => decide (0x100000000 ≤ c.1))
    ∧ (s.hw.inStage 4 = true → s.hw.bring.ctrlS4 = none → s.hw.kz.portA.cmds = [] → s.hw.kz.portB.cmds = [] →
      s.hw.kz.portA.current = none → s.hw.kz.portB.current = none → ∀ b src, s.hw.bootChoice = some (b, src) →
      ∃ t, exec .stageS4 s = .next t ∧ t.hw.bring.last = 4 ∧ t.hw.bring.stage = 5 ∧ t.hw.fw.version = leAt b 4 4
        ∧ t.hw.fw.coresUp = [0, 1, 2, 3] ∧ t.hw.banks.mem = memClear s.hw.banks.mem 0x17F000000 0x1000000)
    ∧ (s.hw.inStage 5 = true → ∃ t, exec (.stageS5 []) s = .next t ∧ t.hw.bring.last = 5 ∧ t.hw.bring.stage = 6)
    ∧ (s.hw.inStage 6 = true → ∀ wins, (∀ k : Fin 16, freqFor (wins.getD k []) ≠ 3) → ∃ t, exec (.stageS6 wins) s = .next t
      ∧ t.hw.bring.last = 6 ∧ t.hw.bring.stage = 7
      ∧ ∀ k : Fin 16, (t.hw.chanOf k).state = 0 ∧ (t.hw.chanOf k).freq = freqFor (wins.getD k []))
    ∧ (s.hw.inStage 6 = true → ∀ wins (x : Fin 16), freqFor (wins.getD x []) = 3 → ∃ t, exec (.stageS6 wins) s = .next t
      ∧ t.hw.bring.stopped = true ∧ t.hw.bring.last = s.hw.bring.last
      ∧ ∀ k : Fin 16, (freqFor (wins.getD k []) = 3 → (t.hw.chanOf k).state = 3)
        ∧ (freqFor (wins.getD k []) ≠ 3 → (t.hw.chanOf k).state = 0 ∧ (t.hw.chanOf k).freq = freqFor (wins.getD k [])
          ∧ (t.hw.chanOf k).win = (wins.getD k []).getD (freqFor (wins.getD k [])) 0 % 256))
    ∧ (s.hw.inStage 7 = true → ∃ t, exec (.stageS7 []) s = .next t ∧ t.hw.bring.last = 7 ∧ t.hw.bring.stage = 8
      ∧ ∀ n : Fin 6, (t.hw.linkOf n).en = false ∧ (t.hw.linkOf n).up = false)
    ∧ (s.hw.inStage 8 = true → s.hw.kz.portA.cmds = [] → s.hw.kz.portB.cmds = [] → s.hw.kz.portA.current = none →
      s.hw.kz.portB.current = none → ∃ t, exec .stageS8 s = .next t ∧ t.hw.ready = true ∧ t.hw.bring.stage = 8
        ∧ leAt (mget [] t.hw.bring.reports 8) 8 8 = s.hw.usableMask)

/-- O59, SUPPLY_ rows, INPUT_SHORT, BROWNOUT, LOSS_OF_BOTH_SUPPLIES, RESET_N_ASSERT, RESET_N_RELEASE, MGT_TRANSFER and
MGT_SCL_TIMEOUT. An input between 9.0 V and 16.5 V brings the bus up and starts bring-up with the ADDR pins sampled, and S0
is done within that command, which is the model's choice (log 121). With the bus up, the module leaves an input below 8.5 V
for one that is not, returns to VIN_A above 9.5 V, and notes an input in use that is out of range; an input above 17.5 V is
disconnected until it is below 16.5 V, and a shorted one is blocked until it carries a voltage again. A brown-out takes the
bus down and loses all memory but the staging region (what of PSRAM survives a loss of the supplies is the model's choice,
log 115, and that the SEQ of fault records starts at 0 again is log 10); the loss of both supplies keeps the fuses, the
certificates and no sticky bit; that the whole fault block is at its reset values after it is the model's choice (log 10).
RESET_N low is a warm reset with cause 4 that waits for RESET_N high. A management read at the module's own address returns
the bytes from the pointer up, a write sets the pointer by its first two bytes, which are acknowledged, and every further
byte is not, a transfer to another address does nothing, and a held SCL frees the interface. (R460, R461, R463, R465, R466,
R472, R474, R475, R477) -/
def Obligations.SuppliesAndResets : Prop :=
  ∀ (a b : Nat) (i : Bool) (s : State), ∀ p, p = s.hw.supply →
    (∀ (pins : Fin 8) (us : Nat), p.busUp = false → (9000 ≤ a ∧ a ≤ 16500) ∨ (9000 ≤ b ∧ b ≤ 16500) → ∃ t, exec (.supplyStart a b pins us) s = .next t
      ∧ t.hw.supply.busUp = true ∧ t.hw.supply.vinA = a ∧ t.hw.supply.vinB = b ∧ t.hw.supply.addrSampled = pins.val
      ∧ t.hw.bring.s0Done = true ∧ t.hw.bring.cause = 1 ∧ t.hw.bring.stage = (if p.resetLow then 0 else 1))
    ∧ (p.busUp = true →
      (p.inUse = false → a < 8500 → 8500 ≤ b → p.connB = true → ∃ t, exec (.supplySwitch a b) s = .next t
        ∧ t.hw.supply.inUse = true ∧ t.hw.supply.switched = true ∧ t.hw.supply.switches = satAdd 0xFFFF p.switches 1)
      ∧ (p.inUse = true → p.connA = true → 9500 < p.vinA → ∃ t, exec .supplyReturn s = .next t ∧ t.hw.supply.inUse = false
        ∧ t.hw.supply.switches = satAdd 0xFFFF p.switches 1)
      ∧ (∃ t, exec (.supplyRangeChange a b) s = .next t ∧ t.hw.supply.vinA = a ∧ t.hw.supply.vinB = b
        ∧ (t.hw.supply.inRange = false → t.hw.supply.range = true)))
    ∧ (17500 < a → ∃ t, exec (.supplyOvervoltage i a) s = .next t ∧ (if i then t.hw.supply.connB else t.hw.supply.connA) = false
      ∧ (if i then t.hw.supply.vinB else t.hw.supply.vinA) = a ∧ (if i then t.hw.supply.bShort else t.hw.supply.aShort) = false)
    ∧ (a < 16500 → ∃ t, exec (.supplyReconnect i a) s = .next t
      ∧ (if i then t.hw.supply.connB else t.hw.supply.connA) = true
      ∧ (0 < a → (if i then t.hw.supply.bShort else t.hw.supply.aShort) = false))
    ∧ (∃ t, exec (.inputShort i) s = .next t ∧ (if i then t.hw.supply.bShort else t.hw.supply.aShort) = true
      ∧ (if i then t.hw.supply.okB else t.hw.supply.okA) = false)
    ∧ (p.busUp = true → ∃ t, exec .brownout s = .next t ∧ t.hw.supply = { p with busUp := false } ∧ t.hw.fuses = s.hw.fuses
      ∧ t.hw.flt.sticky1 = s.hw.flt.sticky1 ∧ t.hw.flt.nextSeq = 0 ∧ t.hw.jobs = []
      ∧ t.hw.banks.mem = s.hw.banks.mem.filter fun c => decide (0x17F000000 ≤ c.1 ∧ c.1 < 0x180000000))
    ∧ (a < 4000 → b < 4000 → ∃ t, exec (.lossOfBothSupplies a b) s = .next t ∧ t.hw.supply.busUp = false ∧ t.hw.fuses = s.hw.fuses
      ∧ t.hw.sec.certs = s.hw.sec.certs ∧ t.hw.flt = {} ∧ t.hw.sq = [] ∧ t.hw.banks.soft = [])
    ∧ (s.hw.bring.s0Done = true → (∃ t, exec .resetNAssert s = .next t ∧ t.hw.supply.resetLow = true ∧ t.hw.bring.cause = 4
        ∧ t.hw.bring.stage = 0 ∧ t.hw.fuses = s.hw.fuses ∧ t.hw.jobs = [])
      ∧ (p.resetLow = true → s.hw.bring.stage = 0 → ∃ t, exec .resetNRelease s = .next t ∧ t.hw.supply.resetLow = false ∧ t.hw.bring.stage = 1)
      ∧ (∀ (ad : Fin 128) n stop, (ad.val = 0x58 + p.addrSampled → ∃ t, exec (.mgtTransfer ad true n [] stop) s = .next t
          ∧ t.hw.supply.mgtPtr = (p.mgtPtr + n) % 65536
          ∧ t.hw.supply.mgtRead = (List.range n).map fun x => s.hw.mgtByte ((p.mgtPtr + x) % 65536))
        ∧ (∀ (x y : Byte) rest, ad.val = 0x58 + p.addrSampled → ∃ t, exec (.mgtTransfer ad false n (x :: y :: rest) stop) s = .next t
          ∧ t.hw.supply.mgtPtr = x.toNat + 256 * y.toNat
          ∧ t.hw.supply.mgtAcks = [true, true, true] ++ List.replicate rest.length false)
        ∧ (∀ rd bs, ad.val ≠ 0x58 + p.addrSampled → exec (.mgtTransfer ad rd n bs stop) s = .next s)))
    ∧ exec .mgtSclTimeout s = .next (s.withHw { s.hw with supply := { p with mgtOpen := false } })

/-- O60, The life-cycle state follows from the fuses. With RETIRED not zero the state is RETIRED. Otherwise, with n the number of
blown bits of LC_COUNT, it is BLANK for n = 0, PROVISIONED for n = 1, DEPLOYED for even n from 2 on and SERVICE for odd n
from 3 on. Of the numbers that 64 bits allow, 31 give SERVICE. (R430) -/
def Obligations.LifeCycleFromFuses : Prop :=
  ∀ (f : Fuses) (n : Nat), n = ((List.range 64).filter fun i => f.lcCount.getLsbD i).length →
    n ≤ 64
    ∧ (f.retired ≠ 0 → f.lc = 4)
    ∧ (f.retired = 0 → (n = 0 → f.lc = 0) ∧ (n = 1 → f.lc = 1) ∧ (2 ≤ n → n % 2 = 0 → f.lc = 2) ∧ (3 ≤ n → n % 2 = 1 → f.lc = 3)
      ∧ (f.lc = 3 → ∃ m, m < 31 ∧ n = 2 * m + 3))
end

