-- ==== Sys2Proof/Laws/Lists.lean ====
section
/-! SUPPORT. Laws of the sorted lists that hold sparse data: what is read at a key after a write, and the order of the keys. -/

namespace Sys2Proof.Machine

@[simp] theorem mget_mset_same {α : Type} (d : α) (m : List (Nat × α)) (k : Nat) (v : α) : mget d (mset m k v) k = v := by
  induction m with
  | nil => simp [mset, mget]
  | cons p r ih =>
    obtain ⟨a, b⟩ := p
    by_cases h : k = a
    · simp [mset, mget, h]
    · by_cases h2 : k < a
      · simp [mset, mget, h, h2]
      · simp [mset, mget, h, h2, ih]

theorem mget_mset_ne {α : Type} (d : α) (m : List (Nat × α)) {k j : Nat} (v : α) (hne : j ≠ k) :
    mget d (mset m k v) j = mget d m j := by
  induction m with
  | nil => simp [mset, mget, hne]
  | cons p r ih =>
    obtain ⟨a, b⟩ := p
    by_cases h : k = a
    · subst h; simp [mset, mget, hne]
    · by_cases h2 : k < a
      · by_cases h3 : j < k
        · have h4 : j ≠ a := by omega
          have h5 : j < a := by omega
          simp [mset, mget, h, h2, h3, h4, h5, hne]
        · simp [mset, mget, h, h2, h3, hne]
      · simp [mset, mget, h, h2, ih]

@[simp] theorem mget_mupd_same {α : Type} (d : α) (m : List (Nat × α)) (k : Nat) (f : α → α) :
    mget d (mupd d m k f) k = f (mget d m k) := by simp [mupd]

theorem mget_mupd_ne {α : Type} (d : α) (m : List (Nat × α)) {k j : Nat} (f : α → α) (hne : j ≠ k) :
    mget d (mupd d m k f) j = mget d m j := by simp [mupd, mget_mset_ne _ _ _ hne]

@[simp] theorem mset_mset {α : Type} (m : List (Nat × α)) (k : Nat) (v w : α) : mset (mset m k v) k w = mset m k w := by
  induction m with
  | nil => simp [mset]
  | cons p r ih =>
    obtain ⟨a, b⟩ := p
    by_cases h : k = a
    · simp [mset, h]
    · by_cases h2 : k < a
      · simp [mset, h, h2]
      · simp [mset, h, h2, ih]

@[simp] theorem mupd_mupd {α : Type} (d : α) (m : List (Nat × α)) (k : Nat) (f g : α → α) :
    mupd d (mupd d m k f) k g = mupd d m k fun a => g (f a) := by simp [mupd]

@[simp] theorem forAll_nil {σ : Type} (f : Nat → σ → σ) (s : σ) : forAll [] f s = s := rfl

@[simp] theorem forAll_cons {σ : Type} (a : Nat) (l : List Nat) (f : Nat → σ → σ) (s : σ) :
    forAll (a :: l) f s = forAll l f (f a s) := rfl

/-- What every pass of a loop keeps, the loop keeps. -/
theorem forAll_keeps {σ : Type} (p : σ → Prop) (f : Nat → σ → σ) (hf : ∀ i x, p x → p (f i x)) :
    ∀ (l : List Nat) (s : σ), p s → p (forAll l f s)
  | [], _, h => h
  | a :: l, s, h => forAll_keeps p f hf l (f a s) (hf a s h)

/-- What every pass of a fold keeps, the fold keeps. -/
theorem foldl_keeps {α σ : Type} (p : σ → Prop) (f : σ → α → σ) (hf : ∀ x a, p x → p (f x a)) :
    ∀ (l : List α) (s : σ), p s → p (l.foldl f s)
  | [], _, h => h
  | a :: l, s, h => foldl_keeps p f hf l (f s a) (hf s a h)

theorem foldr_keeps {α σ : Type} (p : σ → Prop) (f : α → σ → σ) (hf : ∀ a x, p x → p (f a x)) (s : σ) (h : p s) :
    ∀ l : List α, p (l.foldr f s)
  | [] => h
  | a :: l => hf a _ (foldr_keeps p f hf s h l)

end Sys2Proof.Machine
end

