-- ==== Sys2Proof/Laws/State.lean ====
section
/-! SUPPORT. One law for each field and each named update: what an update leaves as it was, and what its own accessor reads after it. -/

namespace Sys2Proof.Machine

/-! ### The state as a whole. -/

@[simp] theorem State.withHw_hw (s : State) (h : Hw) : (s.withHw h).hw = h := rfl
@[simp] theorem State.withHw_pending (s : State) (h : Hw) : (s.withHw h).pending = s.pending := rfl
@[simp] theorem State.withHw_withHw (s : State) (h k : Hw) : (s.withHw h).withHw k = s.withHw k := rfl
@[simp] theorem State.withHw_self (s : State) : s.withHw s.hw = s := rfl

/-! ### modSq: only the field sq changes. -/

@[simp] theorem Hw.modSq_elapsed (hw : Hw) (s : Nat) (f : Square → Square) : (hw.modSq s f).elapsed = hw.elapsed := rfl
@[simp] theorem Hw.modSq_fresh (hw : Hw) (s : Nat) (f : Square → Square) : (hw.modSq s f).fresh = hw.fresh := rfl
@[simp] theorem Hw.modSq_bus (hw : Hw) (s : Nat) (f : Square → Square) : (hw.modSq s f).bus = hw.bus := rfl
@[simp] theorem Hw.modSq_risen (hw : Hw) (s : Nat) (f : Square → Square) : (hw.modSq s f).risen = hw.risen := rfl
@[simp] theorem Hw.modSq_half (hw : Hw) (s : Nat) (f : Square → Square) : (hw.modSq s f).half = hw.half := rfl
@[simp] theorem Hw.modSq_supply (hw : Hw) (s : Nat) (f : Square → Square) : (hw.modSq s f).supply = hw.supply := rfl
@[simp] theorem Hw.modSq_bring (hw : Hw) (s : Nat) (f : Square → Square) : (hw.modSq s f).bring = hw.bring := rfl
@[simp] theorem Hw.modSq_fuses (hw : Hw) (s : Nat) (f : Square → Square) : (hw.modSq s f).fuses = hw.fuses := rfl
@[simp] theorem Hw.modSq_sec (hw : Hw) (s : Nat) (f : Square → Square) : (hw.modSq s f).sec = hw.sec := rfl
@[simp] theorem Hw.modSq_fw (hw : Hw) (s : Nat) (f : Square → Square) : (hw.modSq s f).fw = hw.fw := rfl
@[simp] theorem Hw.modSq_banks (hw : Hw) (s : Nat) (f : Square → Square) : (hw.modSq s f).banks = hw.banks := rfl
@[simp] theorem Hw.modSq_psc (hw : Hw) (s : Nat) (f : Square → Square) : (hw.modSq s f).psc = hw.psc := rfl
@[simp] theorem Hw.modSq_kz (hw : Hw) (s : Nat) (f : Square → Square) : (hw.modSq s f).kz = hw.kz := rfl
@[simp] theorem Hw.modSq_irc (hw : Hw) (s : Nat) (f : Square → Square) : (hw.modSq s f).irc = hw.irc := rfl
@[simp] theorem Hw.modSq_tc (hw : Hw) (s : Nat) (f : Square → Square) : (hw.modSq s f).tc = hw.tc := rfl
@[simp] theorem Hw.modSq_tio (hw : Hw) (s : Nat) (f : Square → Square) : (hw.modSq s f).tio = hw.tio := rfl
@[simp] theorem Hw.modSq_tb (hw : Hw) (s : Nat) (f : Square → Square) : (hw.modSq s f).tb = hw.tb := rfl
@[simp] theorem Hw.modSq_power (hw : Hw) (s : Nat) (f : Square → Square) : (hw.modSq s f).power = hw.power := rfl
@[simp] theorem Hw.modSq_slot (hw : Hw) (s : Nat) (f : Square → Square) : (hw.modSq s f).slot = hw.slot := rfl
@[simp] theorem Hw.modSq_core (hw : Hw) (s : Nat) (f : Square → Square) : (hw.modSq s f).core = hw.core := rfl
@[simp] theorem Hw.modSq_link (hw : Hw) (s : Nat) (f : Square → Square) : (hw.modSq s f).link = hw.link := rfl
@[simp] theorem Hw.modSq_fitCrc (hw : Hw) (s : Nat) (f : Square → Square) : (hw.modSq s f).fitCrc = hw.fitCrc := rfl
@[simp] theorem Hw.modSq_fitLane (hw : Hw) (s : Nat) (f : Square → Square) : (hw.modSq s f).fitLane = hw.fitLane := rfl
@[simp] theorem Hw.modSq_rt (hw : Hw) (s : Nat) (f : Square → Square) : (hw.modSq s f).rt = hw.rt := rfl
@[simp] theorem Hw.modSq_ol (hw : Hw) (s : Nat) (f : Square → Square) : (hw.modSq s f).ol = hw.ol := rfl
@[simp] theorem Hw.modSq_dma (hw : Hw) (s : Nat) (f : Square → Square) : (hw.modSq s f).dma = hw.dma := rfl
@[simp] theorem Hw.modSq_dmaTmo (hw : Hw) (s : Nat) (f : Square → Square) : (hw.modSq s f).dmaTmo = hw.dmaTmo := rfl
@[simp] theorem Hw.modSq_seq (hw : Hw) (s : Nat) (f : Square → Square) : (hw.modSq s f).seq = hw.seq := rfl
@[simp] theorem Hw.modSq_jobs (hw : Hw) (s : Nat) (f : Square → Square) : (hw.modSq s f).jobs = hw.jobs := rfl
@[simp] theorem Hw.modSq_bud (hw : Hw) (s : Nat) (f : Square → Square) : (hw.modSq s f).bud = hw.bud := rfl
@[simp] theorem Hw.modSq_journal (hw : Hw) (s : Nat) (f : Square → Square) : (hw.modSq s f).journal = hw.journal := rfl
@[simp] theorem Hw.modSq_results (hw : Hw) (s : Nat) (f : Square → Square) : (hw.modSq s f).results = hw.results := rfl
@[simp] theorem Hw.modSq_flt (hw : Hw) (s : Nat) (f : Square → Square) : (hw.modSq s f).flt = hw.flt := rfl
@[simp] theorem Hw.modSq_csi (hw : Hw) (s : Nat) (f : Square → Square) : (hw.modSq s f).csi = hw.csi := rfl
@[simp] theorem Hw.modSq_heldAcc (hw : Hw) (s : Nat) (f : Square → Square) : (hw.modSq s f).heldAcc = hw.heldAcc := rfl

/-! ### modRt: only the field sq changes. -/

@[simp] theorem Hw.modRt_elapsed (hw : Hw) (s : Nat) (f : Router → Router) : (hw.modRt s f).elapsed = hw.elapsed := rfl
@[simp] theorem Hw.modRt_fresh (hw : Hw) (s : Nat) (f : Router → Router) : (hw.modRt s f).fresh = hw.fresh := rfl
@[simp] theorem Hw.modRt_bus (hw : Hw) (s : Nat) (f : Router → Router) : (hw.modRt s f).bus = hw.bus := rfl
@[simp] theorem Hw.modRt_risen (hw : Hw) (s : Nat) (f : Router → Router) : (hw.modRt s f).risen = hw.risen := rfl
@[simp] theorem Hw.modRt_half (hw : Hw) (s : Nat) (f : Router → Router) : (hw.modRt s f).half = hw.half := rfl
@[simp] theorem Hw.modRt_supply (hw : Hw) (s : Nat) (f : Router → Router) : (hw.modRt s f).supply = hw.supply := rfl
@[simp] theorem Hw.modRt_bring (hw : Hw) (s : Nat) (f : Router → Router) : (hw.modRt s f).bring = hw.bring := rfl
@[simp] theorem Hw.modRt_fuses (hw : Hw) (s : Nat) (f : Router → Router) : (hw.modRt s f).fuses = hw.fuses := rfl
@[simp] theorem Hw.modRt_sec (hw : Hw) (s : Nat) (f : Router → Router) : (hw.modRt s f).sec = hw.sec := rfl
@[simp] theorem Hw.modRt_fw (hw : Hw) (s : Nat) (f : Router → Router) : (hw.modRt s f).fw = hw.fw := rfl
@[simp] theorem Hw.modRt_banks (hw : Hw) (s : Nat) (f : Router → Router) : (hw.modRt s f).banks = hw.banks := rfl
@[simp] theorem Hw.modRt_psc (hw : Hw) (s : Nat) (f : Router → Router) : (hw.modRt s f).psc = hw.psc := rfl
@[simp] theorem Hw.modRt_kz (hw : Hw) (s : Nat) (f : Router → Router) : (hw.modRt s f).kz = hw.kz := rfl
@[simp] theorem Hw.modRt_irc (hw : Hw) (s : Nat) (f : Router → Router) : (hw.modRt s f).irc = hw.irc := rfl
@[simp] theorem Hw.modRt_tc (hw : Hw) (s : Nat) (f : Router → Router) : (hw.modRt s f).tc = hw.tc := rfl
@[simp] theorem Hw.modRt_tio (hw : Hw) (s : Nat) (f : Router → Router) : (hw.modRt s f).tio = hw.tio := rfl
@[simp] theorem Hw.modRt_tb (hw : Hw) (s : Nat) (f : Router → Router) : (hw.modRt s f).tb = hw.tb := rfl
@[simp] theorem Hw.modRt_power (hw : Hw) (s : Nat) (f : Router → Router) : (hw.modRt s f).power = hw.power := rfl
@[simp] theorem Hw.modRt_slot (hw : Hw) (s : Nat) (f : Router → Router) : (hw.modRt s f).slot = hw.slot := rfl
@[simp] theorem Hw.modRt_core (hw : Hw) (s : Nat) (f : Router → Router) : (hw.modRt s f).core = hw.core := rfl
@[simp] theorem Hw.modRt_link (hw : Hw) (s : Nat) (f : Router → Router) : (hw.modRt s f).link = hw.link := rfl
@[simp] theorem Hw.modRt_fitCrc (hw : Hw) (s : Nat) (f : Router → Router) : (hw.modRt s f).fitCrc = hw.fitCrc := rfl
@[simp] theorem Hw.modRt_fitLane (hw : Hw) (s : Nat) (f : Router → Router) : (hw.modRt s f).fitLane = hw.fitLane := rfl
@[simp] theorem Hw.modRt_rt (hw : Hw) (s : Nat) (f : Router → Router) : (hw.modRt s f).rt = hw.rt := rfl
@[simp] theorem Hw.modRt_ol (hw : Hw) (s : Nat) (f : Router → Router) : (hw.modRt s f).ol = hw.ol := rfl
@[simp] theorem Hw.modRt_dma (hw : Hw) (s : Nat) (f : Router → Router) : (hw.modRt s f).dma = hw.dma := rfl
@[simp] theorem Hw.modRt_dmaTmo (hw : Hw) (s : Nat) (f : Router → Router) : (hw.modRt s f).dmaTmo = hw.dmaTmo := rfl
@[simp] theorem Hw.modRt_seq (hw : Hw) (s : Nat) (f : Router → Router) : (hw.modRt s f).seq = hw.seq := rfl
@[simp] theorem Hw.modRt_jobs (hw : Hw) (s : Nat) (f : Router → Router) : (hw.modRt s f).jobs = hw.jobs := rfl
@[simp] theorem Hw.modRt_bud (hw : Hw) (s : Nat) (f : Router → Router) : (hw.modRt s f).bud = hw.bud := rfl
@[simp] theorem Hw.modRt_journal (hw : Hw) (s : Nat) (f : Router → Router) : (hw.modRt s f).journal = hw.journal := rfl
@[simp] theorem Hw.modRt_results (hw : Hw) (s : Nat) (f : Router → Router) : (hw.modRt s f).results = hw.results := rfl
@[simp] theorem Hw.modRt_flt (hw : Hw) (s : Nat) (f : Router → Router) : (hw.modRt s f).flt = hw.flt := rfl
@[simp] theorem Hw.modRt_csi (hw : Hw) (s : Nat) (f : Router → Router) : (hw.modRt s f).csi = hw.csi := rfl
@[simp] theorem Hw.modRt_heldAcc (hw : Hw) (s : Nat) (f : Router → Router) : (hw.modRt s f).heldAcc = hw.heldAcc := rfl

/-! ### modFlt: only the field sq changes. -/

@[simp] theorem Hw.modFlt_elapsed (hw : Hw) (s : Nat) (f : SqFault → SqFault) : (hw.modFlt s f).elapsed = hw.elapsed := rfl
@[simp] theorem Hw.modFlt_fresh (hw : Hw) (s : Nat) (f : SqFault → SqFault) : (hw.modFlt s f).fresh = hw.fresh := rfl
@[simp] theorem Hw.modFlt_bus (hw : Hw) (s : Nat) (f : SqFault → SqFault) : (hw.modFlt s f).bus = hw.bus := rfl
@[simp] theorem Hw.modFlt_risen (hw : Hw) (s : Nat) (f : SqFault → SqFault) : (hw.modFlt s f).risen = hw.risen := rfl
@[simp] theorem Hw.modFlt_half (hw : Hw) (s : Nat) (f : SqFault → SqFault) : (hw.modFlt s f).half = hw.half := rfl
@[simp] theorem Hw.modFlt_supply (hw : Hw) (s : Nat) (f : SqFault → SqFault) : (hw.modFlt s f).supply = hw.supply := rfl
@[simp] theorem Hw.modFlt_bring (hw : Hw) (s : Nat) (f : SqFault → SqFault) : (hw.modFlt s f).bring = hw.bring := rfl
@[simp] theorem Hw.modFlt_fuses (hw : Hw) (s : Nat) (f : SqFault → SqFault) : (hw.modFlt s f).fuses = hw.fuses := rfl
@[simp] theorem Hw.modFlt_sec (hw : Hw) (s : Nat) (f : SqFault → SqFault) : (hw.modFlt s f).sec = hw.sec := rfl
@[simp] theorem Hw.modFlt_fw (hw : Hw) (s : Nat) (f : SqFault → SqFault) : (hw.modFlt s f).fw = hw.fw := rfl
@[simp] theorem Hw.modFlt_banks (hw : Hw) (s : Nat) (f : SqFault → SqFault) : (hw.modFlt s f).banks = hw.banks := rfl
@[simp] theorem Hw.modFlt_psc (hw : Hw) (s : Nat) (f : SqFault → SqFault) : (hw.modFlt s f).psc = hw.psc := rfl
@[simp] theorem Hw.modFlt_kz (hw : Hw) (s : Nat) (f : SqFault → SqFault) : (hw.modFlt s f).kz = hw.kz := rfl
@[simp] theorem Hw.modFlt_irc (hw : Hw) (s : Nat) (f : SqFault → SqFault) : (hw.modFlt s f).irc = hw.irc := rfl
@[simp] theorem Hw.modFlt_tc (hw : Hw) (s : Nat) (f : SqFault → SqFault) : (hw.modFlt s f).tc = hw.tc := rfl
@[simp] theorem Hw.modFlt_tio (hw : Hw) (s : Nat) (f : SqFault → SqFault) : (hw.modFlt s f).tio = hw.tio := rfl
@[simp] theorem Hw.modFlt_tb (hw : Hw) (s : Nat) (f : SqFault → SqFault) : (hw.modFlt s f).tb = hw.tb := rfl
@[simp] theorem Hw.modFlt_power (hw : Hw) (s : Nat) (f : SqFault → SqFault) : (hw.modFlt s f).power = hw.power := rfl
@[simp] theorem Hw.modFlt_slot (hw : Hw) (s : Nat) (f : SqFault → SqFault) : (hw.modFlt s f).slot = hw.slot := rfl
@[simp] theorem Hw.modFlt_core (hw : Hw) (s : Nat) (f : SqFault → SqFault) : (hw.modFlt s f).core = hw.core := rfl
@[simp] theorem Hw.modFlt_link (hw : Hw) (s : Nat) (f : SqFault → SqFault) : (hw.modFlt s f).link = hw.link := rfl
@[simp] theorem Hw.modFlt_fitCrc (hw : Hw) (s : Nat) (f : SqFault → SqFault) : (hw.modFlt s f).fitCrc = hw.fitCrc := rfl
@[simp] theorem Hw.modFlt_fitLane (hw : Hw) (s : Nat) (f : SqFault → SqFault) : (hw.modFlt s f).fitLane = hw.fitLane := rfl
@[simp] theorem Hw.modFlt_rt (hw : Hw) (s : Nat) (f : SqFault → SqFault) : (hw.modFlt s f).rt = hw.rt := rfl
@[simp] theorem Hw.modFlt_ol (hw : Hw) (s : Nat) (f : SqFault → SqFault) : (hw.modFlt s f).ol = hw.ol := rfl
@[simp] theorem Hw.modFlt_dma (hw : Hw) (s : Nat) (f : SqFault → SqFault) : (hw.modFlt s f).dma = hw.dma := rfl
@[simp] theorem Hw.modFlt_dmaTmo (hw : Hw) (s : Nat) (f : SqFault → SqFault) : (hw.modFlt s f).dmaTmo = hw.dmaTmo := rfl
@[simp] theorem Hw.modFlt_seq (hw : Hw) (s : Nat) (f : SqFault → SqFault) : (hw.modFlt s f).seq = hw.seq := rfl
@[simp] theorem Hw.modFlt_jobs (hw : Hw) (s : Nat) (f : SqFault → SqFault) : (hw.modFlt s f).jobs = hw.jobs := rfl
@[simp] theorem Hw.modFlt_bud (hw : Hw) (s : Nat) (f : SqFault → SqFault) : (hw.modFlt s f).bud = hw.bud := rfl
@[simp] theorem Hw.modFlt_journal (hw : Hw) (s : Nat) (f : SqFault → SqFault) : (hw.modFlt s f).journal = hw.journal := rfl
@[simp] theorem Hw.modFlt_results (hw : Hw) (s : Nat) (f : SqFault → SqFault) : (hw.modFlt s f).results = hw.results := rfl
@[simp] theorem Hw.modFlt_flt (hw : Hw) (s : Nat) (f : SqFault → SqFault) : (hw.modFlt s f).flt = hw.flt := rfl
@[simp] theorem Hw.modFlt_csi (hw : Hw) (s : Nat) (f : SqFault → SqFault) : (hw.modFlt s f).csi = hw.csi := rfl
@[simp] theorem Hw.modFlt_heldAcc (hw : Hw) (s : Nat) (f : SqFault → SqFault) : (hw.modFlt s f).heldAcc = hw.heldAcc := rfl

/-! ### modSlot: only the field slot changes. -/

@[simp] theorem Hw.modSlot_elapsed (hw : Hw) (s p : Nat) (f : Slot → Slot) : (hw.modSlot s p f).elapsed = hw.elapsed := rfl
@[simp] theorem Hw.modSlot_fresh (hw : Hw) (s p : Nat) (f : Slot → Slot) : (hw.modSlot s p f).fresh = hw.fresh := rfl
@[simp] theorem Hw.modSlot_bus (hw : Hw) (s p : Nat) (f : Slot → Slot) : (hw.modSlot s p f).bus = hw.bus := rfl
@[simp] theorem Hw.modSlot_risen (hw : Hw) (s p : Nat) (f : Slot → Slot) : (hw.modSlot s p f).risen = hw.risen := rfl
@[simp] theorem Hw.modSlot_half (hw : Hw) (s p : Nat) (f : Slot → Slot) : (hw.modSlot s p f).half = hw.half := rfl
@[simp] theorem Hw.modSlot_supply (hw : Hw) (s p : Nat) (f : Slot → Slot) : (hw.modSlot s p f).supply = hw.supply := rfl
@[simp] theorem Hw.modSlot_bring (hw : Hw) (s p : Nat) (f : Slot → Slot) : (hw.modSlot s p f).bring = hw.bring := rfl
@[simp] theorem Hw.modSlot_fuses (hw : Hw) (s p : Nat) (f : Slot → Slot) : (hw.modSlot s p f).fuses = hw.fuses := rfl
@[simp] theorem Hw.modSlot_sec (hw : Hw) (s p : Nat) (f : Slot → Slot) : (hw.modSlot s p f).sec = hw.sec := rfl
@[simp] theorem Hw.modSlot_fw (hw : Hw) (s p : Nat) (f : Slot → Slot) : (hw.modSlot s p f).fw = hw.fw := rfl
@[simp] theorem Hw.modSlot_banks (hw : Hw) (s p : Nat) (f : Slot → Slot) : (hw.modSlot s p f).banks = hw.banks := rfl
@[simp] theorem Hw.modSlot_psc (hw : Hw) (s p : Nat) (f : Slot → Slot) : (hw.modSlot s p f).psc = hw.psc := rfl
@[simp] theorem Hw.modSlot_kz (hw : Hw) (s p : Nat) (f : Slot → Slot) : (hw.modSlot s p f).kz = hw.kz := rfl
@[simp] theorem Hw.modSlot_irc (hw : Hw) (s p : Nat) (f : Slot → Slot) : (hw.modSlot s p f).irc = hw.irc := rfl
@[simp] theorem Hw.modSlot_tc (hw : Hw) (s p : Nat) (f : Slot → Slot) : (hw.modSlot s p f).tc = hw.tc := rfl
@[simp] theorem Hw.modSlot_tio (hw : Hw) (s p : Nat) (f : Slot → Slot) : (hw.modSlot s p f).tio = hw.tio := rfl
@[simp] theorem Hw.modSlot_tb (hw : Hw) (s p : Nat) (f : Slot → Slot) : (hw.modSlot s p f).tb = hw.tb := rfl
@[simp] theorem Hw.modSlot_power (hw : Hw) (s p : Nat) (f : Slot → Slot) : (hw.modSlot s p f).power = hw.power := rfl
@[simp] theorem Hw.modSlot_sq (hw : Hw) (s p : Nat) (f : Slot → Slot) : (hw.modSlot s p f).sq = hw.sq := rfl
@[simp] theorem Hw.modSlot_core (hw : Hw) (s p : Nat) (f : Slot → Slot) : (hw.modSlot s p f).core = hw.core := rfl
@[simp] theorem Hw.modSlot_link (hw : Hw) (s p : Nat) (f : Slot → Slot) : (hw.modSlot s p f).link = hw.link := rfl
@[simp] theorem Hw.modSlot_fitCrc (hw : Hw) (s p : Nat) (f : Slot → Slot) : (hw.modSlot s p f).fitCrc = hw.fitCrc := rfl
@[simp] theorem Hw.modSlot_fitLane (hw : Hw) (s p : Nat) (f : Slot → Slot) : (hw.modSlot s p f).fitLane = hw.fitLane := rfl
@[simp] theorem Hw.modSlot_rt (hw : Hw) (s p : Nat) (f : Slot → Slot) : (hw.modSlot s p f).rt = hw.rt := rfl
@[simp] theorem Hw.modSlot_ol (hw : Hw) (s p : Nat) (f : Slot → Slot) : (hw.modSlot s p f).ol = hw.ol := rfl
@[simp] theorem Hw.modSlot_dma (hw : Hw) (s p : Nat) (f : Slot → Slot) : (hw.modSlot s p f).dma = hw.dma := rfl
@[simp] theorem Hw.modSlot_dmaTmo (hw : Hw) (s p : Nat) (f : Slot → Slot) : (hw.modSlot s p f).dmaTmo = hw.dmaTmo := rfl
@[simp] theorem Hw.modSlot_seq (hw : Hw) (s p : Nat) (f : Slot → Slot) : (hw.modSlot s p f).seq = hw.seq := rfl
@[simp] theorem Hw.modSlot_jobs (hw : Hw) (s p : Nat) (f : Slot → Slot) : (hw.modSlot s p f).jobs = hw.jobs := rfl
@[simp] theorem Hw.modSlot_bud (hw : Hw) (s p : Nat) (f : Slot → Slot) : (hw.modSlot s p f).bud = hw.bud := rfl
@[simp] theorem Hw.modSlot_journal (hw : Hw) (s p : Nat) (f : Slot → Slot) : (hw.modSlot s p f).journal = hw.journal := rfl
@[simp] theorem Hw.modSlot_results (hw : Hw) (s p : Nat) (f : Slot → Slot) : (hw.modSlot s p f).results = hw.results := rfl
@[simp] theorem Hw.modSlot_flt (hw : Hw) (s p : Nat) (f : Slot → Slot) : (hw.modSlot s p f).flt = hw.flt := rfl
@[simp] theorem Hw.modSlot_csi (hw : Hw) (s p : Nat) (f : Slot → Slot) : (hw.modSlot s p f).csi = hw.csi := rfl
@[simp] theorem Hw.modSlot_heldAcc (hw : Hw) (s p : Nat) (f : Slot → Slot) : (hw.modSlot s p f).heldAcc = hw.heldAcc := rfl

/-! ### modCore: only the field core changes. -/

@[simp] theorem Hw.modCore_elapsed (hw : Hw) (s l : Nat) (f : LCore → LCore) : (hw.modCore s l f).elapsed = hw.elapsed := rfl
@[simp] theorem Hw.modCore_fresh (hw : Hw) (s l : Nat) (f : LCore → LCore) : (hw.modCore s l f).fresh = hw.fresh := rfl
@[simp] theorem Hw.modCore_bus (hw : Hw) (s l : Nat) (f : LCore → LCore) : (hw.modCore s l f).bus = hw.bus := rfl
@[simp] theorem Hw.modCore_risen (hw : Hw) (s l : Nat) (f : LCore → LCore) : (hw.modCore s l f).risen = hw.risen := rfl
@[simp] theorem Hw.modCore_half (hw : Hw) (s l : Nat) (f : LCore → LCore) : (hw.modCore s l f).half = hw.half := rfl
@[simp] theorem Hw.modCore_supply (hw : Hw) (s l : Nat) (f : LCore → LCore) : (hw.modCore s l f).supply = hw.supply := rfl
@[simp] theorem Hw.modCore_bring (hw : Hw) (s l : Nat) (f : LCore → LCore) : (hw.modCore s l f).bring = hw.bring := rfl
@[simp] theorem Hw.modCore_fuses (hw : Hw) (s l : Nat) (f : LCore → LCore) : (hw.modCore s l f).fuses = hw.fuses := rfl
@[simp] theorem Hw.modCore_sec (hw : Hw) (s l : Nat) (f : LCore → LCore) : (hw.modCore s l f).sec = hw.sec := rfl
@[simp] theorem Hw.modCore_fw (hw : Hw) (s l : Nat) (f : LCore → LCore) : (hw.modCore s l f).fw = hw.fw := rfl
@[simp] theorem Hw.modCore_banks (hw : Hw) (s l : Nat) (f : LCore → LCore) : (hw.modCore s l f).banks = hw.banks := rfl
@[simp] theorem Hw.modCore_psc (hw : Hw) (s l : Nat) (f : LCore → LCore) : (hw.modCore s l f).psc = hw.psc := rfl
@[simp] theorem Hw.modCore_kz (hw : Hw) (s l : Nat) (f : LCore → LCore) : (hw.modCore s l f).kz = hw.kz := rfl
@[simp] theorem Hw.modCore_irc (hw : Hw) (s l : Nat) (f : LCore → LCore) : (hw.modCore s l f).irc = hw.irc := rfl
@[simp] theorem Hw.modCore_tc (hw : Hw) (s l : Nat) (f : LCore → LCore) : (hw.modCore s l f).tc = hw.tc := rfl
@[simp] theorem Hw.modCore_tio (hw : Hw) (s l : Nat) (f : LCore → LCore) : (hw.modCore s l f).tio = hw.tio := rfl
@[simp] theorem Hw.modCore_tb (hw : Hw) (s l : Nat) (f : LCore → LCore) : (hw.modCore s l f).tb = hw.tb := rfl
@[simp] theorem Hw.modCore_power (hw : Hw) (s l : Nat) (f : LCore → LCore) : (hw.modCore s l f).power = hw.power := rfl
@[simp] theorem Hw.modCore_sq (hw : Hw) (s l : Nat) (f : LCore → LCore) : (hw.modCore s l f).sq = hw.sq := rfl
@[simp] theorem Hw.modCore_slot (hw : Hw) (s l : Nat) (f : LCore → LCore) : (hw.modCore s l f).slot = hw.slot := rfl
@[simp] theorem Hw.modCore_link (hw : Hw) (s l : Nat) (f : LCore → LCore) : (hw.modCore s l f).link = hw.link := rfl
@[simp] theorem Hw.modCore_fitCrc (hw : Hw) (s l : Nat) (f : LCore → LCore) : (hw.modCore s l f).fitCrc = hw.fitCrc := rfl
@[simp] theorem Hw.modCore_fitLane (hw : Hw) (s l : Nat) (f : LCore → LCore) : (hw.modCore s l f).fitLane = hw.fitLane := rfl
@[simp] theorem Hw.modCore_rt (hw : Hw) (s l : Nat) (f : LCore → LCore) : (hw.modCore s l f).rt = hw.rt := rfl
@[simp] theorem Hw.modCore_ol (hw : Hw) (s l : Nat) (f : LCore → LCore) : (hw.modCore s l f).ol = hw.ol := rfl
@[simp] theorem Hw.modCore_dma (hw : Hw) (s l : Nat) (f : LCore → LCore) : (hw.modCore s l f).dma = hw.dma := rfl
@[simp] theorem Hw.modCore_dmaTmo (hw : Hw) (s l : Nat) (f : LCore → LCore) : (hw.modCore s l f).dmaTmo = hw.dmaTmo := rfl
@[simp] theorem Hw.modCore_seq (hw : Hw) (s l : Nat) (f : LCore → LCore) : (hw.modCore s l f).seq = hw.seq := rfl
@[simp] theorem Hw.modCore_jobs (hw : Hw) (s l : Nat) (f : LCore → LCore) : (hw.modCore s l f).jobs = hw.jobs := rfl
@[simp] theorem Hw.modCore_bud (hw : Hw) (s l : Nat) (f : LCore → LCore) : (hw.modCore s l f).bud = hw.bud := rfl
@[simp] theorem Hw.modCore_journal (hw : Hw) (s l : Nat) (f : LCore → LCore) : (hw.modCore s l f).journal = hw.journal := rfl
@[simp] theorem Hw.modCore_results (hw : Hw) (s l : Nat) (f : LCore → LCore) : (hw.modCore s l f).results = hw.results := rfl
@[simp] theorem Hw.modCore_flt (hw : Hw) (s l : Nat) (f : LCore → LCore) : (hw.modCore s l f).flt = hw.flt := rfl
@[simp] theorem Hw.modCore_csi (hw : Hw) (s l : Nat) (f : LCore → LCore) : (hw.modCore s l f).csi = hw.csi := rfl
@[simp] theorem Hw.modCore_heldAcc (hw : Hw) (s l : Nat) (f : LCore → LCore) : (hw.modCore s l f).heldAcc = hw.heldAcc := rfl

/-! ### modQueue: only the field core changes. -/

@[simp] theorem Hw.modQueue_elapsed (hw : Hw) (s l q : Nat) (f : Queue → Queue) : (hw.modQueue s l q f).elapsed = hw.elapsed := rfl
@[simp] theorem Hw.modQueue_fresh (hw : Hw) (s l q : Nat) (f : Queue → Queue) : (hw.modQueue s l q f).fresh = hw.fresh := rfl
@[simp] theorem Hw.modQueue_bus (hw : Hw) (s l q : Nat) (f : Queue → Queue) : (hw.modQueue s l q f).bus = hw.bus := rfl
@[simp] theorem Hw.modQueue_risen (hw : Hw) (s l q : Nat) (f : Queue → Queue) : (hw.modQueue s l q f).risen = hw.risen := rfl
@[simp] theorem Hw.modQueue_half (hw : Hw) (s l q : Nat) (f : Queue → Queue) : (hw.modQueue s l q f).half = hw.half := rfl
@[simp] theorem Hw.modQueue_supply (hw : Hw) (s l q : Nat) (f : Queue → Queue) : (hw.modQueue s l q f).supply = hw.supply := rfl
@[simp] theorem Hw.modQueue_bring (hw : Hw) (s l q : Nat) (f : Queue → Queue) : (hw.modQueue s l q f).bring = hw.bring := rfl
@[simp] theorem Hw.modQueue_fuses (hw : Hw) (s l q : Nat) (f : Queue → Queue) : (hw.modQueue s l q f).fuses = hw.fuses := rfl
@[simp] theorem Hw.modQueue_sec (hw : Hw) (s l q : Nat) (f : Queue → Queue) : (hw.modQueue s l q f).sec = hw.sec := rfl
@[simp] theorem Hw.modQueue_fw (hw : Hw) (s l q : Nat) (f : Queue → Queue) : (hw.modQueue s l q f).fw = hw.fw := rfl
@[simp] theorem Hw.modQueue_banks (hw : Hw) (s l q : Nat) (f : Queue → Queue) : (hw.modQueue s l q f).banks = hw.banks := rfl
@[simp] theorem Hw.modQueue_psc (hw : Hw) (s l q : Nat) (f : Queue → Queue) : (hw.modQueue s l q f).psc = hw.psc := rfl
@[simp] theorem Hw.modQueue_kz (hw : Hw) (s l q : Nat) (f : Queue → Queue) : (hw.modQueue s l q f).kz = hw.kz := rfl
@[simp] theorem Hw.modQueue_irc (hw : Hw) (s l q : Nat) (f : Queue → Queue) : (hw.modQueue s l q f).irc = hw.irc := rfl
@[simp] theorem Hw.modQueue_tc (hw : Hw) (s l q : Nat) (f : Queue → Queue) : (hw.modQueue s l q f).tc = hw.tc := rfl
@[simp] theorem Hw.modQueue_tio (hw : Hw) (s l q : Nat) (f : Queue → Queue) : (hw.modQueue s l q f).tio = hw.tio := rfl
@[simp] theorem Hw.modQueue_tb (hw : Hw) (s l q : Nat) (f : Queue → Queue) : (hw.modQueue s l q f).tb = hw.tb := rfl
@[simp] theorem Hw.modQueue_power (hw : Hw) (s l q : Nat) (f : Queue → Queue) : (hw.modQueue s l q f).power = hw.power := rfl
@[simp] theorem Hw.modQueue_sq (hw : Hw) (s l q : Nat) (f : Queue → Queue) : (hw.modQueue s l q f).sq = hw.sq := rfl
@[simp] theorem Hw.modQueue_slot (hw : Hw) (s l q : Nat) (f : Queue → Queue) : (hw.modQueue s l q f).slot = hw.slot := rfl
@[simp] theorem Hw.modQueue_link (hw : Hw) (s l q : Nat) (f : Queue → Queue) : (hw.modQueue s l q f).link = hw.link := rfl
@[simp] theorem Hw.modQueue_fitCrc (hw : Hw) (s l q : Nat) (f : Queue → Queue) : (hw.modQueue s l q f).fitCrc = hw.fitCrc := rfl
@[simp] theorem Hw.modQueue_fitLane (hw : Hw) (s l q : Nat) (f : Queue → Queue) : (hw.modQueue s l q f).fitLane = hw.fitLane := rfl
@[simp] theorem Hw.modQueue_rt (hw : Hw) (s l q : Nat) (f : Queue → Queue) : (hw.modQueue s l q f).rt = hw.rt := rfl
@[simp] theorem Hw.modQueue_ol (hw : Hw) (s l q : Nat) (f : Queue → Queue) : (hw.modQueue s l q f).ol = hw.ol := rfl
@[simp] theorem Hw.modQueue_dma (hw : Hw) (s l q : Nat) (f : Queue → Queue) : (hw.modQueue s l q f).dma = hw.dma := rfl
@[simp] theorem Hw.modQueue_dmaTmo (hw : Hw) (s l q : Nat) (f : Queue → Queue) : (hw.modQueue s l q f).dmaTmo = hw.dmaTmo := rfl
@[simp] theorem Hw.modQueue_seq (hw : Hw) (s l q : Nat) (f : Queue → Queue) : (hw.modQueue s l q f).seq = hw.seq := rfl
@[simp] theorem Hw.modQueue_jobs (hw : Hw) (s l q : Nat) (f : Queue → Queue) : (hw.modQueue s l q f).jobs = hw.jobs := rfl
@[simp] theorem Hw.modQueue_bud (hw : Hw) (s l q : Nat) (f : Queue → Queue) : (hw.modQueue s l q f).bud = hw.bud := rfl
@[simp] theorem Hw.modQueue_journal (hw : Hw) (s l q : Nat) (f : Queue → Queue) : (hw.modQueue s l q f).journal = hw.journal := rfl
@[simp] theorem Hw.modQueue_results (hw : Hw) (s l q : Nat) (f : Queue → Queue) : (hw.modQueue s l q f).results = hw.results := rfl
@[simp] theorem Hw.modQueue_flt (hw : Hw) (s l q : Nat) (f : Queue → Queue) : (hw.modQueue s l q f).flt = hw.flt := rfl
@[simp] theorem Hw.modQueue_csi (hw : Hw) (s l q : Nat) (f : Queue → Queue) : (hw.modQueue s l q f).csi = hw.csi := rfl
@[simp] theorem Hw.modQueue_heldAcc (hw : Hw) (s l q : Nat) (f : Queue → Queue) : (hw.modQueue s l q f).heldAcc = hw.heldAcc := rfl

/-! ### modSend: only the field core changes. -/

@[simp] theorem Hw.modSend_elapsed (hw : Hw) (s l c : Nat) (f : SendCh → SendCh) : (hw.modSend s l c f).elapsed = hw.elapsed := rfl
@[simp] theorem Hw.modSend_fresh (hw : Hw) (s l c : Nat) (f : SendCh → SendCh) : (hw.modSend s l c f).fresh = hw.fresh := rfl
@[simp] theorem Hw.modSend_bus (hw : Hw) (s l c : Nat) (f : SendCh → SendCh) : (hw.modSend s l c f).bus = hw.bus := rfl
@[simp] theorem Hw.modSend_risen (hw : Hw) (s l c : Nat) (f : SendCh → SendCh) : (hw.modSend s l c f).risen = hw.risen := rfl
@[simp] theorem Hw.modSend_half (hw : Hw) (s l c : Nat) (f : SendCh → SendCh) : (hw.modSend s l c f).half = hw.half := rfl
@[simp] theorem Hw.modSend_supply (hw : Hw) (s l c : Nat) (f : SendCh → SendCh) : (hw.modSend s l c f).supply = hw.supply := rfl
@[simp] theorem Hw.modSend_bring (hw : Hw) (s l c : Nat) (f : SendCh → SendCh) : (hw.modSend s l c f).bring = hw.bring := rfl
@[simp] theorem Hw.modSend_fuses (hw : Hw) (s l c : Nat) (f : SendCh → SendCh) : (hw.modSend s l c f).fuses = hw.fuses := rfl
@[simp] theorem Hw.modSend_sec (hw : Hw) (s l c : Nat) (f : SendCh → SendCh) : (hw.modSend s l c f).sec = hw.sec := rfl
@[simp] theorem Hw.modSend_fw (hw : Hw) (s l c : Nat) (f : SendCh → SendCh) : (hw.modSend s l c f).fw = hw.fw := rfl
@[simp] theorem Hw.modSend_banks (hw : Hw) (s l c : Nat) (f : SendCh → SendCh) : (hw.modSend s l c f).banks = hw.banks := rfl
@[simp] theorem Hw.modSend_psc (hw : Hw) (s l c : Nat) (f : SendCh → SendCh) : (hw.modSend s l c f).psc = hw.psc := rfl
@[simp] theorem Hw.modSend_kz (hw : Hw) (s l c : Nat) (f : SendCh → SendCh) : (hw.modSend s l c f).kz = hw.kz := rfl
@[simp] theorem Hw.modSend_irc (hw : Hw) (s l c : Nat) (f : SendCh → SendCh) : (hw.modSend s l c f).irc = hw.irc := rfl
@[simp] theorem Hw.modSend_tc (hw : Hw) (s l c : Nat) (f : SendCh → SendCh) : (hw.modSend s l c f).tc = hw.tc := rfl
@[simp] theorem Hw.modSend_tio (hw : Hw) (s l c : Nat) (f : SendCh → SendCh) : (hw.modSend s l c f).tio = hw.tio := rfl
@[simp] theorem Hw.modSend_tb (hw : Hw) (s l c : Nat) (f : SendCh → SendCh) : (hw.modSend s l c f).tb = hw.tb := rfl
@[simp] theorem Hw.modSend_power (hw : Hw) (s l c : Nat) (f : SendCh → SendCh) : (hw.modSend s l c f).power = hw.power := rfl
@[simp] theorem Hw.modSend_sq (hw : Hw) (s l c : Nat) (f : SendCh → SendCh) : (hw.modSend s l c f).sq = hw.sq := rfl
@[simp] theorem Hw.modSend_slot (hw : Hw) (s l c : Nat) (f : SendCh → SendCh) : (hw.modSend s l c f).slot = hw.slot := rfl
@[simp] theorem Hw.modSend_link (hw : Hw) (s l c : Nat) (f : SendCh → SendCh) : (hw.modSend s l c f).link = hw.link := rfl
@[simp] theorem Hw.modSend_fitCrc (hw : Hw) (s l c : Nat) (f : SendCh → SendCh) : (hw.modSend s l c f).fitCrc = hw.fitCrc := rfl
@[simp] theorem Hw.modSend_fitLane (hw : Hw) (s l c : Nat) (f : SendCh → SendCh) : (hw.modSend s l c f).fitLane = hw.fitLane := rfl
@[simp] theorem Hw.modSend_rt (hw : Hw) (s l c : Nat) (f : SendCh → SendCh) : (hw.modSend s l c f).rt = hw.rt := rfl
@[simp] theorem Hw.modSend_ol (hw : Hw) (s l c : Nat) (f : SendCh → SendCh) : (hw.modSend s l c f).ol = hw.ol := rfl
@[simp] theorem Hw.modSend_dma (hw : Hw) (s l c : Nat) (f : SendCh → SendCh) : (hw.modSend s l c f).dma = hw.dma := rfl
@[simp] theorem Hw.modSend_dmaTmo (hw : Hw) (s l c : Nat) (f : SendCh → SendCh) : (hw.modSend s l c f).dmaTmo = hw.dmaTmo := rfl
@[simp] theorem Hw.modSend_seq (hw : Hw) (s l c : Nat) (f : SendCh → SendCh) : (hw.modSend s l c f).seq = hw.seq := rfl
@[simp] theorem Hw.modSend_jobs (hw : Hw) (s l c : Nat) (f : SendCh → SendCh) : (hw.modSend s l c f).jobs = hw.jobs := rfl
@[simp] theorem Hw.modSend_bud (hw : Hw) (s l c : Nat) (f : SendCh → SendCh) : (hw.modSend s l c f).bud = hw.bud := rfl
@[simp] theorem Hw.modSend_journal (hw : Hw) (s l c : Nat) (f : SendCh → SendCh) : (hw.modSend s l c f).journal = hw.journal := rfl
@[simp] theorem Hw.modSend_results (hw : Hw) (s l c : Nat) (f : SendCh → SendCh) : (hw.modSend s l c f).results = hw.results := rfl
@[simp] theorem Hw.modSend_flt (hw : Hw) (s l c : Nat) (f : SendCh → SendCh) : (hw.modSend s l c f).flt = hw.flt := rfl
@[simp] theorem Hw.modSend_csi (hw : Hw) (s l c : Nat) (f : SendCh → SendCh) : (hw.modSend s l c f).csi = hw.csi := rfl
@[simp] theorem Hw.modSend_heldAcc (hw : Hw) (s l c : Nat) (f : SendCh → SendCh) : (hw.modSend s l c f).heldAcc = hw.heldAcc := rfl

/-! ### modCp: only the field core changes. -/

@[simp] theorem Hw.modCp_elapsed (hw : Hw) (s l : Nat) (f : Prog → Prog) : (hw.modCp s l f).elapsed = hw.elapsed := rfl
@[simp] theorem Hw.modCp_fresh (hw : Hw) (s l : Nat) (f : Prog → Prog) : (hw.modCp s l f).fresh = hw.fresh := rfl
@[simp] theorem Hw.modCp_bus (hw : Hw) (s l : Nat) (f : Prog → Prog) : (hw.modCp s l f).bus = hw.bus := rfl
@[simp] theorem Hw.modCp_risen (hw : Hw) (s l : Nat) (f : Prog → Prog) : (hw.modCp s l f).risen = hw.risen := rfl
@[simp] theorem Hw.modCp_half (hw : Hw) (s l : Nat) (f : Prog → Prog) : (hw.modCp s l f).half = hw.half := rfl
@[simp] theorem Hw.modCp_supply (hw : Hw) (s l : Nat) (f : Prog → Prog) : (hw.modCp s l f).supply = hw.supply := rfl
@[simp] theorem Hw.modCp_bring (hw : Hw) (s l : Nat) (f : Prog → Prog) : (hw.modCp s l f).bring = hw.bring := rfl
@[simp] theorem Hw.modCp_fuses (hw : Hw) (s l : Nat) (f : Prog → Prog) : (hw.modCp s l f).fuses = hw.fuses := rfl
@[simp] theorem Hw.modCp_sec (hw : Hw) (s l : Nat) (f : Prog → Prog) : (hw.modCp s l f).sec = hw.sec := rfl
@[simp] theorem Hw.modCp_fw (hw : Hw) (s l : Nat) (f : Prog → Prog) : (hw.modCp s l f).fw = hw.fw := rfl
@[simp] theorem Hw.modCp_banks (hw : Hw) (s l : Nat) (f : Prog → Prog) : (hw.modCp s l f).banks = hw.banks := rfl
@[simp] theorem Hw.modCp_psc (hw : Hw) (s l : Nat) (f : Prog → Prog) : (hw.modCp s l f).psc = hw.psc := rfl
@[simp] theorem Hw.modCp_kz (hw : Hw) (s l : Nat) (f : Prog → Prog) : (hw.modCp s l f).kz = hw.kz := rfl
@[simp] theorem Hw.modCp_irc (hw : Hw) (s l : Nat) (f : Prog → Prog) : (hw.modCp s l f).irc = hw.irc := rfl
@[simp] theorem Hw.modCp_tc (hw : Hw) (s l : Nat) (f : Prog → Prog) : (hw.modCp s l f).tc = hw.tc := rfl
@[simp] theorem Hw.modCp_tio (hw : Hw) (s l : Nat) (f : Prog → Prog) : (hw.modCp s l f).tio = hw.tio := rfl
@[simp] theorem Hw.modCp_tb (hw : Hw) (s l : Nat) (f : Prog → Prog) : (hw.modCp s l f).tb = hw.tb := rfl
@[simp] theorem Hw.modCp_power (hw : Hw) (s l : Nat) (f : Prog → Prog) : (hw.modCp s l f).power = hw.power := rfl
@[simp] theorem Hw.modCp_sq (hw : Hw) (s l : Nat) (f : Prog → Prog) : (hw.modCp s l f).sq = hw.sq := rfl
@[simp] theorem Hw.modCp_slot (hw : Hw) (s l : Nat) (f : Prog → Prog) : (hw.modCp s l f).slot = hw.slot := rfl
@[simp] theorem Hw.modCp_link (hw : Hw) (s l : Nat) (f : Prog → Prog) : (hw.modCp s l f).link = hw.link := rfl
@[simp] theorem Hw.modCp_fitCrc (hw : Hw) (s l : Nat) (f : Prog → Prog) : (hw.modCp s l f).fitCrc = hw.fitCrc := rfl
@[simp] theorem Hw.modCp_fitLane (hw : Hw) (s l : Nat) (f : Prog → Prog) : (hw.modCp s l f).fitLane = hw.fitLane := rfl
@[simp] theorem Hw.modCp_rt (hw : Hw) (s l : Nat) (f : Prog → Prog) : (hw.modCp s l f).rt = hw.rt := rfl
@[simp] theorem Hw.modCp_ol (hw : Hw) (s l : Nat) (f : Prog → Prog) : (hw.modCp s l f).ol = hw.ol := rfl
@[simp] theorem Hw.modCp_dma (hw : Hw) (s l : Nat) (f : Prog → Prog) : (hw.modCp s l f).dma = hw.dma := rfl
@[simp] theorem Hw.modCp_dmaTmo (hw : Hw) (s l : Nat) (f : Prog → Prog) : (hw.modCp s l f).dmaTmo = hw.dmaTmo := rfl
@[simp] theorem Hw.modCp_seq (hw : Hw) (s l : Nat) (f : Prog → Prog) : (hw.modCp s l f).seq = hw.seq := rfl
@[simp] theorem Hw.modCp_jobs (hw : Hw) (s l : Nat) (f : Prog → Prog) : (hw.modCp s l f).jobs = hw.jobs := rfl
@[simp] theorem Hw.modCp_bud (hw : Hw) (s l : Nat) (f : Prog → Prog) : (hw.modCp s l f).bud = hw.bud := rfl
@[simp] theorem Hw.modCp_journal (hw : Hw) (s l : Nat) (f : Prog → Prog) : (hw.modCp s l f).journal = hw.journal := rfl
@[simp] theorem Hw.modCp_results (hw : Hw) (s l : Nat) (f : Prog → Prog) : (hw.modCp s l f).results = hw.results := rfl
@[simp] theorem Hw.modCp_flt (hw : Hw) (s l : Nat) (f : Prog → Prog) : (hw.modCp s l f).flt = hw.flt := rfl
@[simp] theorem Hw.modCp_csi (hw : Hw) (s l : Nat) (f : Prog → Prog) : (hw.modCp s l f).csi = hw.csi := rfl
@[simp] theorem Hw.modCp_heldAcc (hw : Hw) (s l : Nat) (f : Prog → Prog) : (hw.modCp s l f).heldAcc = hw.heldAcc := rfl

/-! ### modJob: only the field jobs changes. -/

@[simp] theorem Hw.modJob_elapsed (hw : Hw) (j : Nat) (f : Job → Job) : (hw.modJob j f).elapsed = hw.elapsed := rfl
@[simp] theorem Hw.modJob_fresh (hw : Hw) (j : Nat) (f : Job → Job) : (hw.modJob j f).fresh = hw.fresh := rfl
@[simp] theorem Hw.modJob_bus (hw : Hw) (j : Nat) (f : Job → Job) : (hw.modJob j f).bus = hw.bus := rfl
@[simp] theorem Hw.modJob_risen (hw : Hw) (j : Nat) (f : Job → Job) : (hw.modJob j f).risen = hw.risen := rfl
@[simp] theorem Hw.modJob_half (hw : Hw) (j : Nat) (f : Job → Job) : (hw.modJob j f).half = hw.half := rfl
@[simp] theorem Hw.modJob_supply (hw : Hw) (j : Nat) (f : Job → Job) : (hw.modJob j f).supply = hw.supply := rfl
@[simp] theorem Hw.modJob_bring (hw : Hw) (j : Nat) (f : Job → Job) : (hw.modJob j f).bring = hw.bring := rfl
@[simp] theorem Hw.modJob_fuses (hw : Hw) (j : Nat) (f : Job → Job) : (hw.modJob j f).fuses = hw.fuses := rfl
@[simp] theorem Hw.modJob_sec (hw : Hw) (j : Nat) (f : Job → Job) : (hw.modJob j f).sec = hw.sec := rfl
@[simp] theorem Hw.modJob_fw (hw : Hw) (j : Nat) (f : Job → Job) : (hw.modJob j f).fw = hw.fw := rfl
@[simp] theorem Hw.modJob_banks (hw : Hw) (j : Nat) (f : Job → Job) : (hw.modJob j f).banks = hw.banks := rfl
@[simp] theorem Hw.modJob_psc (hw : Hw) (j : Nat) (f : Job → Job) : (hw.modJob j f).psc = hw.psc := rfl
@[simp] theorem Hw.modJob_kz (hw : Hw) (j : Nat) (f : Job → Job) : (hw.modJob j f).kz = hw.kz := rfl
@[simp] theorem Hw.modJob_irc (hw : Hw) (j : Nat) (f : Job → Job) : (hw.modJob j f).irc = hw.irc := rfl
@[simp] theorem Hw.modJob_tc (hw : Hw) (j : Nat) (f : Job → Job) : (hw.modJob j f).tc = hw.tc := rfl
@[simp] theorem Hw.modJob_tio (hw : Hw) (j : Nat) (f : Job → Job) : (hw.modJob j f).tio = hw.tio := rfl
@[simp] theorem Hw.modJob_tb (hw : Hw) (j : Nat) (f : Job → Job) : (hw.modJob j f).tb = hw.tb := rfl
@[simp] theorem Hw.modJob_power (hw : Hw) (j : Nat) (f : Job → Job) : (hw.modJob j f).power = hw.power := rfl
@[simp] theorem Hw.modJob_sq (hw : Hw) (j : Nat) (f : Job → Job) : (hw.modJob j f).sq = hw.sq := rfl
@[simp] theorem Hw.modJob_slot (hw : Hw) (j : Nat) (f : Job → Job) : (hw.modJob j f).slot = hw.slot := rfl
@[simp] theorem Hw.modJob_core (hw : Hw) (j : Nat) (f : Job → Job) : (hw.modJob j f).core = hw.core := rfl
@[simp] theorem Hw.modJob_link (hw : Hw) (j : Nat) (f : Job → Job) : (hw.modJob j f).link = hw.link := rfl
@[simp] theorem Hw.modJob_fitCrc (hw : Hw) (j : Nat) (f : Job → Job) : (hw.modJob j f).fitCrc = hw.fitCrc := rfl
@[simp] theorem Hw.modJob_fitLane (hw : Hw) (j : Nat) (f : Job → Job) : (hw.modJob j f).fitLane = hw.fitLane := rfl
@[simp] theorem Hw.modJob_rt (hw : Hw) (j : Nat) (f : Job → Job) : (hw.modJob j f).rt = hw.rt := rfl
@[simp] theorem Hw.modJob_ol (hw : Hw) (j : Nat) (f : Job → Job) : (hw.modJob j f).ol = hw.ol := rfl
@[simp] theorem Hw.modJob_dma (hw : Hw) (j : Nat) (f : Job → Job) : (hw.modJob j f).dma = hw.dma := rfl
@[simp] theorem Hw.modJob_dmaTmo (hw : Hw) (j : Nat) (f : Job → Job) : (hw.modJob j f).dmaTmo = hw.dmaTmo := rfl
@[simp] theorem Hw.modJob_seq (hw : Hw) (j : Nat) (f : Job → Job) : (hw.modJob j f).seq = hw.seq := rfl
@[simp] theorem Hw.modJob_bud (hw : Hw) (j : Nat) (f : Job → Job) : (hw.modJob j f).bud = hw.bud := rfl
@[simp] theorem Hw.modJob_journal (hw : Hw) (j : Nat) (f : Job → Job) : (hw.modJob j f).journal = hw.journal := rfl
@[simp] theorem Hw.modJob_results (hw : Hw) (j : Nat) (f : Job → Job) : (hw.modJob j f).results = hw.results := rfl
@[simp] theorem Hw.modJob_flt (hw : Hw) (j : Nat) (f : Job → Job) : (hw.modJob j f).flt = hw.flt := rfl
@[simp] theorem Hw.modJob_csi (hw : Hw) (j : Nat) (f : Job → Job) : (hw.modJob j f).csi = hw.csi := rfl
@[simp] theorem Hw.modJob_heldAcc (hw : Hw) (j : Nat) (f : Job → Job) : (hw.modJob j f).heldAcc = hw.heldAcc := rfl

/-! ### modLink: only the field link changes. -/

@[simp] theorem Hw.modLink_elapsed (hw : Hw) (n : Nat) (f : Link → Link) : (hw.modLink n f).elapsed = hw.elapsed := rfl
@[simp] theorem Hw.modLink_fresh (hw : Hw) (n : Nat) (f : Link → Link) : (hw.modLink n f).fresh = hw.fresh := rfl
@[simp] theorem Hw.modLink_bus (hw : Hw) (n : Nat) (f : Link → Link) : (hw.modLink n f).bus = hw.bus := rfl
@[simp] theorem Hw.modLink_risen (hw : Hw) (n : Nat) (f : Link → Link) : (hw.modLink n f).risen = hw.risen := rfl
@[simp] theorem Hw.modLink_half (hw : Hw) (n : Nat) (f : Link → Link) : (hw.modLink n f).half = hw.half := rfl
@[simp] theorem Hw.modLink_supply (hw : Hw) (n : Nat) (f : Link → Link) : (hw.modLink n f).supply = hw.supply := rfl
@[simp] theorem Hw.modLink_bring (hw : Hw) (n : Nat) (f : Link → Link) : (hw.modLink n f).bring = hw.bring := rfl
@[simp] theorem Hw.modLink_fuses (hw : Hw) (n : Nat) (f : Link → Link) : (hw.modLink n f).fuses = hw.fuses := rfl
@[simp] theorem Hw.modLink_sec (hw : Hw) (n : Nat) (f : Link → Link) : (hw.modLink n f).sec = hw.sec := rfl
@[simp] theorem Hw.modLink_fw (hw : Hw) (n : Nat) (f : Link → Link) : (hw.modLink n f).fw = hw.fw := rfl
@[simp] theorem Hw.modLink_banks (hw : Hw) (n : Nat) (f : Link → Link) : (hw.modLink n f).banks = hw.banks := rfl
@[simp] theorem Hw.modLink_psc (hw : Hw) (n : Nat) (f : Link → Link) : (hw.modLink n f).psc = hw.psc := rfl
@[simp] theorem Hw.modLink_kz (hw : Hw) (n : Nat) (f : Link → Link) : (hw.modLink n f).kz = hw.kz := rfl
@[simp] theorem Hw.modLink_irc (hw : Hw) (n : Nat) (f : Link → Link) : (hw.modLink n f).irc = hw.irc := rfl
@[simp] theorem Hw.modLink_tc (hw : Hw) (n : Nat) (f : Link → Link) : (hw.modLink n f).tc = hw.tc := rfl
@[simp] theorem Hw.modLink_tio (hw : Hw) (n : Nat) (f : Link → Link) : (hw.modLink n f).tio = hw.tio := rfl
@[simp] theorem Hw.modLink_tb (hw : Hw) (n : Nat) (f : Link → Link) : (hw.modLink n f).tb = hw.tb := rfl
@[simp] theorem Hw.modLink_power (hw : Hw) (n : Nat) (f : Link → Link) : (hw.modLink n f).power = hw.power := rfl
@[simp] theorem Hw.modLink_sq (hw : Hw) (n : Nat) (f : Link → Link) : (hw.modLink n f).sq = hw.sq := rfl
@[simp] theorem Hw.modLink_slot (hw : Hw) (n : Nat) (f : Link → Link) : (hw.modLink n f).slot = hw.slot := rfl
@[simp] theorem Hw.modLink_core (hw : Hw) (n : Nat) (f : Link → Link) : (hw.modLink n f).core = hw.core := rfl
@[simp] theorem Hw.modLink_fitCrc (hw : Hw) (n : Nat) (f : Link → Link) : (hw.modLink n f).fitCrc = hw.fitCrc := rfl
@[simp] theorem Hw.modLink_fitLane (hw : Hw) (n : Nat) (f : Link → Link) : (hw.modLink n f).fitLane = hw.fitLane := rfl
@[simp] theorem Hw.modLink_rt (hw : Hw) (n : Nat) (f : Link → Link) : (hw.modLink n f).rt = hw.rt := rfl
@[simp] theorem Hw.modLink_ol (hw : Hw) (n : Nat) (f : Link → Link) : (hw.modLink n f).ol = hw.ol := rfl
@[simp] theorem Hw.modLink_dma (hw : Hw) (n : Nat) (f : Link → Link) : (hw.modLink n f).dma = hw.dma := rfl
@[simp] theorem Hw.modLink_dmaTmo (hw : Hw) (n : Nat) (f : Link → Link) : (hw.modLink n f).dmaTmo = hw.dmaTmo := rfl
@[simp] theorem Hw.modLink_seq (hw : Hw) (n : Nat) (f : Link → Link) : (hw.modLink n f).seq = hw.seq := rfl
@[simp] theorem Hw.modLink_jobs (hw : Hw) (n : Nat) (f : Link → Link) : (hw.modLink n f).jobs = hw.jobs := rfl
@[simp] theorem Hw.modLink_bud (hw : Hw) (n : Nat) (f : Link → Link) : (hw.modLink n f).bud = hw.bud := rfl
@[simp] theorem Hw.modLink_journal (hw : Hw) (n : Nat) (f : Link → Link) : (hw.modLink n f).journal = hw.journal := rfl
@[simp] theorem Hw.modLink_results (hw : Hw) (n : Nat) (f : Link → Link) : (hw.modLink n f).results = hw.results := rfl
@[simp] theorem Hw.modLink_flt (hw : Hw) (n : Nat) (f : Link → Link) : (hw.modLink n f).flt = hw.flt := rfl
@[simp] theorem Hw.modLink_csi (hw : Hw) (n : Nat) (f : Link → Link) : (hw.modLink n f).csi = hw.csi := rfl
@[simp] theorem Hw.modLink_heldAcc (hw : Hw) (n : Nat) (f : Link → Link) : (hw.modLink n f).heldAcc = hw.heldAcc := rfl

/-! ### modDma: only the field dma changes. -/

@[simp] theorem Hw.modDma_elapsed (hw : Hw) (c : Nat) (f : Dma → Dma) : (hw.modDma c f).elapsed = hw.elapsed := rfl
@[simp] theorem Hw.modDma_fresh (hw : Hw) (c : Nat) (f : Dma → Dma) : (hw.modDma c f).fresh = hw.fresh := rfl
@[simp] theorem Hw.modDma_bus (hw : Hw) (c : Nat) (f : Dma → Dma) : (hw.modDma c f).bus = hw.bus := rfl
@[simp] theorem Hw.modDma_risen (hw : Hw) (c : Nat) (f : Dma → Dma) : (hw.modDma c f).risen = hw.risen := rfl
@[simp] theorem Hw.modDma_half (hw : Hw) (c : Nat) (f : Dma → Dma) : (hw.modDma c f).half = hw.half := rfl
@[simp] theorem Hw.modDma_supply (hw : Hw) (c : Nat) (f : Dma → Dma) : (hw.modDma c f).supply = hw.supply := rfl
@[simp] theorem Hw.modDma_bring (hw : Hw) (c : Nat) (f : Dma → Dma) : (hw.modDma c f).bring = hw.bring := rfl
@[simp] theorem Hw.modDma_fuses (hw : Hw) (c : Nat) (f : Dma → Dma) : (hw.modDma c f).fuses = hw.fuses := rfl
@[simp] theorem Hw.modDma_sec (hw : Hw) (c : Nat) (f : Dma → Dma) : (hw.modDma c f).sec = hw.sec := rfl
@[simp] theorem Hw.modDma_fw (hw : Hw) (c : Nat) (f : Dma → Dma) : (hw.modDma c f).fw = hw.fw := rfl
@[simp] theorem Hw.modDma_banks (hw : Hw) (c : Nat) (f : Dma → Dma) : (hw.modDma c f).banks = hw.banks := rfl
@[simp] theorem Hw.modDma_psc (hw : Hw) (c : Nat) (f : Dma → Dma) : (hw.modDma c f).psc = hw.psc := rfl
@[simp] theorem Hw.modDma_kz (hw : Hw) (c : Nat) (f : Dma → Dma) : (hw.modDma c f).kz = hw.kz := rfl
@[simp] theorem Hw.modDma_irc (hw : Hw) (c : Nat) (f : Dma → Dma) : (hw.modDma c f).irc = hw.irc := rfl
@[simp] theorem Hw.modDma_tc (hw : Hw) (c : Nat) (f : Dma → Dma) : (hw.modDma c f).tc = hw.tc := rfl
@[simp] theorem Hw.modDma_tio (hw : Hw) (c : Nat) (f : Dma → Dma) : (hw.modDma c f).tio = hw.tio := rfl
@[simp] theorem Hw.modDma_tb (hw : Hw) (c : Nat) (f : Dma → Dma) : (hw.modDma c f).tb = hw.tb := rfl
@[simp] theorem Hw.modDma_power (hw : Hw) (c : Nat) (f : Dma → Dma) : (hw.modDma c f).power = hw.power := rfl
@[simp] theorem Hw.modDma_sq (hw : Hw) (c : Nat) (f : Dma → Dma) : (hw.modDma c f).sq = hw.sq := rfl
@[simp] theorem Hw.modDma_slot (hw : Hw) (c : Nat) (f : Dma → Dma) : (hw.modDma c f).slot = hw.slot := rfl
@[simp] theorem Hw.modDma_core (hw : Hw) (c : Nat) (f : Dma → Dma) : (hw.modDma c f).core = hw.core := rfl
@[simp] theorem Hw.modDma_link (hw : Hw) (c : Nat) (f : Dma → Dma) : (hw.modDma c f).link = hw.link := rfl
@[simp] theorem Hw.modDma_fitCrc (hw : Hw) (c : Nat) (f : Dma → Dma) : (hw.modDma c f).fitCrc = hw.fitCrc := rfl
@[simp] theorem Hw.modDma_fitLane (hw : Hw) (c : Nat) (f : Dma → Dma) : (hw.modDma c f).fitLane = hw.fitLane := rfl
@[simp] theorem Hw.modDma_rt (hw : Hw) (c : Nat) (f : Dma → Dma) : (hw.modDma c f).rt = hw.rt := rfl
@[simp] theorem Hw.modDma_ol (hw : Hw) (c : Nat) (f : Dma → Dma) : (hw.modDma c f).ol = hw.ol := rfl
@[simp] theorem Hw.modDma_dmaTmo (hw : Hw) (c : Nat) (f : Dma → Dma) : (hw.modDma c f).dmaTmo = hw.dmaTmo := rfl
@[simp] theorem Hw.modDma_seq (hw : Hw) (c : Nat) (f : Dma → Dma) : (hw.modDma c f).seq = hw.seq := rfl
@[simp] theorem Hw.modDma_jobs (hw : Hw) (c : Nat) (f : Dma → Dma) : (hw.modDma c f).jobs = hw.jobs := rfl
@[simp] theorem Hw.modDma_bud (hw : Hw) (c : Nat) (f : Dma → Dma) : (hw.modDma c f).bud = hw.bud := rfl
@[simp] theorem Hw.modDma_journal (hw : Hw) (c : Nat) (f : Dma → Dma) : (hw.modDma c f).journal = hw.journal := rfl
@[simp] theorem Hw.modDma_results (hw : Hw) (c : Nat) (f : Dma → Dma) : (hw.modDma c f).results = hw.results := rfl
@[simp] theorem Hw.modDma_flt (hw : Hw) (c : Nat) (f : Dma → Dma) : (hw.modDma c f).flt = hw.flt := rfl
@[simp] theorem Hw.modDma_csi (hw : Hw) (c : Nat) (f : Dma → Dma) : (hw.modDma c f).csi = hw.csi := rfl
@[simp] theorem Hw.modDma_heldAcc (hw : Hw) (c : Nat) (f : Dma → Dma) : (hw.modDma c f).heldAcc = hw.heldAcc := rfl

/-! ### modTc: only the field tc changes. -/

@[simp] theorem Hw.modTc_elapsed (hw : Hw) (n : Nat) (f : Tc → Tc) : (hw.modTc n f).elapsed = hw.elapsed := rfl
@[simp] theorem Hw.modTc_fresh (hw : Hw) (n : Nat) (f : Tc → Tc) : (hw.modTc n f).fresh = hw.fresh := rfl
@[simp] theorem Hw.modTc_bus (hw : Hw) (n : Nat) (f : Tc → Tc) : (hw.modTc n f).bus = hw.bus := rfl
@[simp] theorem Hw.modTc_risen (hw : Hw) (n : Nat) (f : Tc → Tc) : (hw.modTc n f).risen = hw.risen := rfl
@[simp] theorem Hw.modTc_half (hw : Hw) (n : Nat) (f : Tc → Tc) : (hw.modTc n f).half = hw.half := rfl
@[simp] theorem Hw.modTc_supply (hw : Hw) (n : Nat) (f : Tc → Tc) : (hw.modTc n f).supply = hw.supply := rfl
@[simp] theorem Hw.modTc_bring (hw : Hw) (n : Nat) (f : Tc → Tc) : (hw.modTc n f).bring = hw.bring := rfl
@[simp] theorem Hw.modTc_fuses (hw : Hw) (n : Nat) (f : Tc → Tc) : (hw.modTc n f).fuses = hw.fuses := rfl
@[simp] theorem Hw.modTc_sec (hw : Hw) (n : Nat) (f : Tc → Tc) : (hw.modTc n f).sec = hw.sec := rfl
@[simp] theorem Hw.modTc_fw (hw : Hw) (n : Nat) (f : Tc → Tc) : (hw.modTc n f).fw = hw.fw := rfl
@[simp] theorem Hw.modTc_banks (hw : Hw) (n : Nat) (f : Tc → Tc) : (hw.modTc n f).banks = hw.banks := rfl
@[simp] theorem Hw.modTc_psc (hw : Hw) (n : Nat) (f : Tc → Tc) : (hw.modTc n f).psc = hw.psc := rfl
@[simp] theorem Hw.modTc_kz (hw : Hw) (n : Nat) (f : Tc → Tc) : (hw.modTc n f).kz = hw.kz := rfl
@[simp] theorem Hw.modTc_irc (hw : Hw) (n : Nat) (f : Tc → Tc) : (hw.modTc n f).irc = hw.irc := rfl
@[simp] theorem Hw.modTc_tio (hw : Hw) (n : Nat) (f : Tc → Tc) : (hw.modTc n f).tio = hw.tio := rfl
@[simp] theorem Hw.modTc_tb (hw : Hw) (n : Nat) (f : Tc → Tc) : (hw.modTc n f).tb = hw.tb := rfl
@[simp] theorem Hw.modTc_power (hw : Hw) (n : Nat) (f : Tc → Tc) : (hw.modTc n f).power = hw.power := rfl
@[simp] theorem Hw.modTc_sq (hw : Hw) (n : Nat) (f : Tc → Tc) : (hw.modTc n f).sq = hw.sq := rfl
@[simp] theorem Hw.modTc_slot (hw : Hw) (n : Nat) (f : Tc → Tc) : (hw.modTc n f).slot = hw.slot := rfl
@[simp] theorem Hw.modTc_core (hw : Hw) (n : Nat) (f : Tc → Tc) : (hw.modTc n f).core = hw.core := rfl
@[simp] theorem Hw.modTc_link (hw : Hw) (n : Nat) (f : Tc → Tc) : (hw.modTc n f).link = hw.link := rfl
@[simp] theorem Hw.modTc_fitCrc (hw : Hw) (n : Nat) (f : Tc → Tc) : (hw.modTc n f).fitCrc = hw.fitCrc := rfl
@[simp] theorem Hw.modTc_fitLane (hw : Hw) (n : Nat) (f : Tc → Tc) : (hw.modTc n f).fitLane = hw.fitLane := rfl
@[simp] theorem Hw.modTc_rt (hw : Hw) (n : Nat) (f : Tc → Tc) : (hw.modTc n f).rt = hw.rt := rfl
@[simp] theorem Hw.modTc_ol (hw : Hw) (n : Nat) (f : Tc → Tc) : (hw.modTc n f).ol = hw.ol := rfl
@[simp] theorem Hw.modTc_dma (hw : Hw) (n : Nat) (f : Tc → Tc) : (hw.modTc n f).dma = hw.dma := rfl
@[simp] theorem Hw.modTc_dmaTmo (hw : Hw) (n : Nat) (f : Tc → Tc) : (hw.modTc n f).dmaTmo = hw.dmaTmo := rfl
@[simp] theorem Hw.modTc_seq (hw : Hw) (n : Nat) (f : Tc → Tc) : (hw.modTc n f).seq = hw.seq := rfl
@[simp] theorem Hw.modTc_jobs (hw : Hw) (n : Nat) (f : Tc → Tc) : (hw.modTc n f).jobs = hw.jobs := rfl
@[simp] theorem Hw.modTc_bud (hw : Hw) (n : Nat) (f : Tc → Tc) : (hw.modTc n f).bud = hw.bud := rfl
@[simp] theorem Hw.modTc_journal (hw : Hw) (n : Nat) (f : Tc → Tc) : (hw.modTc n f).journal = hw.journal := rfl
@[simp] theorem Hw.modTc_results (hw : Hw) (n : Nat) (f : Tc → Tc) : (hw.modTc n f).results = hw.results := rfl
@[simp] theorem Hw.modTc_flt (hw : Hw) (n : Nat) (f : Tc → Tc) : (hw.modTc n f).flt = hw.flt := rfl
@[simp] theorem Hw.modTc_csi (hw : Hw) (n : Nat) (f : Tc → Tc) : (hw.modTc n f).csi = hw.csi := rfl
@[simp] theorem Hw.modTc_heldAcc (hw : Hw) (n : Nat) (f : Tc → Tc) : (hw.modTc n f).heldAcc = hw.heldAcc := rfl

/-! ### modCsi: only the field csi changes. -/

@[simp] theorem Hw.modCsi_elapsed (hw : Hw) (n : Nat) (f : CsiPort → CsiPort) : (hw.modCsi n f).elapsed = hw.elapsed := rfl
@[simp] theorem Hw.modCsi_fresh (hw : Hw) (n : Nat) (f : CsiPort → CsiPort) : (hw.modCsi n f).fresh = hw.fresh := rfl
@[simp] theorem Hw.modCsi_bus (hw : Hw) (n : Nat) (f : CsiPort → CsiPort) : (hw.modCsi n f).bus = hw.bus := rfl
@[simp] theorem Hw.modCsi_risen (hw : Hw) (n : Nat) (f : CsiPort → CsiPort) : (hw.modCsi n f).risen = hw.risen := rfl
@[simp] theorem Hw.modCsi_half (hw : Hw) (n : Nat) (f : CsiPort → CsiPort) : (hw.modCsi n f).half = hw.half := rfl
@[simp] theorem Hw.modCsi_supply (hw : Hw) (n : Nat) (f : CsiPort → CsiPort) : (hw.modCsi n f).supply = hw.supply := rfl
@[simp] theorem Hw.modCsi_bring (hw : Hw) (n : Nat) (f : CsiPort → CsiPort) : (hw.modCsi n f).bring = hw.bring := rfl
@[simp] theorem Hw.modCsi_fuses (hw : Hw) (n : Nat) (f : CsiPort → CsiPort) : (hw.modCsi n f).fuses = hw.fuses := rfl
@[simp] theorem Hw.modCsi_sec (hw : Hw) (n : Nat) (f : CsiPort → CsiPort) : (hw.modCsi n f).sec = hw.sec := rfl
@[simp] theorem Hw.modCsi_fw (hw : Hw) (n : Nat) (f : CsiPort → CsiPort) : (hw.modCsi n f).fw = hw.fw := rfl
@[simp] theorem Hw.modCsi_banks (hw : Hw) (n : Nat) (f : CsiPort → CsiPort) : (hw.modCsi n f).banks = hw.banks := rfl
@[simp] theorem Hw.modCsi_psc (hw : Hw) (n : Nat) (f : CsiPort → CsiPort) : (hw.modCsi n f).psc = hw.psc := rfl
@[simp] theorem Hw.modCsi_kz (hw : Hw) (n : Nat) (f : CsiPort → CsiPort) : (hw.modCsi n f).kz = hw.kz := rfl
@[simp] theorem Hw.modCsi_irc (hw : Hw) (n : Nat) (f : CsiPort → CsiPort) : (hw.modCsi n f).irc = hw.irc := rfl
@[simp] theorem Hw.modCsi_tc (hw : Hw) (n : Nat) (f : CsiPort → CsiPort) : (hw.modCsi n f).tc = hw.tc := rfl
@[simp] theorem Hw.modCsi_tio (hw : Hw) (n : Nat) (f : CsiPort → CsiPort) : (hw.modCsi n f).tio = hw.tio := rfl
@[simp] theorem Hw.modCsi_tb (hw : Hw) (n : Nat) (f : CsiPort → CsiPort) : (hw.modCsi n f).tb = hw.tb := rfl
@[simp] theorem Hw.modCsi_power (hw : Hw) (n : Nat) (f : CsiPort → CsiPort) : (hw.modCsi n f).power = hw.power := rfl
@[simp] theorem Hw.modCsi_sq (hw : Hw) (n : Nat) (f : CsiPort → CsiPort) : (hw.modCsi n f).sq = hw.sq := rfl
@[simp] theorem Hw.modCsi_slot (hw : Hw) (n : Nat) (f : CsiPort → CsiPort) : (hw.modCsi n f).slot = hw.slot := rfl
@[simp] theorem Hw.modCsi_core (hw : Hw) (n : Nat) (f : CsiPort → CsiPort) : (hw.modCsi n f).core = hw.core := rfl
@[simp] theorem Hw.modCsi_link (hw : Hw) (n : Nat) (f : CsiPort → CsiPort) : (hw.modCsi n f).link = hw.link := rfl
@[simp] theorem Hw.modCsi_fitCrc (hw : Hw) (n : Nat) (f : CsiPort → CsiPort) : (hw.modCsi n f).fitCrc = hw.fitCrc := rfl
@[simp] theorem Hw.modCsi_fitLane (hw : Hw) (n : Nat) (f : CsiPort → CsiPort) : (hw.modCsi n f).fitLane = hw.fitLane := rfl
@[simp] theorem Hw.modCsi_rt (hw : Hw) (n : Nat) (f : CsiPort → CsiPort) : (hw.modCsi n f).rt = hw.rt := rfl
@[simp] theorem Hw.modCsi_ol (hw : Hw) (n : Nat) (f : CsiPort → CsiPort) : (hw.modCsi n f).ol = hw.ol := rfl
@[simp] theorem Hw.modCsi_dma (hw : Hw) (n : Nat) (f : CsiPort → CsiPort) : (hw.modCsi n f).dma = hw.dma := rfl
@[simp] theorem Hw.modCsi_dmaTmo (hw : Hw) (n : Nat) (f : CsiPort → CsiPort) : (hw.modCsi n f).dmaTmo = hw.dmaTmo := rfl
@[simp] theorem Hw.modCsi_seq (hw : Hw) (n : Nat) (f : CsiPort → CsiPort) : (hw.modCsi n f).seq = hw.seq := rfl
@[simp] theorem Hw.modCsi_jobs (hw : Hw) (n : Nat) (f : CsiPort → CsiPort) : (hw.modCsi n f).jobs = hw.jobs := rfl
@[simp] theorem Hw.modCsi_bud (hw : Hw) (n : Nat) (f : CsiPort → CsiPort) : (hw.modCsi n f).bud = hw.bud := rfl
@[simp] theorem Hw.modCsi_journal (hw : Hw) (n : Nat) (f : CsiPort → CsiPort) : (hw.modCsi n f).journal = hw.journal := rfl
@[simp] theorem Hw.modCsi_results (hw : Hw) (n : Nat) (f : CsiPort → CsiPort) : (hw.modCsi n f).results = hw.results := rfl
@[simp] theorem Hw.modCsi_flt (hw : Hw) (n : Nat) (f : CsiPort → CsiPort) : (hw.modCsi n f).flt = hw.flt := rfl
@[simp] theorem Hw.modCsi_heldAcc (hw : Hw) (n : Nat) (f : CsiPort → CsiPort) : (hw.modCsi n f).heldAcc = hw.heldAcc := rfl

/-! ### modDom: only the field power changes. -/

@[simp] theorem Hw.modDom_elapsed (hw : Hw) (d : Nat) (f : Domain → Domain) : (hw.modDom d f).elapsed = hw.elapsed := rfl
@[simp] theorem Hw.modDom_fresh (hw : Hw) (d : Nat) (f : Domain → Domain) : (hw.modDom d f).fresh = hw.fresh := rfl
@[simp] theorem Hw.modDom_bus (hw : Hw) (d : Nat) (f : Domain → Domain) : (hw.modDom d f).bus = hw.bus := rfl
@[simp] theorem Hw.modDom_risen (hw : Hw) (d : Nat) (f : Domain → Domain) : (hw.modDom d f).risen = hw.risen := rfl
@[simp] theorem Hw.modDom_half (hw : Hw) (d : Nat) (f : Domain → Domain) : (hw.modDom d f).half = hw.half := rfl
@[simp] theorem Hw.modDom_supply (hw : Hw) (d : Nat) (f : Domain → Domain) : (hw.modDom d f).supply = hw.supply := rfl
@[simp] theorem Hw.modDom_bring (hw : Hw) (d : Nat) (f : Domain → Domain) : (hw.modDom d f).bring = hw.bring := rfl
@[simp] theorem Hw.modDom_fuses (hw : Hw) (d : Nat) (f : Domain → Domain) : (hw.modDom d f).fuses = hw.fuses := rfl
@[simp] theorem Hw.modDom_sec (hw : Hw) (d : Nat) (f : Domain → Domain) : (hw.modDom d f).sec = hw.sec := rfl
@[simp] theorem Hw.modDom_fw (hw : Hw) (d : Nat) (f : Domain → Domain) : (hw.modDom d f).fw = hw.fw := rfl
@[simp] theorem Hw.modDom_banks (hw : Hw) (d : Nat) (f : Domain → Domain) : (hw.modDom d f).banks = hw.banks := rfl
@[simp] theorem Hw.modDom_psc (hw : Hw) (d : Nat) (f : Domain → Domain) : (hw.modDom d f).psc = hw.psc := rfl
@[simp] theorem Hw.modDom_kz (hw : Hw) (d : Nat) (f : Domain → Domain) : (hw.modDom d f).kz = hw.kz := rfl
@[simp] theorem Hw.modDom_irc (hw : Hw) (d : Nat) (f : Domain → Domain) : (hw.modDom d f).irc = hw.irc := rfl
@[simp] theorem Hw.modDom_tc (hw : Hw) (d : Nat) (f : Domain → Domain) : (hw.modDom d f).tc = hw.tc := rfl
@[simp] theorem Hw.modDom_tio (hw : Hw) (d : Nat) (f : Domain → Domain) : (hw.modDom d f).tio = hw.tio := rfl
@[simp] theorem Hw.modDom_tb (hw : Hw) (d : Nat) (f : Domain → Domain) : (hw.modDom d f).tb = hw.tb := rfl
@[simp] theorem Hw.modDom_sq (hw : Hw) (d : Nat) (f : Domain → Domain) : (hw.modDom d f).sq = hw.sq := rfl
@[simp] theorem Hw.modDom_slot (hw : Hw) (d : Nat) (f : Domain → Domain) : (hw.modDom d f).slot = hw.slot := rfl
@[simp] theorem Hw.modDom_core (hw : Hw) (d : Nat) (f : Domain → Domain) : (hw.modDom d f).core = hw.core := rfl
@[simp] theorem Hw.modDom_link (hw : Hw) (d : Nat) (f : Domain → Domain) : (hw.modDom d f).link = hw.link := rfl
@[simp] theorem Hw.modDom_fitCrc (hw : Hw) (d : Nat) (f : Domain → Domain) : (hw.modDom d f).fitCrc = hw.fitCrc := rfl
@[simp] theorem Hw.modDom_fitLane (hw : Hw) (d : Nat) (f : Domain → Domain) : (hw.modDom d f).fitLane = hw.fitLane := rfl
@[simp] theorem Hw.modDom_rt (hw : Hw) (d : Nat) (f : Domain → Domain) : (hw.modDom d f).rt = hw.rt := rfl
@[simp] theorem Hw.modDom_ol (hw : Hw) (d : Nat) (f : Domain → Domain) : (hw.modDom d f).ol = hw.ol := rfl
@[simp] theorem Hw.modDom_dma (hw : Hw) (d : Nat) (f : Domain → Domain) : (hw.modDom d f).dma = hw.dma := rfl
@[simp] theorem Hw.modDom_dmaTmo (hw : Hw) (d : Nat) (f : Domain → Domain) : (hw.modDom d f).dmaTmo = hw.dmaTmo := rfl
@[simp] theorem Hw.modDom_seq (hw : Hw) (d : Nat) (f : Domain → Domain) : (hw.modDom d f).seq = hw.seq := rfl
@[simp] theorem Hw.modDom_jobs (hw : Hw) (d : Nat) (f : Domain → Domain) : (hw.modDom d f).jobs = hw.jobs := rfl
@[simp] theorem Hw.modDom_bud (hw : Hw) (d : Nat) (f : Domain → Domain) : (hw.modDom d f).bud = hw.bud := rfl
@[simp] theorem Hw.modDom_journal (hw : Hw) (d : Nat) (f : Domain → Domain) : (hw.modDom d f).journal = hw.journal := rfl
@[simp] theorem Hw.modDom_results (hw : Hw) (d : Nat) (f : Domain → Domain) : (hw.modDom d f).results = hw.results := rfl
@[simp] theorem Hw.modDom_flt (hw : Hw) (d : Nat) (f : Domain → Domain) : (hw.modDom d f).flt = hw.flt := rfl
@[simp] theorem Hw.modDom_csi (hw : Hw) (d : Nat) (f : Domain → Domain) : (hw.modDom d f).csi = hw.csi := rfl
@[simp] theorem Hw.modDom_heldAcc (hw : Hw) (d : Nat) (f : Domain → Domain) : (hw.modDom d f).heldAcc = hw.heldAcc := rfl

/-! ### modSrc: only the field irc changes. -/

@[simp] theorem Hw.modSrc_elapsed (hw : Hw) (n : Nat) (f : IrcSrc → IrcSrc) : (hw.modSrc n f).elapsed = hw.elapsed := rfl
@[simp] theorem Hw.modSrc_fresh (hw : Hw) (n : Nat) (f : IrcSrc → IrcSrc) : (hw.modSrc n f).fresh = hw.fresh := rfl
@[simp] theorem Hw.modSrc_bus (hw : Hw) (n : Nat) (f : IrcSrc → IrcSrc) : (hw.modSrc n f).bus = hw.bus := rfl
@[simp] theorem Hw.modSrc_risen (hw : Hw) (n : Nat) (f : IrcSrc → IrcSrc) : (hw.modSrc n f).risen = hw.risen := rfl
@[simp] theorem Hw.modSrc_half (hw : Hw) (n : Nat) (f : IrcSrc → IrcSrc) : (hw.modSrc n f).half = hw.half := rfl
@[simp] theorem Hw.modSrc_supply (hw : Hw) (n : Nat) (f : IrcSrc → IrcSrc) : (hw.modSrc n f).supply = hw.supply := rfl
@[simp] theorem Hw.modSrc_bring (hw : Hw) (n : Nat) (f : IrcSrc → IrcSrc) : (hw.modSrc n f).bring = hw.bring := rfl
@[simp] theorem Hw.modSrc_fuses (hw : Hw) (n : Nat) (f : IrcSrc → IrcSrc) : (hw.modSrc n f).fuses = hw.fuses := rfl
@[simp] theorem Hw.modSrc_sec (hw : Hw) (n : Nat) (f : IrcSrc → IrcSrc) : (hw.modSrc n f).sec = hw.sec := rfl
@[simp] theorem Hw.modSrc_fw (hw : Hw) (n : Nat) (f : IrcSrc → IrcSrc) : (hw.modSrc n f).fw = hw.fw := rfl
@[simp] theorem Hw.modSrc_banks (hw : Hw) (n : Nat) (f : IrcSrc → IrcSrc) : (hw.modSrc n f).banks = hw.banks := rfl
@[simp] theorem Hw.modSrc_psc (hw : Hw) (n : Nat) (f : IrcSrc → IrcSrc) : (hw.modSrc n f).psc = hw.psc := rfl
@[simp] theorem Hw.modSrc_kz (hw : Hw) (n : Nat) (f : IrcSrc → IrcSrc) : (hw.modSrc n f).kz = hw.kz := rfl
@[simp] theorem Hw.modSrc_tc (hw : Hw) (n : Nat) (f : IrcSrc → IrcSrc) : (hw.modSrc n f).tc = hw.tc := rfl
@[simp] theorem Hw.modSrc_tio (hw : Hw) (n : Nat) (f : IrcSrc → IrcSrc) : (hw.modSrc n f).tio = hw.tio := rfl
@[simp] theorem Hw.modSrc_tb (hw : Hw) (n : Nat) (f : IrcSrc → IrcSrc) : (hw.modSrc n f).tb = hw.tb := rfl
@[simp] theorem Hw.modSrc_power (hw : Hw) (n : Nat) (f : IrcSrc → IrcSrc) : (hw.modSrc n f).power = hw.power := rfl
@[simp] theorem Hw.modSrc_sq (hw : Hw) (n : Nat) (f : IrcSrc → IrcSrc) : (hw.modSrc n f).sq = hw.sq := rfl
@[simp] theorem Hw.modSrc_slot (hw : Hw) (n : Nat) (f : IrcSrc → IrcSrc) : (hw.modSrc n f).slot = hw.slot := rfl
@[simp] theorem Hw.modSrc_core (hw : Hw) (n : Nat) (f : IrcSrc → IrcSrc) : (hw.modSrc n f).core = hw.core := rfl
@[simp] theorem Hw.modSrc_link (hw : Hw) (n : Nat) (f : IrcSrc → IrcSrc) : (hw.modSrc n f).link = hw.link := rfl
@[simp] theorem Hw.modSrc_fitCrc (hw : Hw) (n : Nat) (f : IrcSrc → IrcSrc) : (hw.modSrc n f).fitCrc = hw.fitCrc := rfl
@[simp] theorem Hw.modSrc_fitLane (hw : Hw) (n : Nat) (f : IrcSrc → IrcSrc) : (hw.modSrc n f).fitLane = hw.fitLane := rfl
@[simp] theorem Hw.modSrc_rt (hw : Hw) (n : Nat) (f : IrcSrc → IrcSrc) : (hw.modSrc n f).rt = hw.rt := rfl
@[simp] theorem Hw.modSrc_ol (hw : Hw) (n : Nat) (f : IrcSrc → IrcSrc) : (hw.modSrc n f).ol = hw.ol := rfl
@[simp] theorem Hw.modSrc_dma (hw : Hw) (n : Nat) (f : IrcSrc → IrcSrc) : (hw.modSrc n f).dma = hw.dma := rfl
@[simp] theorem Hw.modSrc_dmaTmo (hw : Hw) (n : Nat) (f : IrcSrc → IrcSrc) : (hw.modSrc n f).dmaTmo = hw.dmaTmo := rfl
@[simp] theorem Hw.modSrc_seq (hw : Hw) (n : Nat) (f : IrcSrc → IrcSrc) : (hw.modSrc n f).seq = hw.seq := rfl
@[simp] theorem Hw.modSrc_jobs (hw : Hw) (n : Nat) (f : IrcSrc → IrcSrc) : (hw.modSrc n f).jobs = hw.jobs := rfl
@[simp] theorem Hw.modSrc_bud (hw : Hw) (n : Nat) (f : IrcSrc → IrcSrc) : (hw.modSrc n f).bud = hw.bud := rfl
@[simp] theorem Hw.modSrc_journal (hw : Hw) (n : Nat) (f : IrcSrc → IrcSrc) : (hw.modSrc n f).journal = hw.journal := rfl
@[simp] theorem Hw.modSrc_results (hw : Hw) (n : Nat) (f : IrcSrc → IrcSrc) : (hw.modSrc n f).results = hw.results := rfl
@[simp] theorem Hw.modSrc_flt (hw : Hw) (n : Nat) (f : IrcSrc → IrcSrc) : (hw.modSrc n f).flt = hw.flt := rfl
@[simp] theorem Hw.modSrc_csi (hw : Hw) (n : Nat) (f : IrcSrc → IrcSrc) : (hw.modSrc n f).csi = hw.csi := rfl
@[simp] theorem Hw.modSrc_heldAcc (hw : Hw) (n : Nat) (f : IrcSrc → IrcSrc) : (hw.modSrc n f).heldAcc = hw.heldAcc := rfl

/-! ### modGrp: only the field irc changes. -/

@[simp] theorem Hw.modGrp_elapsed (hw : Hw) (g : Nat) (f : IrcGrp → IrcGrp) : (hw.modGrp g f).elapsed = hw.elapsed := rfl
@[simp] theorem Hw.modGrp_fresh (hw : Hw) (g : Nat) (f : IrcGrp → IrcGrp) : (hw.modGrp g f).fresh = hw.fresh := rfl
@[simp] theorem Hw.modGrp_bus (hw : Hw) (g : Nat) (f : IrcGrp → IrcGrp) : (hw.modGrp g f).bus = hw.bus := rfl
@[simp] theorem Hw.modGrp_risen (hw : Hw) (g : Nat) (f : IrcGrp → IrcGrp) : (hw.modGrp g f).risen = hw.risen := rfl
@[simp] theorem Hw.modGrp_half (hw : Hw) (g : Nat) (f : IrcGrp → IrcGrp) : (hw.modGrp g f).half = hw.half := rfl
@[simp] theorem Hw.modGrp_supply (hw : Hw) (g : Nat) (f : IrcGrp → IrcGrp) : (hw.modGrp g f).supply = hw.supply := rfl
@[simp] theorem Hw.modGrp_bring (hw : Hw) (g : Nat) (f : IrcGrp → IrcGrp) : (hw.modGrp g f).bring = hw.bring := rfl
@[simp] theorem Hw.modGrp_fuses (hw : Hw) (g : Nat) (f : IrcGrp → IrcGrp) : (hw.modGrp g f).fuses = hw.fuses := rfl
@[simp] theorem Hw.modGrp_sec (hw : Hw) (g : Nat) (f : IrcGrp → IrcGrp) : (hw.modGrp g f).sec = hw.sec := rfl
@[simp] theorem Hw.modGrp_fw (hw : Hw) (g : Nat) (f : IrcGrp → IrcGrp) : (hw.modGrp g f).fw = hw.fw := rfl
@[simp] theorem Hw.modGrp_banks (hw : Hw) (g : Nat) (f : IrcGrp → IrcGrp) : (hw.modGrp g f).banks = hw.banks := rfl
@[simp] theorem Hw.modGrp_psc (hw : Hw) (g : Nat) (f : IrcGrp → IrcGrp) : (hw.modGrp g f).psc = hw.psc := rfl
@[simp] theorem Hw.modGrp_kz (hw : Hw) (g : Nat) (f : IrcGrp → IrcGrp) : (hw.modGrp g f).kz = hw.kz := rfl
@[simp] theorem Hw.modGrp_tc (hw : Hw) (g : Nat) (f : IrcGrp → IrcGrp) : (hw.modGrp g f).tc = hw.tc := rfl
@[simp] theorem Hw.modGrp_tio (hw : Hw) (g : Nat) (f : IrcGrp → IrcGrp) : (hw.modGrp g f).tio = hw.tio := rfl
@[simp] theorem Hw.modGrp_tb (hw : Hw) (g : Nat) (f : IrcGrp → IrcGrp) : (hw.modGrp g f).tb = hw.tb := rfl
@[simp] theorem Hw.modGrp_power (hw : Hw) (g : Nat) (f : IrcGrp → IrcGrp) : (hw.modGrp g f).power = hw.power := rfl
@[simp] theorem Hw.modGrp_sq (hw : Hw) (g : Nat) (f : IrcGrp → IrcGrp) : (hw.modGrp g f).sq = hw.sq := rfl
@[simp] theorem Hw.modGrp_slot (hw : Hw) (g : Nat) (f : IrcGrp → IrcGrp) : (hw.modGrp g f).slot = hw.slot := rfl
@[simp] theorem Hw.modGrp_core (hw : Hw) (g : Nat) (f : IrcGrp → IrcGrp) : (hw.modGrp g f).core = hw.core := rfl
@[simp] theorem Hw.modGrp_link (hw : Hw) (g : Nat) (f : IrcGrp → IrcGrp) : (hw.modGrp g f).link = hw.link := rfl
@[simp] theorem Hw.modGrp_fitCrc (hw : Hw) (g : Nat) (f : IrcGrp → IrcGrp) : (hw.modGrp g f).fitCrc = hw.fitCrc := rfl
@[simp] theorem Hw.modGrp_fitLane (hw : Hw) (g : Nat) (f : IrcGrp → IrcGrp) : (hw.modGrp g f).fitLane = hw.fitLane := rfl
@[simp] theorem Hw.modGrp_rt (hw : Hw) (g : Nat) (f : IrcGrp → IrcGrp) : (hw.modGrp g f).rt = hw.rt := rfl
@[simp] theorem Hw.modGrp_ol (hw : Hw) (g : Nat) (f : IrcGrp → IrcGrp) : (hw.modGrp g f).ol = hw.ol := rfl
@[simp] theorem Hw.modGrp_dma (hw : Hw) (g : Nat) (f : IrcGrp → IrcGrp) : (hw.modGrp g f).dma = hw.dma := rfl
@[simp] theorem Hw.modGrp_dmaTmo (hw : Hw) (g : Nat) (f : IrcGrp → IrcGrp) : (hw.modGrp g f).dmaTmo = hw.dmaTmo := rfl
@[simp] theorem Hw.modGrp_seq (hw : Hw) (g : Nat) (f : IrcGrp → IrcGrp) : (hw.modGrp g f).seq = hw.seq := rfl
@[simp] theorem Hw.modGrp_jobs (hw : Hw) (g : Nat) (f : IrcGrp → IrcGrp) : (hw.modGrp g f).jobs = hw.jobs := rfl
@[simp] theorem Hw.modGrp_bud (hw : Hw) (g : Nat) (f : IrcGrp → IrcGrp) : (hw.modGrp g f).bud = hw.bud := rfl
@[simp] theorem Hw.modGrp_journal (hw : Hw) (g : Nat) (f : IrcGrp → IrcGrp) : (hw.modGrp g f).journal = hw.journal := rfl
@[simp] theorem Hw.modGrp_results (hw : Hw) (g : Nat) (f : IrcGrp → IrcGrp) : (hw.modGrp g f).results = hw.results := rfl
@[simp] theorem Hw.modGrp_flt (hw : Hw) (g : Nat) (f : IrcGrp → IrcGrp) : (hw.modGrp g f).flt = hw.flt := rfl
@[simp] theorem Hw.modGrp_csi (hw : Hw) (g : Nat) (f : IrcGrp → IrcGrp) : (hw.modGrp g f).csi = hw.csi := rfl
@[simp] theorem Hw.modGrp_heldAcc (hw : Hw) (g : Nat) (f : IrcGrp → IrcGrp) : (hw.modGrp g f).heldAcc = hw.heldAcc := rfl

/-! ### modChan: only the field psc changes. -/

@[simp] theorem Hw.modChan_elapsed (hw : Hw) (k : Nat) (f : PscChan → PscChan) : (hw.modChan k f).elapsed = hw.elapsed := rfl
@[simp] theorem Hw.modChan_fresh (hw : Hw) (k : Nat) (f : PscChan → PscChan) : (hw.modChan k f).fresh = hw.fresh := rfl
@[simp] theorem Hw.modChan_bus (hw : Hw) (k : Nat) (f : PscChan → PscChan) : (hw.modChan k f).bus = hw.bus := rfl
@[simp] theorem Hw.modChan_risen (hw : Hw) (k : Nat) (f : PscChan → PscChan) : (hw.modChan k f).risen = hw.risen := rfl
@[simp] theorem Hw.modChan_half (hw : Hw) (k : Nat) (f : PscChan → PscChan) : (hw.modChan k f).half = hw.half := rfl
@[simp] theorem Hw.modChan_supply (hw : Hw) (k : Nat) (f : PscChan → PscChan) : (hw.modChan k f).supply = hw.supply := rfl
@[simp] theorem Hw.modChan_bring (hw : Hw) (k : Nat) (f : PscChan → PscChan) : (hw.modChan k f).bring = hw.bring := rfl
@[simp] theorem Hw.modChan_fuses (hw : Hw) (k : Nat) (f : PscChan → PscChan) : (hw.modChan k f).fuses = hw.fuses := rfl
@[simp] theorem Hw.modChan_sec (hw : Hw) (k : Nat) (f : PscChan → PscChan) : (hw.modChan k f).sec = hw.sec := rfl
@[simp] theorem Hw.modChan_fw (hw : Hw) (k : Nat) (f : PscChan → PscChan) : (hw.modChan k f).fw = hw.fw := rfl
@[simp] theorem Hw.modChan_banks (hw : Hw) (k : Nat) (f : PscChan → PscChan) : (hw.modChan k f).banks = hw.banks := rfl
@[simp] theorem Hw.modChan_kz (hw : Hw) (k : Nat) (f : PscChan → PscChan) : (hw.modChan k f).kz = hw.kz := rfl
@[simp] theorem Hw.modChan_irc (hw : Hw) (k : Nat) (f : PscChan → PscChan) : (hw.modChan k f).irc = hw.irc := rfl
@[simp] theorem Hw.modChan_tc (hw : Hw) (k : Nat) (f : PscChan → PscChan) : (hw.modChan k f).tc = hw.tc := rfl
@[simp] theorem Hw.modChan_tio (hw : Hw) (k : Nat) (f : PscChan → PscChan) : (hw.modChan k f).tio = hw.tio := rfl
@[simp] theorem Hw.modChan_tb (hw : Hw) (k : Nat) (f : PscChan → PscChan) : (hw.modChan k f).tb = hw.tb := rfl
@[simp] theorem Hw.modChan_power (hw : Hw) (k : Nat) (f : PscChan → PscChan) : (hw.modChan k f).power = hw.power := rfl
@[simp] theorem Hw.modChan_sq (hw : Hw) (k : Nat) (f : PscChan → PscChan) : (hw.modChan k f).sq = hw.sq := rfl
@[simp] theorem Hw.modChan_slot (hw : Hw) (k : Nat) (f : PscChan → PscChan) : (hw.modChan k f).slot = hw.slot := rfl
@[simp] theorem Hw.modChan_core (hw : Hw) (k : Nat) (f : PscChan → PscChan) : (hw.modChan k f).core = hw.core := rfl
@[simp] theorem Hw.modChan_link (hw : Hw) (k : Nat) (f : PscChan → PscChan) : (hw.modChan k f).link = hw.link := rfl
@[simp] theorem Hw.modChan_fitCrc (hw : Hw) (k : Nat) (f : PscChan → PscChan) : (hw.modChan k f).fitCrc = hw.fitCrc := rfl
@[simp] theorem Hw.modChan_fitLane (hw : Hw) (k : Nat) (f : PscChan → PscChan) : (hw.modChan k f).fitLane = hw.fitLane := rfl
@[simp] theorem Hw.modChan_rt (hw : Hw) (k : Nat) (f : PscChan → PscChan) : (hw.modChan k f).rt = hw.rt := rfl
@[simp] theorem Hw.modChan_ol (hw : Hw) (k : Nat) (f : PscChan → PscChan) : (hw.modChan k f).ol = hw.ol := rfl
@[simp] theorem Hw.modChan_dma (hw : Hw) (k : Nat) (f : PscChan → PscChan) : (hw.modChan k f).dma = hw.dma := rfl
@[simp] theorem Hw.modChan_dmaTmo (hw : Hw) (k : Nat) (f : PscChan → PscChan) : (hw.modChan k f).dmaTmo = hw.dmaTmo := rfl
@[simp] theorem Hw.modChan_seq (hw : Hw) (k : Nat) (f : PscChan → PscChan) : (hw.modChan k f).seq = hw.seq := rfl
@[simp] theorem Hw.modChan_jobs (hw : Hw) (k : Nat) (f : PscChan → PscChan) : (hw.modChan k f).jobs = hw.jobs := rfl
@[simp] theorem Hw.modChan_bud (hw : Hw) (k : Nat) (f : PscChan → PscChan) : (hw.modChan k f).bud = hw.bud := rfl
@[simp] theorem Hw.modChan_journal (hw : Hw) (k : Nat) (f : PscChan → PscChan) : (hw.modChan k f).journal = hw.journal := rfl
@[simp] theorem Hw.modChan_results (hw : Hw) (k : Nat) (f : PscChan → PscChan) : (hw.modChan k f).results = hw.results := rfl
@[simp] theorem Hw.modChan_flt (hw : Hw) (k : Nat) (f : PscChan → PscChan) : (hw.modChan k f).flt = hw.flt := rfl
@[simp] theorem Hw.modChan_csi (hw : Hw) (k : Nat) (f : PscChan → PscChan) : (hw.modChan k f).csi = hw.csi := rfl
@[simp] theorem Hw.modChan_heldAcc (hw : Hw) (k : Nat) (f : PscChan → PscChan) : (hw.modChan k f).heldAcc = hw.heldAcc := rfl

/-! ### modPort: only the field kz changes. -/

@[simp] theorem Hw.modPort_elapsed (hw : Hw) (p : Bool) (f : Port → Port) : (hw.modPort p f).elapsed = hw.elapsed := by cases p <;> rfl
@[simp] theorem Hw.modPort_fresh (hw : Hw) (p : Bool) (f : Port → Port) : (hw.modPort p f).fresh = hw.fresh := by cases p <;> rfl
@[simp] theorem Hw.modPort_bus (hw : Hw) (p : Bool) (f : Port → Port) : (hw.modPort p f).bus = hw.bus := by cases p <;> rfl
@[simp] theorem Hw.modPort_risen (hw : Hw) (p : Bool) (f : Port → Port) : (hw.modPort p f).risen = hw.risen := by cases p <;> rfl
@[simp] theorem Hw.modPort_half (hw : Hw) (p : Bool) (f : Port → Port) : (hw.modPort p f).half = hw.half := by cases p <;> rfl
@[simp] theorem Hw.modPort_supply (hw : Hw) (p : Bool) (f : Port → Port) : (hw.modPort p f).supply = hw.supply := by cases p <;> rfl
@[simp] theorem Hw.modPort_bring (hw : Hw) (p : Bool) (f : Port → Port) : (hw.modPort p f).bring = hw.bring := by cases p <;> rfl
@[simp] theorem Hw.modPort_fuses (hw : Hw) (p : Bool) (f : Port → Port) : (hw.modPort p f).fuses = hw.fuses := by cases p <;> rfl
@[simp] theorem Hw.modPort_sec (hw : Hw) (p : Bool) (f : Port → Port) : (hw.modPort p f).sec = hw.sec := by cases p <;> rfl
@[simp] theorem Hw.modPort_fw (hw : Hw) (p : Bool) (f : Port → Port) : (hw.modPort p f).fw = hw.fw := by cases p <;> rfl
@[simp] theorem Hw.modPort_banks (hw : Hw) (p : Bool) (f : Port → Port) : (hw.modPort p f).banks = hw.banks := by cases p <;> rfl
@[simp] theorem Hw.modPort_psc (hw : Hw) (p : Bool) (f : Port → Port) : (hw.modPort p f).psc = hw.psc := by cases p <;> rfl
@[simp] theorem Hw.modPort_irc (hw : Hw) (p : Bool) (f : Port → Port) : (hw.modPort p f).irc = hw.irc := by cases p <;> rfl
@[simp] theorem Hw.modPort_tc (hw : Hw) (p : Bool) (f : Port → Port) : (hw.modPort p f).tc = hw.tc := by cases p <;> rfl
@[simp] theorem Hw.modPort_tio (hw : Hw) (p : Bool) (f : Port → Port) : (hw.modPort p f).tio = hw.tio := by cases p <;> rfl
@[simp] theorem Hw.modPort_tb (hw : Hw) (p : Bool) (f : Port → Port) : (hw.modPort p f).tb = hw.tb := by cases p <;> rfl
@[simp] theorem Hw.modPort_power (hw : Hw) (p : Bool) (f : Port → Port) : (hw.modPort p f).power = hw.power := by cases p <;> rfl
@[simp] theorem Hw.modPort_sq (hw : Hw) (p : Bool) (f : Port → Port) : (hw.modPort p f).sq = hw.sq := by cases p <;> rfl
@[simp] theorem Hw.modPort_slot (hw : Hw) (p : Bool) (f : Port → Port) : (hw.modPort p f).slot = hw.slot := by cases p <;> rfl
@[simp] theorem Hw.modPort_core (hw : Hw) (p : Bool) (f : Port → Port) : (hw.modPort p f).core = hw.core := by cases p <;> rfl
@[simp] theorem Hw.modPort_link (hw : Hw) (p : Bool) (f : Port → Port) : (hw.modPort p f).link = hw.link := by cases p <;> rfl
@[simp] theorem Hw.modPort_fitCrc (hw : Hw) (p : Bool) (f : Port → Port) : (hw.modPort p f).fitCrc = hw.fitCrc := by cases p <;> rfl
@[simp] theorem Hw.modPort_fitLane (hw : Hw) (p : Bool) (f : Port → Port) : (hw.modPort p f).fitLane = hw.fitLane := by cases p <;> rfl
@[simp] theorem Hw.modPort_rt (hw : Hw) (p : Bool) (f : Port → Port) : (hw.modPort p f).rt = hw.rt := by cases p <;> rfl
@[simp] theorem Hw.modPort_ol (hw : Hw) (p : Bool) (f : Port → Port) : (hw.modPort p f).ol = hw.ol := by cases p <;> rfl
@[simp] theorem Hw.modPort_dma (hw : Hw) (p : Bool) (f : Port → Port) : (hw.modPort p f).dma = hw.dma := by cases p <;> rfl
@[simp] theorem Hw.modPort_dmaTmo (hw : Hw) (p : Bool) (f : Port → Port) : (hw.modPort p f).dmaTmo = hw.dmaTmo := by cases p <;> rfl
@[simp] theorem Hw.modPort_seq (hw : Hw) (p : Bool) (f : Port → Port) : (hw.modPort p f).seq = hw.seq := by cases p <;> rfl
@[simp] theorem Hw.modPort_jobs (hw : Hw) (p : Bool) (f : Port → Port) : (hw.modPort p f).jobs = hw.jobs := by cases p <;> rfl
@[simp] theorem Hw.modPort_bud (hw : Hw) (p : Bool) (f : Port → Port) : (hw.modPort p f).bud = hw.bud := by cases p <;> rfl
@[simp] theorem Hw.modPort_journal (hw : Hw) (p : Bool) (f : Port → Port) : (hw.modPort p f).journal = hw.journal := by cases p <;> rfl
@[simp] theorem Hw.modPort_results (hw : Hw) (p : Bool) (f : Port → Port) : (hw.modPort p f).results = hw.results := by cases p <;> rfl
@[simp] theorem Hw.modPort_flt (hw : Hw) (p : Bool) (f : Port → Port) : (hw.modPort p f).flt = hw.flt := by cases p <;> rfl
@[simp] theorem Hw.modPort_csi (hw : Hw) (p : Bool) (f : Port → Port) : (hw.modPort p f).csi = hw.csi := by cases p <;> rfl
@[simp] theorem Hw.modPort_heldAcc (hw : Hw) (p : Bool) (f : Port → Port) : (hw.modPort p f).heldAcc = hw.heldAcc := by cases p <;> rfl

/-! ### answer: only the field bus changes. -/

@[simp] theorem Hw.answer_elapsed (hw : Hw) (v st : Nat) : (hw.answer v st).elapsed = hw.elapsed := rfl
@[simp] theorem Hw.answer_fresh (hw : Hw) (v st : Nat) : (hw.answer v st).fresh = hw.fresh := rfl
@[simp] theorem Hw.answer_risen (hw : Hw) (v st : Nat) : (hw.answer v st).risen = hw.risen := rfl
@[simp] theorem Hw.answer_half (hw : Hw) (v st : Nat) : (hw.answer v st).half = hw.half := rfl
@[simp] theorem Hw.answer_supply (hw : Hw) (v st : Nat) : (hw.answer v st).supply = hw.supply := rfl
@[simp] theorem Hw.answer_bring (hw : Hw) (v st : Nat) : (hw.answer v st).bring = hw.bring := rfl
@[simp] theorem Hw.answer_fuses (hw : Hw) (v st : Nat) : (hw.answer v st).fuses = hw.fuses := rfl
@[simp] theorem Hw.answer_sec (hw : Hw) (v st : Nat) : (hw.answer v st).sec = hw.sec := rfl
@[simp] theorem Hw.answer_fw (hw : Hw) (v st : Nat) : (hw.answer v st).fw = hw.fw := rfl
@[simp] theorem Hw.answer_banks (hw : Hw) (v st : Nat) : (hw.answer v st).banks = hw.banks := rfl
@[simp] theorem Hw.answer_psc (hw : Hw) (v st : Nat) : (hw.answer v st).psc = hw.psc := rfl
@[simp] theorem Hw.answer_kz (hw : Hw) (v st : Nat) : (hw.answer v st).kz = hw.kz := rfl
@[simp] theorem Hw.answer_irc (hw : Hw) (v st : Nat) : (hw.answer v st).irc = hw.irc := rfl
@[simp] theorem Hw.answer_tc (hw : Hw) (v st : Nat) : (hw.answer v st).tc = hw.tc := rfl
@[simp] theorem Hw.answer_tio (hw : Hw) (v st : Nat) : (hw.answer v st).tio = hw.tio := rfl
@[simp] theorem Hw.answer_tb (hw : Hw) (v st : Nat) : (hw.answer v st).tb = hw.tb := rfl
@[simp] theorem Hw.answer_power (hw : Hw) (v st : Nat) : (hw.answer v st).power = hw.power := rfl
@[simp] theorem Hw.answer_sq (hw : Hw) (v st : Nat) : (hw.answer v st).sq = hw.sq := rfl
@[simp] theorem Hw.answer_slot (hw : Hw) (v st : Nat) : (hw.answer v st).slot = hw.slot := rfl
@[simp] theorem Hw.answer_core (hw : Hw) (v st : Nat) : (hw.answer v st).core = hw.core := rfl
@[simp] theorem Hw.answer_link (hw : Hw) (v st : Nat) : (hw.answer v st).link = hw.link := rfl
@[simp] theorem Hw.answer_fitCrc (hw : Hw) (v st : Nat) : (hw.answer v st).fitCrc = hw.fitCrc := rfl
@[simp] theorem Hw.answer_fitLane (hw : Hw) (v st : Nat) : (hw.answer v st).fitLane = hw.fitLane := rfl
@[simp] theorem Hw.answer_rt (hw : Hw) (v st : Nat) : (hw.answer v st).rt = hw.rt := rfl
@[simp] theorem Hw.answer_ol (hw : Hw) (v st : Nat) : (hw.answer v st).ol = hw.ol := rfl
@[simp] theorem Hw.answer_dma (hw : Hw) (v st : Nat) : (hw.answer v st).dma = hw.dma := rfl
@[simp] theorem Hw.answer_dmaTmo (hw : Hw) (v st : Nat) : (hw.answer v st).dmaTmo = hw.dmaTmo := rfl
@[simp] theorem Hw.answer_seq (hw : Hw) (v st : Nat) : (hw.answer v st).seq = hw.seq := rfl
@[simp] theorem Hw.answer_jobs (hw : Hw) (v st : Nat) : (hw.answer v st).jobs = hw.jobs := rfl
@[simp] theorem Hw.answer_bud (hw : Hw) (v st : Nat) : (hw.answer v st).bud = hw.bud := rfl
@[simp] theorem Hw.answer_journal (hw : Hw) (v st : Nat) : (hw.answer v st).journal = hw.journal := rfl
@[simp] theorem Hw.answer_results (hw : Hw) (v st : Nat) : (hw.answer v st).results = hw.results := rfl
@[simp] theorem Hw.answer_flt (hw : Hw) (v st : Nat) : (hw.answer v st).flt = hw.flt := rfl
@[simp] theorem Hw.answer_csi (hw : Hw) (v st : Nat) : (hw.answer v st).csi = hw.csi := rfl
@[simp] theorem Hw.answer_heldAcc (hw : Hw) (v st : Nat) : (hw.answer v st).heldAcc = hw.heldAcc := rfl

/-! ### wr: only the field banks changes. -/

@[simp] theorem Hw.wr_elapsed (hw : Hw) (a : Nat) (bs : List Byte) : (hw.wr a bs).elapsed = hw.elapsed := rfl
@[simp] theorem Hw.wr_fresh (hw : Hw) (a : Nat) (bs : List Byte) : (hw.wr a bs).fresh = hw.fresh := rfl
@[simp] theorem Hw.wr_bus (hw : Hw) (a : Nat) (bs : List Byte) : (hw.wr a bs).bus = hw.bus := rfl
@[simp] theorem Hw.wr_risen (hw : Hw) (a : Nat) (bs : List Byte) : (hw.wr a bs).risen = hw.risen := rfl
@[simp] theorem Hw.wr_half (hw : Hw) (a : Nat) (bs : List Byte) : (hw.wr a bs).half = hw.half := rfl
@[simp] theorem Hw.wr_supply (hw : Hw) (a : Nat) (bs : List Byte) : (hw.wr a bs).supply = hw.supply := rfl
@[simp] theorem Hw.wr_bring (hw : Hw) (a : Nat) (bs : List Byte) : (hw.wr a bs).bring = hw.bring := rfl
@[simp] theorem Hw.wr_fuses (hw : Hw) (a : Nat) (bs : List Byte) : (hw.wr a bs).fuses = hw.fuses := rfl
@[simp] theorem Hw.wr_sec (hw : Hw) (a : Nat) (bs : List Byte) : (hw.wr a bs).sec = hw.sec := rfl
@[simp] theorem Hw.wr_fw (hw : Hw) (a : Nat) (bs : List Byte) : (hw.wr a bs).fw = hw.fw := rfl
@[simp] theorem Hw.wr_psc (hw : Hw) (a : Nat) (bs : List Byte) : (hw.wr a bs).psc = hw.psc := rfl
@[simp] theorem Hw.wr_kz (hw : Hw) (a : Nat) (bs : List Byte) : (hw.wr a bs).kz = hw.kz := rfl
@[simp] theorem Hw.wr_irc (hw : Hw) (a : Nat) (bs : List Byte) : (hw.wr a bs).irc = hw.irc := rfl
@[simp] theorem Hw.wr_tc (hw : Hw) (a : Nat) (bs : List Byte) : (hw.wr a bs).tc = hw.tc := rfl
@[simp] theorem Hw.wr_tio (hw : Hw) (a : Nat) (bs : List Byte) : (hw.wr a bs).tio = hw.tio := rfl
@[simp] theorem Hw.wr_tb (hw : Hw) (a : Nat) (bs : List Byte) : (hw.wr a bs).tb = hw.tb := rfl
@[simp] theorem Hw.wr_power (hw : Hw) (a : Nat) (bs : List Byte) : (hw.wr a bs).power = hw.power := rfl
@[simp] theorem Hw.wr_sq (hw : Hw) (a : Nat) (bs : List Byte) : (hw.wr a bs).sq = hw.sq := rfl
@[simp] theorem Hw.wr_slot (hw : Hw) (a : Nat) (bs : List Byte) : (hw.wr a bs).slot = hw.slot := rfl
@[simp] theorem Hw.wr_core (hw : Hw) (a : Nat) (bs : List Byte) : (hw.wr a bs).core = hw.core := rfl
@[simp] theorem Hw.wr_link (hw : Hw) (a : Nat) (bs : List Byte) : (hw.wr a bs).link = hw.link := rfl
@[simp] theorem Hw.wr_fitCrc (hw : Hw) (a : Nat) (bs : List Byte) : (hw.wr a bs).fitCrc = hw.fitCrc := rfl
@[simp] theorem Hw.wr_fitLane (hw : Hw) (a : Nat) (bs : List Byte) : (hw.wr a bs).fitLane = hw.fitLane := rfl
@[simp] theorem Hw.wr_rt (hw : Hw) (a : Nat) (bs : List Byte) : (hw.wr a bs).rt = hw.rt := rfl
@[simp] theorem Hw.wr_ol (hw : Hw) (a : Nat) (bs : List Byte) : (hw.wr a bs).ol = hw.ol := rfl
@[simp] theorem Hw.wr_dma (hw : Hw) (a : Nat) (bs : List Byte) : (hw.wr a bs).dma = hw.dma := rfl
@[simp] theorem Hw.wr_dmaTmo (hw : Hw) (a : Nat) (bs : List Byte) : (hw.wr a bs).dmaTmo = hw.dmaTmo := rfl
@[simp] theorem Hw.wr_seq (hw : Hw) (a : Nat) (bs : List Byte) : (hw.wr a bs).seq = hw.seq := rfl
@[simp] theorem Hw.wr_jobs (hw : Hw) (a : Nat) (bs : List Byte) : (hw.wr a bs).jobs = hw.jobs := rfl
@[simp] theorem Hw.wr_bud (hw : Hw) (a : Nat) (bs : List Byte) : (hw.wr a bs).bud = hw.bud := rfl
@[simp] theorem Hw.wr_journal (hw : Hw) (a : Nat) (bs : List Byte) : (hw.wr a bs).journal = hw.journal := rfl
@[simp] theorem Hw.wr_results (hw : Hw) (a : Nat) (bs : List Byte) : (hw.wr a bs).results = hw.results := rfl
@[simp] theorem Hw.wr_flt (hw : Hw) (a : Nat) (bs : List Byte) : (hw.wr a bs).flt = hw.flt := rfl
@[simp] theorem Hw.wr_csi (hw : Hw) (a : Nat) (bs : List Byte) : (hw.wr a bs).csi = hw.csi := rfl
@[simp] theorem Hw.wr_heldAcc (hw : Hw) (a : Nat) (bs : List Byte) : (hw.wr a bs).heldAcc = hw.heldAcc := rfl

/-! ### wipe: only the field banks changes. -/

@[simp] theorem Hw.wipe_elapsed (hw : Hw) (a n : Nat) : (hw.wipe a n).elapsed = hw.elapsed := rfl
@[simp] theorem Hw.wipe_fresh (hw : Hw) (a n : Nat) : (hw.wipe a n).fresh = hw.fresh := rfl
@[simp] theorem Hw.wipe_bus (hw : Hw) (a n : Nat) : (hw.wipe a n).bus = hw.bus := rfl
@[simp] theorem Hw.wipe_risen (hw : Hw) (a n : Nat) : (hw.wipe a n).risen = hw.risen := rfl
@[simp] theorem Hw.wipe_half (hw : Hw) (a n : Nat) : (hw.wipe a n).half = hw.half := rfl
@[simp] theorem Hw.wipe_supply (hw : Hw) (a n : Nat) : (hw.wipe a n).supply = hw.supply := rfl
@[simp] theorem Hw.wipe_bring (hw : Hw) (a n : Nat) : (hw.wipe a n).bring = hw.bring := rfl
@[simp] theorem Hw.wipe_fuses (hw : Hw) (a n : Nat) : (hw.wipe a n).fuses = hw.fuses := rfl
@[simp] theorem Hw.wipe_sec (hw : Hw) (a n : Nat) : (hw.wipe a n).sec = hw.sec := rfl
@[simp] theorem Hw.wipe_fw (hw : Hw) (a n : Nat) : (hw.wipe a n).fw = hw.fw := rfl
@[simp] theorem Hw.wipe_psc (hw : Hw) (a n : Nat) : (hw.wipe a n).psc = hw.psc := rfl
@[simp] theorem Hw.wipe_kz (hw : Hw) (a n : Nat) : (hw.wipe a n).kz = hw.kz := rfl
@[simp] theorem Hw.wipe_irc (hw : Hw) (a n : Nat) : (hw.wipe a n).irc = hw.irc := rfl
@[simp] theorem Hw.wipe_tc (hw : Hw) (a n : Nat) : (hw.wipe a n).tc = hw.tc := rfl
@[simp] theorem Hw.wipe_tio (hw : Hw) (a n : Nat) : (hw.wipe a n).tio = hw.tio := rfl
@[simp] theorem Hw.wipe_tb (hw : Hw) (a n : Nat) : (hw.wipe a n).tb = hw.tb := rfl
@[simp] theorem Hw.wipe_power (hw : Hw) (a n : Nat) : (hw.wipe a n).power = hw.power := rfl
@[simp] theorem Hw.wipe_sq (hw : Hw) (a n : Nat) : (hw.wipe a n).sq = hw.sq := rfl
@[simp] theorem Hw.wipe_slot (hw : Hw) (a n : Nat) : (hw.wipe a n).slot = hw.slot := rfl
@[simp] theorem Hw.wipe_core (hw : Hw) (a n : Nat) : (hw.wipe a n).core = hw.core := rfl
@[simp] theorem Hw.wipe_link (hw : Hw) (a n : Nat) : (hw.wipe a n).link = hw.link := rfl
@[simp] theorem Hw.wipe_fitCrc (hw : Hw) (a n : Nat) : (hw.wipe a n).fitCrc = hw.fitCrc := rfl
@[simp] theorem Hw.wipe_fitLane (hw : Hw) (a n : Nat) : (hw.wipe a n).fitLane = hw.fitLane := rfl
@[simp] theorem Hw.wipe_rt (hw : Hw) (a n : Nat) : (hw.wipe a n).rt = hw.rt := rfl
@[simp] theorem Hw.wipe_ol (hw : Hw) (a n : Nat) : (hw.wipe a n).ol = hw.ol := rfl
@[simp] theorem Hw.wipe_dma (hw : Hw) (a n : Nat) : (hw.wipe a n).dma = hw.dma := rfl
@[simp] theorem Hw.wipe_dmaTmo (hw : Hw) (a n : Nat) : (hw.wipe a n).dmaTmo = hw.dmaTmo := rfl
@[simp] theorem Hw.wipe_seq (hw : Hw) (a n : Nat) : (hw.wipe a n).seq = hw.seq := rfl
@[simp] theorem Hw.wipe_jobs (hw : Hw) (a n : Nat) : (hw.wipe a n).jobs = hw.jobs := rfl
@[simp] theorem Hw.wipe_bud (hw : Hw) (a n : Nat) : (hw.wipe a n).bud = hw.bud := rfl
@[simp] theorem Hw.wipe_journal (hw : Hw) (a n : Nat) : (hw.wipe a n).journal = hw.journal := rfl
@[simp] theorem Hw.wipe_results (hw : Hw) (a n : Nat) : (hw.wipe a n).results = hw.results := rfl
@[simp] theorem Hw.wipe_flt (hw : Hw) (a n : Nat) : (hw.wipe a n).flt = hw.flt := rfl
@[simp] theorem Hw.wipe_csi (hw : Hw) (a n : Nat) : (hw.wipe a n).csi = hw.csi := rfl
@[simp] theorem Hw.wipe_heldAcc (hw : Hw) (a n : Nat) : (hw.wipe a n).heldAcc = hw.heldAcc := rfl

/-! ### unpoison: only the field banks changes. -/

@[simp] theorem Hw.unpoison_elapsed (hw : Hw) (a n : Nat) : (hw.unpoison a n).elapsed = hw.elapsed := rfl
@[simp] theorem Hw.unpoison_fresh (hw : Hw) (a n : Nat) : (hw.unpoison a n).fresh = hw.fresh := rfl
@[simp] theorem Hw.unpoison_bus (hw : Hw) (a n : Nat) : (hw.unpoison a n).bus = hw.bus := rfl
@[simp] theorem Hw.unpoison_risen (hw : Hw) (a n : Nat) : (hw.unpoison a n).risen = hw.risen := rfl
@[simp] theorem Hw.unpoison_half (hw : Hw) (a n : Nat) : (hw.unpoison a n).half = hw.half := rfl
@[simp] theorem Hw.unpoison_supply (hw : Hw) (a n : Nat) : (hw.unpoison a n).supply = hw.supply := rfl
@[simp] theorem Hw.unpoison_bring (hw : Hw) (a n : Nat) : (hw.unpoison a n).bring = hw.bring := rfl
@[simp] theorem Hw.unpoison_fuses (hw : Hw) (a n : Nat) : (hw.unpoison a n).fuses = hw.fuses := rfl
@[simp] theorem Hw.unpoison_sec (hw : Hw) (a n : Nat) : (hw.unpoison a n).sec = hw.sec := rfl
@[simp] theorem Hw.unpoison_fw (hw : Hw) (a n : Nat) : (hw.unpoison a n).fw = hw.fw := rfl
@[simp] theorem Hw.unpoison_psc (hw : Hw) (a n : Nat) : (hw.unpoison a n).psc = hw.psc := rfl
@[simp] theorem Hw.unpoison_kz (hw : Hw) (a n : Nat) : (hw.unpoison a n).kz = hw.kz := rfl
@[simp] theorem Hw.unpoison_irc (hw : Hw) (a n : Nat) : (hw.unpoison a n).irc = hw.irc := rfl
@[simp] theorem Hw.unpoison_tc (hw : Hw) (a n : Nat) : (hw.unpoison a n).tc = hw.tc := rfl
@[simp] theorem Hw.unpoison_tio (hw : Hw) (a n : Nat) : (hw.unpoison a n).tio = hw.tio := rfl
@[simp] theorem Hw.unpoison_tb (hw : Hw) (a n : Nat) : (hw.unpoison a n).tb = hw.tb := rfl
@[simp] theorem Hw.unpoison_power (hw : Hw) (a n : Nat) : (hw.unpoison a n).power = hw.power := rfl
@[simp] theorem Hw.unpoison_sq (hw : Hw) (a n : Nat) : (hw.unpoison a n).sq = hw.sq := rfl
@[simp] theorem Hw.unpoison_slot (hw : Hw) (a n : Nat) : (hw.unpoison a n).slot = hw.slot := rfl
@[simp] theorem Hw.unpoison_core (hw : Hw) (a n : Nat) : (hw.unpoison a n).core = hw.core := rfl
@[simp] theorem Hw.unpoison_link (hw : Hw) (a n : Nat) : (hw.unpoison a n).link = hw.link := rfl
@[simp] theorem Hw.unpoison_fitCrc (hw : Hw) (a n : Nat) : (hw.unpoison a n).fitCrc = hw.fitCrc := rfl
@[simp] theorem Hw.unpoison_fitLane (hw : Hw) (a n : Nat) : (hw.unpoison a n).fitLane = hw.fitLane := rfl
@[simp] theorem Hw.unpoison_rt (hw : Hw) (a n : Nat) : (hw.unpoison a n).rt = hw.rt := rfl
@[simp] theorem Hw.unpoison_ol (hw : Hw) (a n : Nat) : (hw.unpoison a n).ol = hw.ol := rfl
@[simp] theorem Hw.unpoison_dma (hw : Hw) (a n : Nat) : (hw.unpoison a n).dma = hw.dma := rfl
@[simp] theorem Hw.unpoison_dmaTmo (hw : Hw) (a n : Nat) : (hw.unpoison a n).dmaTmo = hw.dmaTmo := rfl
@[simp] theorem Hw.unpoison_seq (hw : Hw) (a n : Nat) : (hw.unpoison a n).seq = hw.seq := rfl
@[simp] theorem Hw.unpoison_jobs (hw : Hw) (a n : Nat) : (hw.unpoison a n).jobs = hw.jobs := rfl
@[simp] theorem Hw.unpoison_bud (hw : Hw) (a n : Nat) : (hw.unpoison a n).bud = hw.bud := rfl
@[simp] theorem Hw.unpoison_journal (hw : Hw) (a n : Nat) : (hw.unpoison a n).journal = hw.journal := rfl
@[simp] theorem Hw.unpoison_results (hw : Hw) (a n : Nat) : (hw.unpoison a n).results = hw.results := rfl
@[simp] theorem Hw.unpoison_flt (hw : Hw) (a n : Nat) : (hw.unpoison a n).flt = hw.flt := rfl
@[simp] theorem Hw.unpoison_csi (hw : Hw) (a n : Nat) : (hw.unpoison a n).csi = hw.csi := rfl
@[simp] theorem Hw.unpoison_heldAcc (hw : Hw) (a n : Nat) : (hw.unpoison a n).heldAcc = hw.heldAcc := rfl

/-! ### notePort: only the field kz changes. -/

@[simp] theorem Hw.notePort_elapsed (hw : Hw) (p : Bool) (n : Note) : (hw.notePort p n).elapsed = hw.elapsed := by simp [Hw.notePort]
@[simp] theorem Hw.notePort_fresh (hw : Hw) (p : Bool) (n : Note) : (hw.notePort p n).fresh = hw.fresh := by simp [Hw.notePort]
@[simp] theorem Hw.notePort_bus (hw : Hw) (p : Bool) (n : Note) : (hw.notePort p n).bus = hw.bus := by simp [Hw.notePort]
@[simp] theorem Hw.notePort_risen (hw : Hw) (p : Bool) (n : Note) : (hw.notePort p n).risen = hw.risen := by simp [Hw.notePort]
@[simp] theorem Hw.notePort_half (hw : Hw) (p : Bool) (n : Note) : (hw.notePort p n).half = hw.half := by simp [Hw.notePort]
@[simp] theorem Hw.notePort_supply (hw : Hw) (p : Bool) (n : Note) : (hw.notePort p n).supply = hw.supply := by simp [Hw.notePort]
@[simp] theorem Hw.notePort_bring (hw : Hw) (p : Bool) (n : Note) : (hw.notePort p n).bring = hw.bring := by simp [Hw.notePort]
@[simp] theorem Hw.notePort_fuses (hw : Hw) (p : Bool) (n : Note) : (hw.notePort p n).fuses = hw.fuses := by simp [Hw.notePort]
@[simp] theorem Hw.notePort_sec (hw : Hw) (p : Bool) (n : Note) : (hw.notePort p n).sec = hw.sec := by simp [Hw.notePort]
@[simp] theorem Hw.notePort_fw (hw : Hw) (p : Bool) (n : Note) : (hw.notePort p n).fw = hw.fw := by simp [Hw.notePort]
@[simp] theorem Hw.notePort_banks (hw : Hw) (p : Bool) (n : Note) : (hw.notePort p n).banks = hw.banks := by simp [Hw.notePort]
@[simp] theorem Hw.notePort_psc (hw : Hw) (p : Bool) (n : Note) : (hw.notePort p n).psc = hw.psc := by simp [Hw.notePort]
@[simp] theorem Hw.notePort_irc (hw : Hw) (p : Bool) (n : Note) : (hw.notePort p n).irc = hw.irc := by simp [Hw.notePort]
@[simp] theorem Hw.notePort_tc (hw : Hw) (p : Bool) (n : Note) : (hw.notePort p n).tc = hw.tc := by simp [Hw.notePort]
@[simp] theorem Hw.notePort_tio (hw : Hw) (p : Bool) (n : Note) : (hw.notePort p n).tio = hw.tio := by simp [Hw.notePort]
@[simp] theorem Hw.notePort_tb (hw : Hw) (p : Bool) (n : Note) : (hw.notePort p n).tb = hw.tb := by simp [Hw.notePort]
@[simp] theorem Hw.notePort_power (hw : Hw) (p : Bool) (n : Note) : (hw.notePort p n).power = hw.power := by simp [Hw.notePort]
@[simp] theorem Hw.notePort_sq (hw : Hw) (p : Bool) (n : Note) : (hw.notePort p n).sq = hw.sq := by simp [Hw.notePort]
@[simp] theorem Hw.notePort_slot (hw : Hw) (p : Bool) (n : Note) : (hw.notePort p n).slot = hw.slot := by simp [Hw.notePort]
@[simp] theorem Hw.notePort_core (hw : Hw) (p : Bool) (n : Note) : (hw.notePort p n).core = hw.core := by simp [Hw.notePort]
@[simp] theorem Hw.notePort_link (hw : Hw) (p : Bool) (n : Note) : (hw.notePort p n).link = hw.link := by simp [Hw.notePort]
@[simp] theorem Hw.notePort_fitCrc (hw : Hw) (p : Bool) (n : Note) : (hw.notePort p n).fitCrc = hw.fitCrc := by simp [Hw.notePort]
@[simp] theorem Hw.notePort_fitLane (hw : Hw) (p : Bool) (n : Note) : (hw.notePort p n).fitLane = hw.fitLane := by simp [Hw.notePort]
@[simp] theorem Hw.notePort_rt (hw : Hw) (p : Bool) (n : Note) : (hw.notePort p n).rt = hw.rt := by simp [Hw.notePort]
@[simp] theorem Hw.notePort_ol (hw : Hw) (p : Bool) (n : Note) : (hw.notePort p n).ol = hw.ol := by simp [Hw.notePort]
@[simp] theorem Hw.notePort_dma (hw : Hw) (p : Bool) (n : Note) : (hw.notePort p n).dma = hw.dma := by simp [Hw.notePort]
@[simp] theorem Hw.notePort_dmaTmo (hw : Hw) (p : Bool) (n : Note) : (hw.notePort p n).dmaTmo = hw.dmaTmo := by simp [Hw.notePort]
@[simp] theorem Hw.notePort_seq (hw : Hw) (p : Bool) (n : Note) : (hw.notePort p n).seq = hw.seq := by simp [Hw.notePort]
@[simp] theorem Hw.notePort_jobs (hw : Hw) (p : Bool) (n : Note) : (hw.notePort p n).jobs = hw.jobs := by simp [Hw.notePort]
@[simp] theorem Hw.notePort_bud (hw : Hw) (p : Bool) (n : Note) : (hw.notePort p n).bud = hw.bud := by simp [Hw.notePort]
@[simp] theorem Hw.notePort_journal (hw : Hw) (p : Bool) (n : Note) : (hw.notePort p n).journal = hw.journal := by simp [Hw.notePort]
@[simp] theorem Hw.notePort_results (hw : Hw) (p : Bool) (n : Note) : (hw.notePort p n).results = hw.results := by simp [Hw.notePort]
@[simp] theorem Hw.notePort_flt (hw : Hw) (p : Bool) (n : Note) : (hw.notePort p n).flt = hw.flt := by simp [Hw.notePort]
@[simp] theorem Hw.notePort_csi (hw : Hw) (p : Bool) (n : Note) : (hw.notePort p n).csi = hw.csi := by simp [Hw.notePort]
@[simp] theorem Hw.notePort_heldAcc (hw : Hw) (p : Bool) (n : Note) : (hw.notePort p n).heldAcc = hw.heldAcc := by simp [Hw.notePort]

/-! ### noteBoth: only the field kz changes. -/

@[simp] theorem Hw.noteBoth_elapsed (hw : Hw) (n : Note) : (hw.noteBoth n).elapsed = hw.elapsed := by simp [Hw.noteBoth]
@[simp] theorem Hw.noteBoth_fresh (hw : Hw) (n : Note) : (hw.noteBoth n).fresh = hw.fresh := by simp [Hw.noteBoth]
@[simp] theorem Hw.noteBoth_bus (hw : Hw) (n : Note) : (hw.noteBoth n).bus = hw.bus := by simp [Hw.noteBoth]
@[simp] theorem Hw.noteBoth_risen (hw : Hw) (n : Note) : (hw.noteBoth n).risen = hw.risen := by simp [Hw.noteBoth]
@[simp] theorem Hw.noteBoth_half (hw : Hw) (n : Note) : (hw.noteBoth n).half = hw.half := by simp [Hw.noteBoth]
@[simp] theorem Hw.noteBoth_supply (hw : Hw) (n : Note) : (hw.noteBoth n).supply = hw.supply := by simp [Hw.noteBoth]
@[simp] theorem Hw.noteBoth_bring (hw : Hw) (n : Note) : (hw.noteBoth n).bring = hw.bring := by simp [Hw.noteBoth]
@[simp] theorem Hw.noteBoth_fuses (hw : Hw) (n : Note) : (hw.noteBoth n).fuses = hw.fuses := by simp [Hw.noteBoth]
@[simp] theorem Hw.noteBoth_sec (hw : Hw) (n : Note) : (hw.noteBoth n).sec = hw.sec := by simp [Hw.noteBoth]
@[simp] theorem Hw.noteBoth_fw (hw : Hw) (n : Note) : (hw.noteBoth n).fw = hw.fw := by simp [Hw.noteBoth]
@[simp] theorem Hw.noteBoth_banks (hw : Hw) (n : Note) : (hw.noteBoth n).banks = hw.banks := by simp [Hw.noteBoth]
@[simp] theorem Hw.noteBoth_psc (hw : Hw) (n : Note) : (hw.noteBoth n).psc = hw.psc := by simp [Hw.noteBoth]
@[simp] theorem Hw.noteBoth_irc (hw : Hw) (n : Note) : (hw.noteBoth n).irc = hw.irc := by simp [Hw.noteBoth]
@[simp] theorem Hw.noteBoth_tc (hw : Hw) (n : Note) : (hw.noteBoth n).tc = hw.tc := by simp [Hw.noteBoth]
@[simp] theorem Hw.noteBoth_tio (hw : Hw) (n : Note) : (hw.noteBoth n).tio = hw.tio := by simp [Hw.noteBoth]
@[simp] theorem Hw.noteBoth_tb (hw : Hw) (n : Note) : (hw.noteBoth n).tb = hw.tb := by simp [Hw.noteBoth]
@[simp] theorem Hw.noteBoth_power (hw : Hw) (n : Note) : (hw.noteBoth n).power = hw.power := by simp [Hw.noteBoth]
@[simp] theorem Hw.noteBoth_sq (hw : Hw) (n : Note) : (hw.noteBoth n).sq = hw.sq := by simp [Hw.noteBoth]
@[simp] theorem Hw.noteBoth_slot (hw : Hw) (n : Note) : (hw.noteBoth n).slot = hw.slot := by simp [Hw.noteBoth]
@[simp] theorem Hw.noteBoth_core (hw : Hw) (n : Note) : (hw.noteBoth n).core = hw.core := by simp [Hw.noteBoth]
@[simp] theorem Hw.noteBoth_link (hw : Hw) (n : Note) : (hw.noteBoth n).link = hw.link := by simp [Hw.noteBoth]
@[simp] theorem Hw.noteBoth_fitCrc (hw : Hw) (n : Note) : (hw.noteBoth n).fitCrc = hw.fitCrc := by simp [Hw.noteBoth]
@[simp] theorem Hw.noteBoth_fitLane (hw : Hw) (n : Note) : (hw.noteBoth n).fitLane = hw.fitLane := by simp [Hw.noteBoth]
@[simp] theorem Hw.noteBoth_rt (hw : Hw) (n : Note) : (hw.noteBoth n).rt = hw.rt := by simp [Hw.noteBoth]
@[simp] theorem Hw.noteBoth_ol (hw : Hw) (n : Note) : (hw.noteBoth n).ol = hw.ol := by simp [Hw.noteBoth]
@[simp] theorem Hw.noteBoth_dma (hw : Hw) (n : Note) : (hw.noteBoth n).dma = hw.dma := by simp [Hw.noteBoth]
@[simp] theorem Hw.noteBoth_dmaTmo (hw : Hw) (n : Note) : (hw.noteBoth n).dmaTmo = hw.dmaTmo := by simp [Hw.noteBoth]
@[simp] theorem Hw.noteBoth_seq (hw : Hw) (n : Note) : (hw.noteBoth n).seq = hw.seq := by simp [Hw.noteBoth]
@[simp] theorem Hw.noteBoth_jobs (hw : Hw) (n : Note) : (hw.noteBoth n).jobs = hw.jobs := by simp [Hw.noteBoth]
@[simp] theorem Hw.noteBoth_bud (hw : Hw) (n : Note) : (hw.noteBoth n).bud = hw.bud := by simp [Hw.noteBoth]
@[simp] theorem Hw.noteBoth_journal (hw : Hw) (n : Note) : (hw.noteBoth n).journal = hw.journal := by simp [Hw.noteBoth]
@[simp] theorem Hw.noteBoth_results (hw : Hw) (n : Note) : (hw.noteBoth n).results = hw.results := by simp [Hw.noteBoth]
@[simp] theorem Hw.noteBoth_flt (hw : Hw) (n : Note) : (hw.noteBoth n).flt = hw.flt := by simp [Hw.noteBoth]
@[simp] theorem Hw.noteBoth_csi (hw : Hw) (n : Note) : (hw.noteBoth n).csi = hw.csi := by simp [Hw.noteBoth]
@[simp] theorem Hw.noteBoth_heldAcc (hw : Hw) (n : Note) : (hw.noteBoth n).heldAcc = hw.heldAcc := by simp [Hw.noteBoth]

/-! ### reply: only the field kz changes. -/

@[simp] theorem Hw.reply_elapsed (hw : Hw) (p : Bool) (c : Cmd) (st d : Nat) (b : List Byte) : (hw.reply p c st d b).elapsed = hw.elapsed := by simp [Hw.reply]
@[simp] theorem Hw.reply_fresh (hw : Hw) (p : Bool) (c : Cmd) (st d : Nat) (b : List Byte) : (hw.reply p c st d b).fresh = hw.fresh := by simp [Hw.reply]
@[simp] theorem Hw.reply_bus (hw : Hw) (p : Bool) (c : Cmd) (st d : Nat) (b : List Byte) : (hw.reply p c st d b).bus = hw.bus := by simp [Hw.reply]
@[simp] theorem Hw.reply_risen (hw : Hw) (p : Bool) (c : Cmd) (st d : Nat) (b : List Byte) : (hw.reply p c st d b).risen = hw.risen := by simp [Hw.reply]
@[simp] theorem Hw.reply_half (hw : Hw) (p : Bool) (c : Cmd) (st d : Nat) (b : List Byte) : (hw.reply p c st d b).half = hw.half := by simp [Hw.reply]
@[simp] theorem Hw.reply_supply (hw : Hw) (p : Bool) (c : Cmd) (st d : Nat) (b : List Byte) : (hw.reply p c st d b).supply = hw.supply := by simp [Hw.reply]
@[simp] theorem Hw.reply_bring (hw : Hw) (p : Bool) (c : Cmd) (st d : Nat) (b : List Byte) : (hw.reply p c st d b).bring = hw.bring := by simp [Hw.reply]
@[simp] theorem Hw.reply_fuses (hw : Hw) (p : Bool) (c : Cmd) (st d : Nat) (b : List Byte) : (hw.reply p c st d b).fuses = hw.fuses := by simp [Hw.reply]
@[simp] theorem Hw.reply_sec (hw : Hw) (p : Bool) (c : Cmd) (st d : Nat) (b : List Byte) : (hw.reply p c st d b).sec = hw.sec := by simp [Hw.reply]
@[simp] theorem Hw.reply_fw (hw : Hw) (p : Bool) (c : Cmd) (st d : Nat) (b : List Byte) : (hw.reply p c st d b).fw = hw.fw := by simp [Hw.reply]
@[simp] theorem Hw.reply_banks (hw : Hw) (p : Bool) (c : Cmd) (st d : Nat) (b : List Byte) : (hw.reply p c st d b).banks = hw.banks := by simp [Hw.reply]
@[simp] theorem Hw.reply_psc (hw : Hw) (p : Bool) (c : Cmd) (st d : Nat) (b : List Byte) : (hw.reply p c st d b).psc = hw.psc := by simp [Hw.reply]
@[simp] theorem Hw.reply_irc (hw : Hw) (p : Bool) (c : Cmd) (st d : Nat) (b : List Byte) : (hw.reply p c st d b).irc = hw.irc := by simp [Hw.reply]
@[simp] theorem Hw.reply_tc (hw : Hw) (p : Bool) (c : Cmd) (st d : Nat) (b : List Byte) : (hw.reply p c st d b).tc = hw.tc := by simp [Hw.reply]
@[simp] theorem Hw.reply_tio (hw : Hw) (p : Bool) (c : Cmd) (st d : Nat) (b : List Byte) : (hw.reply p c st d b).tio = hw.tio := by simp [Hw.reply]
@[simp] theorem Hw.reply_tb (hw : Hw) (p : Bool) (c : Cmd) (st d : Nat) (b : List Byte) : (hw.reply p c st d b).tb = hw.tb := by simp [Hw.reply]
@[simp] theorem Hw.reply_power (hw : Hw) (p : Bool) (c : Cmd) (st d : Nat) (b : List Byte) : (hw.reply p c st d b).power = hw.power := by simp [Hw.reply]
@[simp] theorem Hw.reply_sq (hw : Hw) (p : Bool) (c : Cmd) (st d : Nat) (b : List Byte) : (hw.reply p c st d b).sq = hw.sq := by simp [Hw.reply]
@[simp] theorem Hw.reply_slot (hw : Hw) (p : Bool) (c : Cmd) (st d : Nat) (b : List Byte) : (hw.reply p c st d b).slot = hw.slot := by simp [Hw.reply]
@[simp] theorem Hw.reply_core (hw : Hw) (p : Bool) (c : Cmd) (st d : Nat) (b : List Byte) : (hw.reply p c st d b).core = hw.core := by simp [Hw.reply]
@[simp] theorem Hw.reply_link (hw : Hw) (p : Bool) (c : Cmd) (st d : Nat) (b : List Byte) : (hw.reply p c st d b).link = hw.link := by simp [Hw.reply]
@[simp] theorem Hw.reply_fitCrc (hw : Hw) (p : Bool) (c : Cmd) (st d : Nat) (b : List Byte) : (hw.reply p c st d b).fitCrc = hw.fitCrc := by simp [Hw.reply]
@[simp] theorem Hw.reply_fitLane (hw : Hw) (p : Bool) (c : Cmd) (st d : Nat) (b : List Byte) : (hw.reply p c st d b).fitLane = hw.fitLane := by simp [Hw.reply]
@[simp] theorem Hw.reply_rt (hw : Hw) (p : Bool) (c : Cmd) (st d : Nat) (b : List Byte) : (hw.reply p c st d b).rt = hw.rt := by simp [Hw.reply]
@[simp] theorem Hw.reply_ol (hw : Hw) (p : Bool) (c : Cmd) (st d : Nat) (b : List Byte) : (hw.reply p c st d b).ol = hw.ol := by simp [Hw.reply]
@[simp] theorem Hw.reply_dma (hw : Hw) (p : Bool) (c : Cmd) (st d : Nat) (b : List Byte) : (hw.reply p c st d b).dma = hw.dma := by simp [Hw.reply]
@[simp] theorem Hw.reply_dmaTmo (hw : Hw) (p : Bool) (c : Cmd) (st d : Nat) (b : List Byte) : (hw.reply p c st d b).dmaTmo = hw.dmaTmo := by simp [Hw.reply]
@[simp] theorem Hw.reply_seq (hw : Hw) (p : Bool) (c : Cmd) (st d : Nat) (b : List Byte) : (hw.reply p c st d b).seq = hw.seq := by simp [Hw.reply]
@[simp] theorem Hw.reply_jobs (hw : Hw) (p : Bool) (c : Cmd) (st d : Nat) (b : List Byte) : (hw.reply p c st d b).jobs = hw.jobs := by simp [Hw.reply]
@[simp] theorem Hw.reply_bud (hw : Hw) (p : Bool) (c : Cmd) (st d : Nat) (b : List Byte) : (hw.reply p c st d b).bud = hw.bud := by simp [Hw.reply]
@[simp] theorem Hw.reply_journal (hw : Hw) (p : Bool) (c : Cmd) (st d : Nat) (b : List Byte) : (hw.reply p c st d b).journal = hw.journal := by simp [Hw.reply]
@[simp] theorem Hw.reply_results (hw : Hw) (p : Bool) (c : Cmd) (st d : Nat) (b : List Byte) : (hw.reply p c st d b).results = hw.results := by simp [Hw.reply]
@[simp] theorem Hw.reply_flt (hw : Hw) (p : Bool) (c : Cmd) (st d : Nat) (b : List Byte) : (hw.reply p c st d b).flt = hw.flt := by simp [Hw.reply]
@[simp] theorem Hw.reply_csi (hw : Hw) (p : Bool) (c : Cmd) (st d : Nat) (b : List Byte) : (hw.reply p c st d b).csi = hw.csi := by simp [Hw.reply]
@[simp] theorem Hw.reply_heldAcc (hw : Hw) (p : Bool) (c : Cmd) (st d : Nat) (b : List Byte) : (hw.reply p c st d b).heldAcc = hw.heldAcc := by simp [Hw.reply]

/-! ### setHalf: only the field half changes. -/

@[simp] theorem Hw.setHalf_elapsed (hw : Hw) (ini : Initiator) (a : Nat) (h : Half64) : (hw.setHalf ini a h).elapsed = hw.elapsed := rfl
@[simp] theorem Hw.setHalf_fresh (hw : Hw) (ini : Initiator) (a : Nat) (h : Half64) : (hw.setHalf ini a h).fresh = hw.fresh := rfl
@[simp] theorem Hw.setHalf_bus (hw : Hw) (ini : Initiator) (a : Nat) (h : Half64) : (hw.setHalf ini a h).bus = hw.bus := rfl
@[simp] theorem Hw.setHalf_risen (hw : Hw) (ini : Initiator) (a : Nat) (h : Half64) : (hw.setHalf ini a h).risen = hw.risen := rfl
@[simp] theorem Hw.setHalf_supply (hw : Hw) (ini : Initiator) (a : Nat) (h : Half64) : (hw.setHalf ini a h).supply = hw.supply := rfl
@[simp] theorem Hw.setHalf_bring (hw : Hw) (ini : Initiator) (a : Nat) (h : Half64) : (hw.setHalf ini a h).bring = hw.bring := rfl
@[simp] theorem Hw.setHalf_fuses (hw : Hw) (ini : Initiator) (a : Nat) (h : Half64) : (hw.setHalf ini a h).fuses = hw.fuses := rfl
@[simp] theorem Hw.setHalf_sec (hw : Hw) (ini : Initiator) (a : Nat) (h : Half64) : (hw.setHalf ini a h).sec = hw.sec := rfl
@[simp] theorem Hw.setHalf_fw (hw : Hw) (ini : Initiator) (a : Nat) (h : Half64) : (hw.setHalf ini a h).fw = hw.fw := rfl
@[simp] theorem Hw.setHalf_banks (hw : Hw) (ini : Initiator) (a : Nat) (h : Half64) : (hw.setHalf ini a h).banks = hw.banks := rfl
@[simp] theorem Hw.setHalf_psc (hw : Hw) (ini : Initiator) (a : Nat) (h : Half64) : (hw.setHalf ini a h).psc = hw.psc := rfl
@[simp] theorem Hw.setHalf_kz (hw : Hw) (ini : Initiator) (a : Nat) (h : Half64) : (hw.setHalf ini a h).kz = hw.kz := rfl
@[simp] theorem Hw.setHalf_irc (hw : Hw) (ini : Initiator) (a : Nat) (h : Half64) : (hw.setHalf ini a h).irc = hw.irc := rfl
@[simp] theorem Hw.setHalf_tc (hw : Hw) (ini : Initiator) (a : Nat) (h : Half64) : (hw.setHalf ini a h).tc = hw.tc := rfl
@[simp] theorem Hw.setHalf_tio (hw : Hw) (ini : Initiator) (a : Nat) (h : Half64) : (hw.setHalf ini a h).tio = hw.tio := rfl
@[simp] theorem Hw.setHalf_tb (hw : Hw) (ini : Initiator) (a : Nat) (h : Half64) : (hw.setHalf ini a h).tb = hw.tb := rfl
@[simp] theorem Hw.setHalf_power (hw : Hw) (ini : Initiator) (a : Nat) (h : Half64) : (hw.setHalf ini a h).power = hw.power := rfl
@[simp] theorem Hw.setHalf_sq (hw : Hw) (ini : Initiator) (a : Nat) (h : Half64) : (hw.setHalf ini a h).sq = hw.sq := rfl
@[simp] theorem Hw.setHalf_slot (hw : Hw) (ini : Initiator) (a : Nat) (h : Half64) : (hw.setHalf ini a h).slot = hw.slot := rfl
@[simp] theorem Hw.setHalf_core (hw : Hw) (ini : Initiator) (a : Nat) (h : Half64) : (hw.setHalf ini a h).core = hw.core := rfl
@[simp] theorem Hw.setHalf_link (hw : Hw) (ini : Initiator) (a : Nat) (h : Half64) : (hw.setHalf ini a h).link = hw.link := rfl
@[simp] theorem Hw.setHalf_fitCrc (hw : Hw) (ini : Initiator) (a : Nat) (h : Half64) : (hw.setHalf ini a h).fitCrc = hw.fitCrc := rfl
@[simp] theorem Hw.setHalf_fitLane (hw : Hw) (ini : Initiator) (a : Nat) (h : Half64) : (hw.setHalf ini a h).fitLane = hw.fitLane := rfl
@[simp] theorem Hw.setHalf_rt (hw : Hw) (ini : Initiator) (a : Nat) (h : Half64) : (hw.setHalf ini a h).rt = hw.rt := rfl
@[simp] theorem Hw.setHalf_ol (hw : Hw) (ini : Initiator) (a : Nat) (h : Half64) : (hw.setHalf ini a h).ol = hw.ol := rfl
@[simp] theorem Hw.setHalf_dma (hw : Hw) (ini : Initiator) (a : Nat) (h : Half64) : (hw.setHalf ini a h).dma = hw.dma := rfl
@[simp] theorem Hw.setHalf_dmaTmo (hw : Hw) (ini : Initiator) (a : Nat) (h : Half64) : (hw.setHalf ini a h).dmaTmo = hw.dmaTmo := rfl
@[simp] theorem Hw.setHalf_seq (hw : Hw) (ini : Initiator) (a : Nat) (h : Half64) : (hw.setHalf ini a h).seq = hw.seq := rfl
@[simp] theorem Hw.setHalf_jobs (hw : Hw) (ini : Initiator) (a : Nat) (h : Half64) : (hw.setHalf ini a h).jobs = hw.jobs := rfl
@[simp] theorem Hw.setHalf_bud (hw : Hw) (ini : Initiator) (a : Nat) (h : Half64) : (hw.setHalf ini a h).bud = hw.bud := rfl
@[simp] theorem Hw.setHalf_journal (hw : Hw) (ini : Initiator) (a : Nat) (h : Half64) : (hw.setHalf ini a h).journal = hw.journal := rfl
@[simp] theorem Hw.setHalf_results (hw : Hw) (ini : Initiator) (a : Nat) (h : Half64) : (hw.setHalf ini a h).results = hw.results := rfl
@[simp] theorem Hw.setHalf_flt (hw : Hw) (ini : Initiator) (a : Nat) (h : Half64) : (hw.setHalf ini a h).flt = hw.flt := rfl
@[simp] theorem Hw.setHalf_csi (hw : Hw) (ini : Initiator) (a : Nat) (h : Half64) : (hw.setHalf ini a h).csi = hw.csi := rfl
@[simp] theorem Hw.setHalf_heldAcc (hw : Hw) (ini : Initiator) (a : Nat) (h : Half64) : (hw.setHalf ini a h).heldAcc = hw.heldAcc := rfl

/-! ### ringPush: only the field flt changes. -/

@[simp] theorem Hw.ringPush_elapsed (hw : Hw) (b : List Byte) : (hw.ringPush b).elapsed = hw.elapsed := by simp only [Hw.ringPush]
@[simp] theorem Hw.ringPush_fresh (hw : Hw) (b : List Byte) : (hw.ringPush b).fresh = hw.fresh := by simp only [Hw.ringPush]
@[simp] theorem Hw.ringPush_bus (hw : Hw) (b : List Byte) : (hw.ringPush b).bus = hw.bus := by simp only [Hw.ringPush]
@[simp] theorem Hw.ringPush_risen (hw : Hw) (b : List Byte) : (hw.ringPush b).risen = hw.risen := by simp only [Hw.ringPush]
@[simp] theorem Hw.ringPush_half (hw : Hw) (b : List Byte) : (hw.ringPush b).half = hw.half := by simp only [Hw.ringPush]
@[simp] theorem Hw.ringPush_supply (hw : Hw) (b : List Byte) : (hw.ringPush b).supply = hw.supply := by simp only [Hw.ringPush]
@[simp] theorem Hw.ringPush_bring (hw : Hw) (b : List Byte) : (hw.ringPush b).bring = hw.bring := by simp only [Hw.ringPush]
@[simp] theorem Hw.ringPush_fuses (hw : Hw) (b : List Byte) : (hw.ringPush b).fuses = hw.fuses := by simp only [Hw.ringPush]
@[simp] theorem Hw.ringPush_sec (hw : Hw) (b : List Byte) : (hw.ringPush b).sec = hw.sec := by simp only [Hw.ringPush]
@[simp] theorem Hw.ringPush_fw (hw : Hw) (b : List Byte) : (hw.ringPush b).fw = hw.fw := by simp only [Hw.ringPush]
@[simp] theorem Hw.ringPush_banks (hw : Hw) (b : List Byte) : (hw.ringPush b).banks = hw.banks := by simp only [Hw.ringPush]
@[simp] theorem Hw.ringPush_psc (hw : Hw) (b : List Byte) : (hw.ringPush b).psc = hw.psc := by simp only [Hw.ringPush]
@[simp] theorem Hw.ringPush_kz (hw : Hw) (b : List Byte) : (hw.ringPush b).kz = hw.kz := by simp only [Hw.ringPush]
@[simp] theorem Hw.ringPush_irc (hw : Hw) (b : List Byte) : (hw.ringPush b).irc = hw.irc := by simp only [Hw.ringPush]
@[simp] theorem Hw.ringPush_tc (hw : Hw) (b : List Byte) : (hw.ringPush b).tc = hw.tc := by simp only [Hw.ringPush]
@[simp] theorem Hw.ringPush_tio (hw : Hw) (b : List Byte) : (hw.ringPush b).tio = hw.tio := by simp only [Hw.ringPush]
@[simp] theorem Hw.ringPush_tb (hw : Hw) (b : List Byte) : (hw.ringPush b).tb = hw.tb := by simp only [Hw.ringPush]
@[simp] theorem Hw.ringPush_power (hw : Hw) (b : List Byte) : (hw.ringPush b).power = hw.power := by simp only [Hw.ringPush]
@[simp] theorem Hw.ringPush_sq (hw : Hw) (b : List Byte) : (hw.ringPush b).sq = hw.sq := by simp only [Hw.ringPush]
@[simp] theorem Hw.ringPush_slot (hw : Hw) (b : List Byte) : (hw.ringPush b).slot = hw.slot := by simp only [Hw.ringPush]
@[simp] theorem Hw.ringPush_core (hw : Hw) (b : List Byte) : (hw.ringPush b).core = hw.core := by simp only [Hw.ringPush]
@[simp] theorem Hw.ringPush_link (hw : Hw) (b : List Byte) : (hw.ringPush b).link = hw.link := by simp only [Hw.ringPush]
@[simp] theorem Hw.ringPush_fitCrc (hw : Hw) (b : List Byte) : (hw.ringPush b).fitCrc = hw.fitCrc := by simp only [Hw.ringPush]
@[simp] theorem Hw.ringPush_fitLane (hw : Hw) (b : List Byte) : (hw.ringPush b).fitLane = hw.fitLane := by simp only [Hw.ringPush]
@[simp] theorem Hw.ringPush_rt (hw : Hw) (b : List Byte) : (hw.ringPush b).rt = hw.rt := by simp only [Hw.ringPush]
@[simp] theorem Hw.ringPush_ol (hw : Hw) (b : List Byte) : (hw.ringPush b).ol = hw.ol := by simp only [Hw.ringPush]
@[simp] theorem Hw.ringPush_dma (hw : Hw) (b : List Byte) : (hw.ringPush b).dma = hw.dma := by simp only [Hw.ringPush]
@[simp] theorem Hw.ringPush_dmaTmo (hw : Hw) (b : List Byte) : (hw.ringPush b).dmaTmo = hw.dmaTmo := by simp only [Hw.ringPush]
@[simp] theorem Hw.ringPush_seq (hw : Hw) (b : List Byte) : (hw.ringPush b).seq = hw.seq := by simp only [Hw.ringPush]
@[simp] theorem Hw.ringPush_jobs (hw : Hw) (b : List Byte) : (hw.ringPush b).jobs = hw.jobs := by simp only [Hw.ringPush]
@[simp] theorem Hw.ringPush_bud (hw : Hw) (b : List Byte) : (hw.ringPush b).bud = hw.bud := by simp only [Hw.ringPush]
@[simp] theorem Hw.ringPush_journal (hw : Hw) (b : List Byte) : (hw.ringPush b).journal = hw.journal := by simp only [Hw.ringPush]
@[simp] theorem Hw.ringPush_results (hw : Hw) (b : List Byte) : (hw.ringPush b).results = hw.results := by simp only [Hw.ringPush]
@[simp] theorem Hw.ringPush_csi (hw : Hw) (b : List Byte) : (hw.ringPush b).csi = hw.csi := by simp only [Hw.ringPush]
@[simp] theorem Hw.ringPush_heldAcc (hw : Hw) (b : List Byte) : (hw.ringPush b).heldAcc = hw.heldAcc := by simp only [Hw.ringPush]

/-! ### pendSrc: only the field irc changes, and risen. -/

@[simp] theorem Hw.pendSrc_elapsed (hw : Hw) (n : Nat) : (hw.pendSrc n).elapsed = hw.elapsed := rfl
@[simp] theorem Hw.pendSrc_fresh (hw : Hw) (n : Nat) : (hw.pendSrc n).fresh = hw.fresh := rfl
@[simp] theorem Hw.pendSrc_bus (hw : Hw) (n : Nat) : (hw.pendSrc n).bus = hw.bus := rfl
@[simp] theorem Hw.pendSrc_half (hw : Hw) (n : Nat) : (hw.pendSrc n).half = hw.half := rfl
@[simp] theorem Hw.pendSrc_supply (hw : Hw) (n : Nat) : (hw.pendSrc n).supply = hw.supply := rfl
@[simp] theorem Hw.pendSrc_bring (hw : Hw) (n : Nat) : (hw.pendSrc n).bring = hw.bring := rfl
@[simp] theorem Hw.pendSrc_fuses (hw : Hw) (n : Nat) : (hw.pendSrc n).fuses = hw.fuses := rfl
@[simp] theorem Hw.pendSrc_sec (hw : Hw) (n : Nat) : (hw.pendSrc n).sec = hw.sec := rfl
@[simp] theorem Hw.pendSrc_fw (hw : Hw) (n : Nat) : (hw.pendSrc n).fw = hw.fw := rfl
@[simp] theorem Hw.pendSrc_banks (hw : Hw) (n : Nat) : (hw.pendSrc n).banks = hw.banks := rfl
@[simp] theorem Hw.pendSrc_psc (hw : Hw) (n : Nat) : (hw.pendSrc n).psc = hw.psc := rfl
@[simp] theorem Hw.pendSrc_kz (hw : Hw) (n : Nat) : (hw.pendSrc n).kz = hw.kz := rfl
@[simp] theorem Hw.pendSrc_tc (hw : Hw) (n : Nat) : (hw.pendSrc n).tc = hw.tc := rfl
@[simp] theorem Hw.pendSrc_tio (hw : Hw) (n : Nat) : (hw.pendSrc n).tio = hw.tio := rfl
@[simp] theorem Hw.pendSrc_tb (hw : Hw) (n : Nat) : (hw.pendSrc n).tb = hw.tb := rfl
@[simp] theorem Hw.pendSrc_power (hw : Hw) (n : Nat) : (hw.pendSrc n).power = hw.power := rfl
@[simp] theorem Hw.pendSrc_sq (hw : Hw) (n : Nat) : (hw.pendSrc n).sq = hw.sq := rfl
@[simp] theorem Hw.pendSrc_slot (hw : Hw) (n : Nat) : (hw.pendSrc n).slot = hw.slot := rfl
@[simp] theorem Hw.pendSrc_core (hw : Hw) (n : Nat) : (hw.pendSrc n).core = hw.core := rfl
@[simp] theorem Hw.pendSrc_link (hw : Hw) (n : Nat) : (hw.pendSrc n).link = hw.link := rfl
@[simp] theorem Hw.pendSrc_fitCrc (hw : Hw) (n : Nat) : (hw.pendSrc n).fitCrc = hw.fitCrc := rfl
@[simp] theorem Hw.pendSrc_fitLane (hw : Hw) (n : Nat) : (hw.pendSrc n).fitLane = hw.fitLane := rfl
@[simp] theorem Hw.pendSrc_rt (hw : Hw) (n : Nat) : (hw.pendSrc n).rt = hw.rt := rfl
@[simp] theorem Hw.pendSrc_ol (hw : Hw) (n : Nat) : (hw.pendSrc n).ol = hw.ol := rfl
@[simp] theorem Hw.pendSrc_dma (hw : Hw) (n : Nat) : (hw.pendSrc n).dma = hw.dma := rfl
@[simp] theorem Hw.pendSrc_dmaTmo (hw : Hw) (n : Nat) : (hw.pendSrc n).dmaTmo = hw.dmaTmo := rfl
@[simp] theorem Hw.pendSrc_seq (hw : Hw) (n : Nat) : (hw.pendSrc n).seq = hw.seq := rfl
@[simp] theorem Hw.pendSrc_jobs (hw : Hw) (n : Nat) : (hw.pendSrc n).jobs = hw.jobs := rfl
@[simp] theorem Hw.pendSrc_bud (hw : Hw) (n : Nat) : (hw.pendSrc n).bud = hw.bud := rfl
@[simp] theorem Hw.pendSrc_journal (hw : Hw) (n : Nat) : (hw.pendSrc n).journal = hw.journal := rfl
@[simp] theorem Hw.pendSrc_results (hw : Hw) (n : Nat) : (hw.pendSrc n).results = hw.results := rfl
@[simp] theorem Hw.pendSrc_flt (hw : Hw) (n : Nat) : (hw.pendSrc n).flt = hw.flt := rfl
@[simp] theorem Hw.pendSrc_csi (hw : Hw) (n : Nat) : (hw.pendSrc n).csi = hw.csi := rfl
@[simp] theorem Hw.pendSrc_heldAcc (hw : Hw) (n : Nat) : (hw.pendSrc n).heldAcc = hw.heldAcc := rfl

/-! ### rise: only the field risen changes. -/

@[simp] theorem Hw.rise_elapsed (hw : Hw) (w : W1c) (m : Nat) : (hw.rise w m).elapsed = hw.elapsed := rfl
@[simp] theorem Hw.rise_fresh (hw : Hw) (w : W1c) (m : Nat) : (hw.rise w m).fresh = hw.fresh := rfl
@[simp] theorem Hw.rise_bus (hw : Hw) (w : W1c) (m : Nat) : (hw.rise w m).bus = hw.bus := rfl
@[simp] theorem Hw.rise_half (hw : Hw) (w : W1c) (m : Nat) : (hw.rise w m).half = hw.half := rfl
@[simp] theorem Hw.rise_supply (hw : Hw) (w : W1c) (m : Nat) : (hw.rise w m).supply = hw.supply := rfl
@[simp] theorem Hw.rise_bring (hw : Hw) (w : W1c) (m : Nat) : (hw.rise w m).bring = hw.bring := rfl
@[simp] theorem Hw.rise_fuses (hw : Hw) (w : W1c) (m : Nat) : (hw.rise w m).fuses = hw.fuses := rfl
@[simp] theorem Hw.rise_sec (hw : Hw) (w : W1c) (m : Nat) : (hw.rise w m).sec = hw.sec := rfl
@[simp] theorem Hw.rise_fw (hw : Hw) (w : W1c) (m : Nat) : (hw.rise w m).fw = hw.fw := rfl
@[simp] theorem Hw.rise_banks (hw : Hw) (w : W1c) (m : Nat) : (hw.rise w m).banks = hw.banks := rfl
@[simp] theorem Hw.rise_psc (hw : Hw) (w : W1c) (m : Nat) : (hw.rise w m).psc = hw.psc := rfl
@[simp] theorem Hw.rise_kz (hw : Hw) (w : W1c) (m : Nat) : (hw.rise w m).kz = hw.kz := rfl
@[simp] theorem Hw.rise_irc (hw : Hw) (w : W1c) (m : Nat) : (hw.rise w m).irc = hw.irc := rfl
@[simp] theorem Hw.rise_tc (hw : Hw) (w : W1c) (m : Nat) : (hw.rise w m).tc = hw.tc := rfl
@[simp] theorem Hw.rise_tio (hw : Hw) (w : W1c) (m : Nat) : (hw.rise w m).tio = hw.tio := rfl
@[simp] theorem Hw.rise_tb (hw : Hw) (w : W1c) (m : Nat) : (hw.rise w m).tb = hw.tb := rfl
@[simp] theorem Hw.rise_power (hw : Hw) (w : W1c) (m : Nat) : (hw.rise w m).power = hw.power := rfl
@[simp] theorem Hw.rise_sq (hw : Hw) (w : W1c) (m : Nat) : (hw.rise w m).sq = hw.sq := rfl
@[simp] theorem Hw.rise_slot (hw : Hw) (w : W1c) (m : Nat) : (hw.rise w m).slot = hw.slot := rfl
@[simp] theorem Hw.rise_core (hw : Hw) (w : W1c) (m : Nat) : (hw.rise w m).core = hw.core := rfl
@[simp] theorem Hw.rise_link (hw : Hw) (w : W1c) (m : Nat) : (hw.rise w m).link = hw.link := rfl
@[simp] theorem Hw.rise_fitCrc (hw : Hw) (w : W1c) (m : Nat) : (hw.rise w m).fitCrc = hw.fitCrc := rfl
@[simp] theorem Hw.rise_fitLane (hw : Hw) (w : W1c) (m : Nat) : (hw.rise w m).fitLane = hw.fitLane := rfl
@[simp] theorem Hw.rise_rt (hw : Hw) (w : W1c) (m : Nat) : (hw.rise w m).rt = hw.rt := rfl
@[simp] theorem Hw.rise_ol (hw : Hw) (w : W1c) (m : Nat) : (hw.rise w m).ol = hw.ol := rfl
@[simp] theorem Hw.rise_dma (hw : Hw) (w : W1c) (m : Nat) : (hw.rise w m).dma = hw.dma := rfl
@[simp] theorem Hw.rise_dmaTmo (hw : Hw) (w : W1c) (m : Nat) : (hw.rise w m).dmaTmo = hw.dmaTmo := rfl
@[simp] theorem Hw.rise_seq (hw : Hw) (w : W1c) (m : Nat) : (hw.rise w m).seq = hw.seq := rfl
@[simp] theorem Hw.rise_jobs (hw : Hw) (w : W1c) (m : Nat) : (hw.rise w m).jobs = hw.jobs := rfl
@[simp] theorem Hw.rise_bud (hw : Hw) (w : W1c) (m : Nat) : (hw.rise w m).bud = hw.bud := rfl
@[simp] theorem Hw.rise_journal (hw : Hw) (w : W1c) (m : Nat) : (hw.rise w m).journal = hw.journal := rfl
@[simp] theorem Hw.rise_results (hw : Hw) (w : W1c) (m : Nat) : (hw.rise w m).results = hw.results := rfl
@[simp] theorem Hw.rise_flt (hw : Hw) (w : W1c) (m : Nat) : (hw.rise w m).flt = hw.flt := rfl
@[simp] theorem Hw.rise_csi (hw : Hw) (w : W1c) (m : Nat) : (hw.rise w m).csi = hw.csi := rfl
@[simp] theorem Hw.rise_heldAcc (hw : Hw) (w : W1c) (m : Nat) : (hw.rise w m).heldAcc = hw.heldAcc := rfl

/-! ### askDomain: only the field power changes. -/

@[simp] theorem Hw.askDomain_elapsed (hw : Hw) (d : Nat) (t : PwrState) : (hw.askDomain d t).elapsed = hw.elapsed := by simp only [Hw.askDomain]; split <;> rfl
@[simp] theorem Hw.askDomain_fresh (hw : Hw) (d : Nat) (t : PwrState) : (hw.askDomain d t).fresh = hw.fresh := by simp only [Hw.askDomain]; split <;> rfl
@[simp] theorem Hw.askDomain_bus (hw : Hw) (d : Nat) (t : PwrState) : (hw.askDomain d t).bus = hw.bus := by simp only [Hw.askDomain]; split <;> rfl
@[simp] theorem Hw.askDomain_risen (hw : Hw) (d : Nat) (t : PwrState) : (hw.askDomain d t).risen = hw.risen := by simp only [Hw.askDomain]; split <;> rfl
@[simp] theorem Hw.askDomain_half (hw : Hw) (d : Nat) (t : PwrState) : (hw.askDomain d t).half = hw.half := by simp only [Hw.askDomain]; split <;> rfl
@[simp] theorem Hw.askDomain_supply (hw : Hw) (d : Nat) (t : PwrState) : (hw.askDomain d t).supply = hw.supply := by simp only [Hw.askDomain]; split <;> rfl
@[simp] theorem Hw.askDomain_bring (hw : Hw) (d : Nat) (t : PwrState) : (hw.askDomain d t).bring = hw.bring := by simp only [Hw.askDomain]; split <;> rfl
@[simp] theorem Hw.askDomain_fuses (hw : Hw) (d : Nat) (t : PwrState) : (hw.askDomain d t).fuses = hw.fuses := by simp only [Hw.askDomain]; split <;> rfl
@[simp] theorem Hw.askDomain_sec (hw : Hw) (d : Nat) (t : PwrState) : (hw.askDomain d t).sec = hw.sec := by simp only [Hw.askDomain]; split <;> rfl
@[simp] theorem Hw.askDomain_fw (hw : Hw) (d : Nat) (t : PwrState) : (hw.askDomain d t).fw = hw.fw := by simp only [Hw.askDomain]; split <;> rfl
@[simp] theorem Hw.askDomain_banks (hw : Hw) (d : Nat) (t : PwrState) : (hw.askDomain d t).banks = hw.banks := by simp only [Hw.askDomain]; split <;> rfl
@[simp] theorem Hw.askDomain_psc (hw : Hw) (d : Nat) (t : PwrState) : (hw.askDomain d t).psc = hw.psc := by simp only [Hw.askDomain]; split <;> rfl
@[simp] theorem Hw.askDomain_kz (hw : Hw) (d : Nat) (t : PwrState) : (hw.askDomain d t).kz = hw.kz := by simp only [Hw.askDomain]; split <;> rfl
@[simp] theorem Hw.askDomain_irc (hw : Hw) (d : Nat) (t : PwrState) : (hw.askDomain d t).irc = hw.irc := by simp only [Hw.askDomain]; split <;> rfl
@[simp] theorem Hw.askDomain_tc (hw : Hw) (d : Nat) (t : PwrState) : (hw.askDomain d t).tc = hw.tc := by simp only [Hw.askDomain]; split <;> rfl
@[simp] theorem Hw.askDomain_tio (hw : Hw) (d : Nat) (t : PwrState) : (hw.askDomain d t).tio = hw.tio := by simp only [Hw.askDomain]; split <;> rfl
@[simp] theorem Hw.askDomain_tb (hw : Hw) (d : Nat) (t : PwrState) : (hw.askDomain d t).tb = hw.tb := by simp only [Hw.askDomain]; split <;> rfl
@[simp] theorem Hw.askDomain_sq (hw : Hw) (d : Nat) (t : PwrState) : (hw.askDomain d t).sq = hw.sq := by simp only [Hw.askDomain]; split <;> rfl
@[simp] theorem Hw.askDomain_slot (hw : Hw) (d : Nat) (t : PwrState) : (hw.askDomain d t).slot = hw.slot := by simp only [Hw.askDomain]; split <;> rfl
@[simp] theorem Hw.askDomain_core (hw : Hw) (d : Nat) (t : PwrState) : (hw.askDomain d t).core = hw.core := by simp only [Hw.askDomain]; split <;> rfl
@[simp] theorem Hw.askDomain_link (hw : Hw) (d : Nat) (t : PwrState) : (hw.askDomain d t).link = hw.link := by simp only [Hw.askDomain]; split <;> rfl
@[simp] theorem Hw.askDomain_fitCrc (hw : Hw) (d : Nat) (t : PwrState) : (hw.askDomain d t).fitCrc = hw.fitCrc := by simp only [Hw.askDomain]; split <;> rfl
@[simp] theorem Hw.askDomain_fitLane (hw : Hw) (d : Nat) (t : PwrState) : (hw.askDomain d t).fitLane = hw.fitLane := by simp only [Hw.askDomain]; split <;> rfl
@[simp] theorem Hw.askDomain_rt (hw : Hw) (d : Nat) (t : PwrState) : (hw.askDomain d t).rt = hw.rt := by simp only [Hw.askDomain]; split <;> rfl
@[simp] theorem Hw.askDomain_ol (hw : Hw) (d : Nat) (t : PwrState) : (hw.askDomain d t).ol = hw.ol := by simp only [Hw.askDomain]; split <;> rfl
@[simp] theorem Hw.askDomain_dma (hw : Hw) (d : Nat) (t : PwrState) : (hw.askDomain d t).dma = hw.dma := by simp only [Hw.askDomain]; split <;> rfl
@[simp] theorem Hw.askDomain_dmaTmo (hw : Hw) (d : Nat) (t : PwrState) : (hw.askDomain d t).dmaTmo = hw.dmaTmo := by simp only [Hw.askDomain]; split <;> rfl
@[simp] theorem Hw.askDomain_seq (hw : Hw) (d : Nat) (t : PwrState) : (hw.askDomain d t).seq = hw.seq := by simp only [Hw.askDomain]; split <;> rfl
@[simp] theorem Hw.askDomain_jobs (hw : Hw) (d : Nat) (t : PwrState) : (hw.askDomain d t).jobs = hw.jobs := by simp only [Hw.askDomain]; split <;> rfl
@[simp] theorem Hw.askDomain_bud (hw : Hw) (d : Nat) (t : PwrState) : (hw.askDomain d t).bud = hw.bud := by simp only [Hw.askDomain]; split <;> rfl
@[simp] theorem Hw.askDomain_journal (hw : Hw) (d : Nat) (t : PwrState) : (hw.askDomain d t).journal = hw.journal := by simp only [Hw.askDomain]; split <;> rfl
@[simp] theorem Hw.askDomain_results (hw : Hw) (d : Nat) (t : PwrState) : (hw.askDomain d t).results = hw.results := by simp only [Hw.askDomain]; split <;> rfl
@[simp] theorem Hw.askDomain_flt (hw : Hw) (d : Nat) (t : PwrState) : (hw.askDomain d t).flt = hw.flt := by simp only [Hw.askDomain]; split <;> rfl
@[simp] theorem Hw.askDomain_csi (hw : Hw) (d : Nat) (t : PwrState) : (hw.askDomain d t).csi = hw.csi := by simp only [Hw.askDomain]; split <;> rfl
@[simp] theorem Hw.askDomain_heldAcc (hw : Hw) (d : Nat) (t : PwrState) : (hw.askDomain d t).heldAcc = hw.heldAcc := by simp only [Hw.askDomain]; split <;> rfl

/-! ### touchDom: only the field power changes. -/

@[simp] theorem Hw.touchDom_elapsed (hw : Hw) (d : Nat) : (hw.touchDom d).elapsed = hw.elapsed := rfl
@[simp] theorem Hw.touchDom_fresh (hw : Hw) (d : Nat) : (hw.touchDom d).fresh = hw.fresh := rfl
@[simp] theorem Hw.touchDom_bus (hw : Hw) (d : Nat) : (hw.touchDom d).bus = hw.bus := rfl
@[simp] theorem Hw.touchDom_risen (hw : Hw) (d : Nat) : (hw.touchDom d).risen = hw.risen := rfl
@[simp] theorem Hw.touchDom_half (hw : Hw) (d : Nat) : (hw.touchDom d).half = hw.half := rfl
@[simp] theorem Hw.touchDom_supply (hw : Hw) (d : Nat) : (hw.touchDom d).supply = hw.supply := rfl
@[simp] theorem Hw.touchDom_bring (hw : Hw) (d : Nat) : (hw.touchDom d).bring = hw.bring := rfl
@[simp] theorem Hw.touchDom_fuses (hw : Hw) (d : Nat) : (hw.touchDom d).fuses = hw.fuses := rfl
@[simp] theorem Hw.touchDom_sec (hw : Hw) (d : Nat) : (hw.touchDom d).sec = hw.sec := rfl
@[simp] theorem Hw.touchDom_fw (hw : Hw) (d : Nat) : (hw.touchDom d).fw = hw.fw := rfl
@[simp] theorem Hw.touchDom_banks (hw : Hw) (d : Nat) : (hw.touchDom d).banks = hw.banks := rfl
@[simp] theorem Hw.touchDom_psc (hw : Hw) (d : Nat) : (hw.touchDom d).psc = hw.psc := rfl
@[simp] theorem Hw.touchDom_kz (hw : Hw) (d : Nat) : (hw.touchDom d).kz = hw.kz := rfl
@[simp] theorem Hw.touchDom_irc (hw : Hw) (d : Nat) : (hw.touchDom d).irc = hw.irc := rfl
@[simp] theorem Hw.touchDom_tc (hw : Hw) (d : Nat) : (hw.touchDom d).tc = hw.tc := rfl
@[simp] theorem Hw.touchDom_tio (hw : Hw) (d : Nat) : (hw.touchDom d).tio = hw.tio := rfl
@[simp] theorem Hw.touchDom_tb (hw : Hw) (d : Nat) : (hw.touchDom d).tb = hw.tb := rfl
@[simp] theorem Hw.touchDom_sq (hw : Hw) (d : Nat) : (hw.touchDom d).sq = hw.sq := rfl
@[simp] theorem Hw.touchDom_slot (hw : Hw) (d : Nat) : (hw.touchDom d).slot = hw.slot := rfl
@[simp] theorem Hw.touchDom_core (hw : Hw) (d : Nat) : (hw.touchDom d).core = hw.core := rfl
@[simp] theorem Hw.touchDom_link (hw : Hw) (d : Nat) : (hw.touchDom d).link = hw.link := rfl
@[simp] theorem Hw.touchDom_fitCrc (hw : Hw) (d : Nat) : (hw.touchDom d).fitCrc = hw.fitCrc := rfl
@[simp] theorem Hw.touchDom_fitLane (hw : Hw) (d : Nat) : (hw.touchDom d).fitLane = hw.fitLane := rfl
@[simp] theorem Hw.touchDom_rt (hw : Hw) (d : Nat) : (hw.touchDom d).rt = hw.rt := rfl
@[simp] theorem Hw.touchDom_ol (hw : Hw) (d : Nat) : (hw.touchDom d).ol = hw.ol := rfl
@[simp] theorem Hw.touchDom_dma (hw : Hw) (d : Nat) : (hw.touchDom d).dma = hw.dma := rfl
@[simp] theorem Hw.touchDom_dmaTmo (hw : Hw) (d : Nat) : (hw.touchDom d).dmaTmo = hw.dmaTmo := rfl
@[simp] theorem Hw.touchDom_seq (hw : Hw) (d : Nat) : (hw.touchDom d).seq = hw.seq := rfl
@[simp] theorem Hw.touchDom_jobs (hw : Hw) (d : Nat) : (hw.touchDom d).jobs = hw.jobs := rfl
@[simp] theorem Hw.touchDom_bud (hw : Hw) (d : Nat) : (hw.touchDom d).bud = hw.bud := rfl
@[simp] theorem Hw.touchDom_journal (hw : Hw) (d : Nat) : (hw.touchDom d).journal = hw.journal := rfl
@[simp] theorem Hw.touchDom_results (hw : Hw) (d : Nat) : (hw.touchDom d).results = hw.results := rfl
@[simp] theorem Hw.touchDom_flt (hw : Hw) (d : Nat) : (hw.touchDom d).flt = hw.flt := rfl
@[simp] theorem Hw.touchDom_csi (hw : Hw) (d : Nat) : (hw.touchDom d).csi = hw.csi := rfl
@[simp] theorem Hw.touchDom_heldAcc (hw : Hw) (d : Nat) : (hw.touchDom d).heldAcc = hw.heldAcc := rfl

/-! ### askBank: only the field sq changes. -/

@[simp] theorem Hw.askBank_elapsed (hw : Hw) (s g : Nat) (t : PwrState) : (hw.askBank s g t).elapsed = hw.elapsed := rfl
@[simp] theorem Hw.askBank_fresh (hw : Hw) (s g : Nat) (t : PwrState) : (hw.askBank s g t).fresh = hw.fresh := rfl
@[simp] theorem Hw.askBank_bus (hw : Hw) (s g : Nat) (t : PwrState) : (hw.askBank s g t).bus = hw.bus := rfl
@[simp] theorem Hw.askBank_risen (hw : Hw) (s g : Nat) (t : PwrState) : (hw.askBank s g t).risen = hw.risen := rfl
@[simp] theorem Hw.askBank_half (hw : Hw) (s g : Nat) (t : PwrState) : (hw.askBank s g t).half = hw.half := rfl
@[simp] theorem Hw.askBank_supply (hw : Hw) (s g : Nat) (t : PwrState) : (hw.askBank s g t).supply = hw.supply := rfl
@[simp] theorem Hw.askBank_bring (hw : Hw) (s g : Nat) (t : PwrState) : (hw.askBank s g t).bring = hw.bring := rfl
@[simp] theorem Hw.askBank_fuses (hw : Hw) (s g : Nat) (t : PwrState) : (hw.askBank s g t).fuses = hw.fuses := rfl
@[simp] theorem Hw.askBank_sec (hw : Hw) (s g : Nat) (t : PwrState) : (hw.askBank s g t).sec = hw.sec := rfl
@[simp] theorem Hw.askBank_fw (hw : Hw) (s g : Nat) (t : PwrState) : (hw.askBank s g t).fw = hw.fw := rfl
@[simp] theorem Hw.askBank_banks (hw : Hw) (s g : Nat) (t : PwrState) : (hw.askBank s g t).banks = hw.banks := rfl
@[simp] theorem Hw.askBank_psc (hw : Hw) (s g : Nat) (t : PwrState) : (hw.askBank s g t).psc = hw.psc := rfl
@[simp] theorem Hw.askBank_kz (hw : Hw) (s g : Nat) (t : PwrState) : (hw.askBank s g t).kz = hw.kz := rfl
@[simp] theorem Hw.askBank_irc (hw : Hw) (s g : Nat) (t : PwrState) : (hw.askBank s g t).irc = hw.irc := rfl
@[simp] theorem Hw.askBank_tc (hw : Hw) (s g : Nat) (t : PwrState) : (hw.askBank s g t).tc = hw.tc := rfl
@[simp] theorem Hw.askBank_tio (hw : Hw) (s g : Nat) (t : PwrState) : (hw.askBank s g t).tio = hw.tio := rfl
@[simp] theorem Hw.askBank_tb (hw : Hw) (s g : Nat) (t : PwrState) : (hw.askBank s g t).tb = hw.tb := rfl
@[simp] theorem Hw.askBank_power (hw : Hw) (s g : Nat) (t : PwrState) : (hw.askBank s g t).power = hw.power := rfl
@[simp] theorem Hw.askBank_slot (hw : Hw) (s g : Nat) (t : PwrState) : (hw.askBank s g t).slot = hw.slot := rfl
@[simp] theorem Hw.askBank_core (hw : Hw) (s g : Nat) (t : PwrState) : (hw.askBank s g t).core = hw.core := rfl
@[simp] theorem Hw.askBank_link (hw : Hw) (s g : Nat) (t : PwrState) : (hw.askBank s g t).link = hw.link := rfl
@[simp] theorem Hw.askBank_fitCrc (hw : Hw) (s g : Nat) (t : PwrState) : (hw.askBank s g t).fitCrc = hw.fitCrc := rfl
@[simp] theorem Hw.askBank_fitLane (hw : Hw) (s g : Nat) (t : PwrState) : (hw.askBank s g t).fitLane = hw.fitLane := rfl
@[simp] theorem Hw.askBank_rt (hw : Hw) (s g : Nat) (t : PwrState) : (hw.askBank s g t).rt = hw.rt := rfl
@[simp] theorem Hw.askBank_ol (hw : Hw) (s g : Nat) (t : PwrState) : (hw.askBank s g t).ol = hw.ol := rfl
@[simp] theorem Hw.askBank_dma (hw : Hw) (s g : Nat) (t : PwrState) : (hw.askBank s g t).dma = hw.dma := rfl
@[simp] theorem Hw.askBank_dmaTmo (hw : Hw) (s g : Nat) (t : PwrState) : (hw.askBank s g t).dmaTmo = hw.dmaTmo := rfl
@[simp] theorem Hw.askBank_seq (hw : Hw) (s g : Nat) (t : PwrState) : (hw.askBank s g t).seq = hw.seq := rfl
@[simp] theorem Hw.askBank_jobs (hw : Hw) (s g : Nat) (t : PwrState) : (hw.askBank s g t).jobs = hw.jobs := rfl
@[simp] theorem Hw.askBank_bud (hw : Hw) (s g : Nat) (t : PwrState) : (hw.askBank s g t).bud = hw.bud := rfl
@[simp] theorem Hw.askBank_journal (hw : Hw) (s g : Nat) (t : PwrState) : (hw.askBank s g t).journal = hw.journal := rfl
@[simp] theorem Hw.askBank_results (hw : Hw) (s g : Nat) (t : PwrState) : (hw.askBank s g t).results = hw.results := rfl
@[simp] theorem Hw.askBank_flt (hw : Hw) (s g : Nat) (t : PwrState) : (hw.askBank s g t).flt = hw.flt := rfl
@[simp] theorem Hw.askBank_csi (hw : Hw) (s g : Nat) (t : PwrState) : (hw.askBank s g t).csi = hw.csi := rfl
@[simp] theorem Hw.askBank_heldAcc (hw : Hw) (s g : Nat) (t : PwrState) : (hw.askBank s g t).heldAcc = hw.heldAcc := rfl

/-! ### Accessors of other fields. -/

@[simp] theorem Hw.modSq_slotOf (hw : Hw) (s : Nat) (f : Square → Square) (x y : Nat) : (hw.modSq s f).slotOf x y = hw.slotOf x y := rfl
@[simp] theorem Hw.modSq_coreOf (hw : Hw) (s : Nat) (f : Square → Square) (x y : Nat) : (hw.modSq s f).coreOf x y = hw.coreOf x y := rfl
@[simp] theorem Hw.modSq_jobOf (hw : Hw) (s : Nat) (f : Square → Square) (x : Nat) : (hw.modSq s f).jobOf x = hw.jobOf x := rfl
@[simp] theorem Hw.modSq_linkOf (hw : Hw) (s : Nat) (f : Square → Square) (x : Nat) : (hw.modSq s f).linkOf x = hw.linkOf x := rfl
@[simp] theorem Hw.modSq_dmaOf (hw : Hw) (s : Nat) (f : Square → Square) (x : Nat) : (hw.modSq s f).dmaOf x = hw.dmaOf x := rfl
@[simp] theorem Hw.modSq_tcOf (hw : Hw) (s : Nat) (f : Square → Square) (x : Nat) : (hw.modSq s f).tcOf x = hw.tcOf x := rfl
@[simp] theorem Hw.modSq_csiOf (hw : Hw) (s : Nat) (f : Square → Square) (x : Nat) : (hw.modSq s f).csiOf x = hw.csiOf x := rfl
@[simp] theorem Hw.modSq_domOf (hw : Hw) (s : Nat) (f : Square → Square) (x : Nat) : (hw.modSq s f).domOf x = hw.domOf x := rfl
@[simp] theorem Hw.modSq_isOn (hw : Hw) (s : Nat) (f : Square → Square) (x : Nat) : (hw.modSq s f).isOn x = hw.isOn x := rfl
@[simp] theorem Hw.modSq_srcOf (hw : Hw) (s : Nat) (f : Square → Square) (x : Nat) : (hw.modSq s f).srcOf x = hw.srcOf x := rfl
@[simp] theorem Hw.modSq_grpOf (hw : Hw) (s : Nat) (f : Square → Square) (x : Nat) : (hw.modSq s f).grpOf x = hw.grpOf x := rfl
@[simp] theorem Hw.modSq_chanOf (hw : Hw) (s : Nat) (f : Square → Square) (x : Nat) : (hw.modSq s f).chanOf x = hw.chanOf x := rfl
@[simp] theorem Hw.modSq_portOf (hw : Hw) (s : Nat) (f : Square → Square) (x : Bool) : (hw.modSq s f).portOf x = hw.portOf x := rfl
@[simp] theorem Hw.modRt_slotOf (hw : Hw) (s : Nat) (f : Router → Router) (x y : Nat) : (hw.modRt s f).slotOf x y = hw.slotOf x y := rfl
@[simp] theorem Hw.modRt_coreOf (hw : Hw) (s : Nat) (f : Router → Router) (x y : Nat) : (hw.modRt s f).coreOf x y = hw.coreOf x y := rfl
@[simp] theorem Hw.modRt_jobOf (hw : Hw) (s : Nat) (f : Router → Router) (x : Nat) : (hw.modRt s f).jobOf x = hw.jobOf x := rfl
@[simp] theorem Hw.modRt_linkOf (hw : Hw) (s : Nat) (f : Router → Router) (x : Nat) : (hw.modRt s f).linkOf x = hw.linkOf x := rfl
@[simp] theorem Hw.modRt_dmaOf (hw : Hw) (s : Nat) (f : Router → Router) (x : Nat) : (hw.modRt s f).dmaOf x = hw.dmaOf x := rfl
@[simp] theorem Hw.modRt_tcOf (hw : Hw) (s : Nat) (f : Router → Router) (x : Nat) : (hw.modRt s f).tcOf x = hw.tcOf x := rfl
@[simp] theorem Hw.modRt_csiOf (hw : Hw) (s : Nat) (f : Router → Router) (x : Nat) : (hw.modRt s f).csiOf x = hw.csiOf x := rfl
@[simp] theorem Hw.modRt_domOf (hw : Hw) (s : Nat) (f : Router → Router) (x : Nat) : (hw.modRt s f).domOf x = hw.domOf x := rfl
@[simp] theorem Hw.modRt_isOn (hw : Hw) (s : Nat) (f : Router → Router) (x : Nat) : (hw.modRt s f).isOn x = hw.isOn x := rfl
@[simp] theorem Hw.modRt_srcOf (hw : Hw) (s : Nat) (f : Router → Router) (x : Nat) : (hw.modRt s f).srcOf x = hw.srcOf x := rfl
@[simp] theorem Hw.modRt_grpOf (hw : Hw) (s : Nat) (f : Router → Router) (x : Nat) : (hw.modRt s f).grpOf x = hw.grpOf x := rfl
@[simp] theorem Hw.modRt_chanOf (hw : Hw) (s : Nat) (f : Router → Router) (x : Nat) : (hw.modRt s f).chanOf x = hw.chanOf x := rfl
@[simp] theorem Hw.modRt_portOf (hw : Hw) (s : Nat) (f : Router → Router) (x : Bool) : (hw.modRt s f).portOf x = hw.portOf x := rfl
@[simp] theorem Hw.modFlt_slotOf (hw : Hw) (s : Nat) (f : SqFault → SqFault) (x y : Nat) : (hw.modFlt s f).slotOf x y = hw.slotOf x y := rfl
@[simp] theorem Hw.modFlt_coreOf (hw : Hw) (s : Nat) (f : SqFault → SqFault) (x y : Nat) : (hw.modFlt s f).coreOf x y = hw.coreOf x y := rfl
@[simp] theorem Hw.modFlt_jobOf (hw : Hw) (s : Nat) (f : SqFault → SqFault) (x : Nat) : (hw.modFlt s f).jobOf x = hw.jobOf x := rfl
@[simp] theorem Hw.modFlt_linkOf (hw : Hw) (s : Nat) (f : SqFault → SqFault) (x : Nat) : (hw.modFlt s f).linkOf x = hw.linkOf x := rfl
@[simp] theorem Hw.modFlt_dmaOf (hw : Hw) (s : Nat) (f : SqFault → SqFault) (x : Nat) : (hw.modFlt s f).dmaOf x = hw.dmaOf x := rfl
@[simp] theorem Hw.modFlt_tcOf (hw : Hw) (s : Nat) (f : SqFault → SqFault) (x : Nat) : (hw.modFlt s f).tcOf x = hw.tcOf x := rfl
@[simp] theorem Hw.modFlt_csiOf (hw : Hw) (s : Nat) (f : SqFault → SqFault) (x : Nat) : (hw.modFlt s f).csiOf x = hw.csiOf x := rfl
@[simp] theorem Hw.modFlt_domOf (hw : Hw) (s : Nat) (f : SqFault → SqFault) (x : Nat) : (hw.modFlt s f).domOf x = hw.domOf x := rfl
@[simp] theorem Hw.modFlt_isOn (hw : Hw) (s : Nat) (f : SqFault → SqFault) (x : Nat) : (hw.modFlt s f).isOn x = hw.isOn x := rfl
@[simp] theorem Hw.modFlt_srcOf (hw : Hw) (s : Nat) (f : SqFault → SqFault) (x : Nat) : (hw.modFlt s f).srcOf x = hw.srcOf x := rfl
@[simp] theorem Hw.modFlt_grpOf (hw : Hw) (s : Nat) (f : SqFault → SqFault) (x : Nat) : (hw.modFlt s f).grpOf x = hw.grpOf x := rfl
@[simp] theorem Hw.modFlt_chanOf (hw : Hw) (s : Nat) (f : SqFault → SqFault) (x : Nat) : (hw.modFlt s f).chanOf x = hw.chanOf x := rfl
@[simp] theorem Hw.modFlt_portOf (hw : Hw) (s : Nat) (f : SqFault → SqFault) (x : Bool) : (hw.modFlt s f).portOf x = hw.portOf x := rfl
@[simp] theorem Hw.modSlot_sqOf (hw : Hw) (s p : Nat) (f : Slot → Slot) (x : Nat) : (hw.modSlot s p f).sqOf x = hw.sqOf x := rfl
@[simp] theorem Hw.modSlot_coreOf (hw : Hw) (s p : Nat) (f : Slot → Slot) (x y : Nat) : (hw.modSlot s p f).coreOf x y = hw.coreOf x y := rfl
@[simp] theorem Hw.modSlot_jobOf (hw : Hw) (s p : Nat) (f : Slot → Slot) (x : Nat) : (hw.modSlot s p f).jobOf x = hw.jobOf x := rfl
@[simp] theorem Hw.modSlot_linkOf (hw : Hw) (s p : Nat) (f : Slot → Slot) (x : Nat) : (hw.modSlot s p f).linkOf x = hw.linkOf x := rfl
@[simp] theorem Hw.modSlot_dmaOf (hw : Hw) (s p : Nat) (f : Slot → Slot) (x : Nat) : (hw.modSlot s p f).dmaOf x = hw.dmaOf x := rfl
@[simp] theorem Hw.modSlot_tcOf (hw : Hw) (s p : Nat) (f : Slot → Slot) (x : Nat) : (hw.modSlot s p f).tcOf x = hw.tcOf x := rfl
@[simp] theorem Hw.modSlot_csiOf (hw : Hw) (s p : Nat) (f : Slot → Slot) (x : Nat) : (hw.modSlot s p f).csiOf x = hw.csiOf x := rfl
@[simp] theorem Hw.modSlot_domOf (hw : Hw) (s p : Nat) (f : Slot → Slot) (x : Nat) : (hw.modSlot s p f).domOf x = hw.domOf x := rfl
@[simp] theorem Hw.modSlot_isOn (hw : Hw) (s p : Nat) (f : Slot → Slot) (x : Nat) : (hw.modSlot s p f).isOn x = hw.isOn x := rfl
@[simp] theorem Hw.modSlot_srcOf (hw : Hw) (s p : Nat) (f : Slot → Slot) (x : Nat) : (hw.modSlot s p f).srcOf x = hw.srcOf x := rfl
@[simp] theorem Hw.modSlot_grpOf (hw : Hw) (s p : Nat) (f : Slot → Slot) (x : Nat) : (hw.modSlot s p f).grpOf x = hw.grpOf x := rfl
@[simp] theorem Hw.modSlot_chanOf (hw : Hw) (s p : Nat) (f : Slot → Slot) (x : Nat) : (hw.modSlot s p f).chanOf x = hw.chanOf x := rfl
@[simp] theorem Hw.modSlot_portOf (hw : Hw) (s p : Nat) (f : Slot → Slot) (x : Bool) : (hw.modSlot s p f).portOf x = hw.portOf x := rfl
@[simp] theorem Hw.modSlot_rtOf (hw : Hw) (s p : Nat) (f : Slot → Slot) (x : Nat) : (hw.modSlot s p f).rtOf x = hw.rtOf x := rfl
@[simp] theorem Hw.modCore_sqOf (hw : Hw) (s l : Nat) (f : LCore → LCore) (x : Nat) : (hw.modCore s l f).sqOf x = hw.sqOf x := rfl
@[simp] theorem Hw.modCore_slotOf (hw : Hw) (s l : Nat) (f : LCore → LCore) (x y : Nat) : (hw.modCore s l f).slotOf x y = hw.slotOf x y := rfl
@[simp] theorem Hw.modCore_jobOf (hw : Hw) (s l : Nat) (f : LCore → LCore) (x : Nat) : (hw.modCore s l f).jobOf x = hw.jobOf x := rfl
@[simp] theorem Hw.modCore_linkOf (hw : Hw) (s l : Nat) (f : LCore → LCore) (x : Nat) : (hw.modCore s l f).linkOf x = hw.linkOf x := rfl
@[simp] theorem Hw.modCore_dmaOf (hw : Hw) (s l : Nat) (f : LCore → LCore) (x : Nat) : (hw.modCore s l f).dmaOf x = hw.dmaOf x := rfl
@[simp] theorem Hw.modCore_tcOf (hw : Hw) (s l : Nat) (f : LCore → LCore) (x : Nat) : (hw.modCore s l f).tcOf x = hw.tcOf x := rfl
@[simp] theorem Hw.modCore_csiOf (hw : Hw) (s l : Nat) (f : LCore → LCore) (x : Nat) : (hw.modCore s l f).csiOf x = hw.csiOf x := rfl
@[simp] theorem Hw.modCore_domOf (hw : Hw) (s l : Nat) (f : LCore → LCore) (x : Nat) : (hw.modCore s l f).domOf x = hw.domOf x := rfl
@[simp] theorem Hw.modCore_isOn (hw : Hw) (s l : Nat) (f : LCore → LCore) (x : Nat) : (hw.modCore s l f).isOn x = hw.isOn x := rfl
@[simp] theorem Hw.modCore_srcOf (hw : Hw) (s l : Nat) (f : LCore → LCore) (x : Nat) : (hw.modCore s l f).srcOf x = hw.srcOf x := rfl
@[simp] theorem Hw.modCore_grpOf (hw : Hw) (s l : Nat) (f : LCore → LCore) (x : Nat) : (hw.modCore s l f).grpOf x = hw.grpOf x := rfl
@[simp] theorem Hw.modCore_chanOf (hw : Hw) (s l : Nat) (f : LCore → LCore) (x : Nat) : (hw.modCore s l f).chanOf x = hw.chanOf x := rfl
@[simp] theorem Hw.modCore_portOf (hw : Hw) (s l : Nat) (f : LCore → LCore) (x : Bool) : (hw.modCore s l f).portOf x = hw.portOf x := rfl
@[simp] theorem Hw.modCore_rtOf (hw : Hw) (s l : Nat) (f : LCore → LCore) (x : Nat) : (hw.modCore s l f).rtOf x = hw.rtOf x := rfl
@[simp] theorem Hw.modQueue_sqOf (hw : Hw) (s l q : Nat) (f : Queue → Queue) (x : Nat) : (hw.modQueue s l q f).sqOf x = hw.sqOf x := rfl
@[simp] theorem Hw.modQueue_slotOf (hw : Hw) (s l q : Nat) (f : Queue → Queue) (x y : Nat) : (hw.modQueue s l q f).slotOf x y = hw.slotOf x y := rfl
@[simp] theorem Hw.modQueue_jobOf (hw : Hw) (s l q : Nat) (f : Queue → Queue) (x : Nat) : (hw.modQueue s l q f).jobOf x = hw.jobOf x := rfl
@[simp] theorem Hw.modQueue_linkOf (hw : Hw) (s l q : Nat) (f : Queue → Queue) (x : Nat) : (hw.modQueue s l q f).linkOf x = hw.linkOf x := rfl
@[simp] theorem Hw.modQueue_dmaOf (hw : Hw) (s l q : Nat) (f : Queue → Queue) (x : Nat) : (hw.modQueue s l q f).dmaOf x = hw.dmaOf x := rfl
@[simp] theorem Hw.modQueue_tcOf (hw : Hw) (s l q : Nat) (f : Queue → Queue) (x : Nat) : (hw.modQueue s l q f).tcOf x = hw.tcOf x := rfl
@[simp] theorem Hw.modQueue_csiOf (hw : Hw) (s l q : Nat) (f : Queue → Queue) (x : Nat) : (hw.modQueue s l q f).csiOf x = hw.csiOf x := rfl
@[simp] theorem Hw.modQueue_domOf (hw : Hw) (s l q : Nat) (f : Queue → Queue) (x : Nat) : (hw.modQueue s l q f).domOf x = hw.domOf x := rfl
@[simp] theorem Hw.modQueue_isOn (hw : Hw) (s l q : Nat) (f : Queue → Queue) (x : Nat) : (hw.modQueue s l q f).isOn x = hw.isOn x := rfl
@[simp] theorem Hw.modQueue_srcOf (hw : Hw) (s l q : Nat) (f : Queue → Queue) (x : Nat) : (hw.modQueue s l q f).srcOf x = hw.srcOf x := rfl
@[simp] theorem Hw.modQueue_grpOf (hw : Hw) (s l q : Nat) (f : Queue → Queue) (x : Nat) : (hw.modQueue s l q f).grpOf x = hw.grpOf x := rfl
@[simp] theorem Hw.modQueue_chanOf (hw : Hw) (s l q : Nat) (f : Queue → Queue) (x : Nat) : (hw.modQueue s l q f).chanOf x = hw.chanOf x := rfl
@[simp] theorem Hw.modQueue_portOf (hw : Hw) (s l q : Nat) (f : Queue → Queue) (x : Bool) : (hw.modQueue s l q f).portOf x = hw.portOf x := rfl
@[simp] theorem Hw.modQueue_rtOf (hw : Hw) (s l q : Nat) (f : Queue → Queue) (x : Nat) : (hw.modQueue s l q f).rtOf x = hw.rtOf x := rfl
@[simp] theorem Hw.modSend_sqOf (hw : Hw) (s l c : Nat) (f : SendCh → SendCh) (x : Nat) : (hw.modSend s l c f).sqOf x = hw.sqOf x := rfl
@[simp] theorem Hw.modSend_slotOf (hw : Hw) (s l c : Nat) (f : SendCh → SendCh) (x y : Nat) : (hw.modSend s l c f).slotOf x y = hw.slotOf x y := rfl
@[simp] theorem Hw.modSend_jobOf (hw : Hw) (s l c : Nat) (f : SendCh → SendCh) (x : Nat) : (hw.modSend s l c f).jobOf x = hw.jobOf x := rfl
@[simp] theorem Hw.modSend_linkOf (hw : Hw) (s l c : Nat) (f : SendCh → SendCh) (x : Nat) : (hw.modSend s l c f).linkOf x = hw.linkOf x := rfl
@[simp] theorem Hw.modSend_dmaOf (hw : Hw) (s l c : Nat) (f : SendCh → SendCh) (x : Nat) : (hw.modSend s l c f).dmaOf x = hw.dmaOf x := rfl
@[simp] theorem Hw.modSend_tcOf (hw : Hw) (s l c : Nat) (f : SendCh → SendCh) (x : Nat) : (hw.modSend s l c f).tcOf x = hw.tcOf x := rfl
@[simp] theorem Hw.modSend_csiOf (hw : Hw) (s l c : Nat) (f : SendCh → SendCh) (x : Nat) : (hw.modSend s l c f).csiOf x = hw.csiOf x := rfl
@[simp] theorem Hw.modSend_domOf (hw : Hw) (s l c : Nat) (f : SendCh → SendCh) (x : Nat) : (hw.modSend s l c f).domOf x = hw.domOf x := rfl
@[simp] theorem Hw.modSend_isOn (hw : Hw) (s l c : Nat) (f : SendCh → SendCh) (x : Nat) : (hw.modSend s l c f).isOn x = hw.isOn x := rfl
@[simp] theorem Hw.modSend_srcOf (hw : Hw) (s l c : Nat) (f : SendCh → SendCh) (x : Nat) : (hw.modSend s l c f).srcOf x = hw.srcOf x := rfl
@[simp] theorem Hw.modSend_grpOf (hw : Hw) (s l c : Nat) (f : SendCh → SendCh) (x : Nat) : (hw.modSend s l c f).grpOf x = hw.grpOf x := rfl
@[simp] theorem Hw.modSend_chanOf (hw : Hw) (s l c : Nat) (f : SendCh → SendCh) (x : Nat) : (hw.modSend s l c f).chanOf x = hw.chanOf x := rfl
@[simp] theorem Hw.modSend_portOf (hw : Hw) (s l c : Nat) (f : SendCh → SendCh) (x : Bool) : (hw.modSend s l c f).portOf x = hw.portOf x := rfl
@[simp] theorem Hw.modSend_rtOf (hw : Hw) (s l c : Nat) (f : SendCh → SendCh) (x : Nat) : (hw.modSend s l c f).rtOf x = hw.rtOf x := rfl
@[simp] theorem Hw.modCp_sqOf (hw : Hw) (s l : Nat) (f : Prog → Prog) (x : Nat) : (hw.modCp s l f).sqOf x = hw.sqOf x := rfl
@[simp] theorem Hw.modCp_slotOf (hw : Hw) (s l : Nat) (f : Prog → Prog) (x y : Nat) : (hw.modCp s l f).slotOf x y = hw.slotOf x y := rfl
@[simp] theorem Hw.modCp_jobOf (hw : Hw) (s l : Nat) (f : Prog → Prog) (x : Nat) : (hw.modCp s l f).jobOf x = hw.jobOf x := rfl
@[simp] theorem Hw.modCp_linkOf (hw : Hw) (s l : Nat) (f : Prog → Prog) (x : Nat) : (hw.modCp s l f).linkOf x = hw.linkOf x := rfl
@[simp] theorem Hw.modCp_dmaOf (hw : Hw) (s l : Nat) (f : Prog → Prog) (x : Nat) : (hw.modCp s l f).dmaOf x = hw.dmaOf x := rfl
@[simp] theorem Hw.modCp_tcOf (hw : Hw) (s l : Nat) (f : Prog → Prog) (x : Nat) : (hw.modCp s l f).tcOf x = hw.tcOf x := rfl
@[simp] theorem Hw.modCp_csiOf (hw : Hw) (s l : Nat) (f : Prog → Prog) (x : Nat) : (hw.modCp s l f).csiOf x = hw.csiOf x := rfl
@[simp] theorem Hw.modCp_domOf (hw : Hw) (s l : Nat) (f : Prog → Prog) (x : Nat) : (hw.modCp s l f).domOf x = hw.domOf x := rfl
@[simp] theorem Hw.modCp_isOn (hw : Hw) (s l : Nat) (f : Prog → Prog) (x : Nat) : (hw.modCp s l f).isOn x = hw.isOn x := rfl
@[simp] theorem Hw.modCp_srcOf (hw : Hw) (s l : Nat) (f : Prog → Prog) (x : Nat) : (hw.modCp s l f).srcOf x = hw.srcOf x := rfl
@[simp] theorem Hw.modCp_grpOf (hw : Hw) (s l : Nat) (f : Prog → Prog) (x : Nat) : (hw.modCp s l f).grpOf x = hw.grpOf x := rfl
@[simp] theorem Hw.modCp_chanOf (hw : Hw) (s l : Nat) (f : Prog → Prog) (x : Nat) : (hw.modCp s l f).chanOf x = hw.chanOf x := rfl
@[simp] theorem Hw.modCp_portOf (hw : Hw) (s l : Nat) (f : Prog → Prog) (x : Bool) : (hw.modCp s l f).portOf x = hw.portOf x := rfl
@[simp] theorem Hw.modCp_rtOf (hw : Hw) (s l : Nat) (f : Prog → Prog) (x : Nat) : (hw.modCp s l f).rtOf x = hw.rtOf x := rfl
@[simp] theorem Hw.modJob_sqOf (hw : Hw) (j : Nat) (f : Job → Job) (x : Nat) : (hw.modJob j f).sqOf x = hw.sqOf x := rfl
@[simp] theorem Hw.modJob_slotOf (hw : Hw) (j : Nat) (f : Job → Job) (x y : Nat) : (hw.modJob j f).slotOf x y = hw.slotOf x y := rfl
@[simp] theorem Hw.modJob_coreOf (hw : Hw) (j : Nat) (f : Job → Job) (x y : Nat) : (hw.modJob j f).coreOf x y = hw.coreOf x y := rfl
@[simp] theorem Hw.modJob_linkOf (hw : Hw) (j : Nat) (f : Job → Job) (x : Nat) : (hw.modJob j f).linkOf x = hw.linkOf x := rfl
@[simp] theorem Hw.modJob_dmaOf (hw : Hw) (j : Nat) (f : Job → Job) (x : Nat) : (hw.modJob j f).dmaOf x = hw.dmaOf x := rfl
@[simp] theorem Hw.modJob_tcOf (hw : Hw) (j : Nat) (f : Job → Job) (x : Nat) : (hw.modJob j f).tcOf x = hw.tcOf x := rfl
@[simp] theorem Hw.modJob_csiOf (hw : Hw) (j : Nat) (f : Job → Job) (x : Nat) : (hw.modJob j f).csiOf x = hw.csiOf x := rfl
@[simp] theorem Hw.modJob_domOf (hw : Hw) (j : Nat) (f : Job → Job) (x : Nat) : (hw.modJob j f).domOf x = hw.domOf x := rfl
@[simp] theorem Hw.modJob_isOn (hw : Hw) (j : Nat) (f : Job → Job) (x : Nat) : (hw.modJob j f).isOn x = hw.isOn x := rfl
@[simp] theorem Hw.modJob_srcOf (hw : Hw) (j : Nat) (f : Job → Job) (x : Nat) : (hw.modJob j f).srcOf x = hw.srcOf x := rfl
@[simp] theorem Hw.modJob_grpOf (hw : Hw) (j : Nat) (f : Job → Job) (x : Nat) : (hw.modJob j f).grpOf x = hw.grpOf x := rfl
@[simp] theorem Hw.modJob_chanOf (hw : Hw) (j : Nat) (f : Job → Job) (x : Nat) : (hw.modJob j f).chanOf x = hw.chanOf x := rfl
@[simp] theorem Hw.modJob_portOf (hw : Hw) (j : Nat) (f : Job → Job) (x : Bool) : (hw.modJob j f).portOf x = hw.portOf x := rfl
@[simp] theorem Hw.modJob_rtOf (hw : Hw) (j : Nat) (f : Job → Job) (x : Nat) : (hw.modJob j f).rtOf x = hw.rtOf x := rfl
@[simp] theorem Hw.modLink_sqOf (hw : Hw) (n : Nat) (f : Link → Link) (x : Nat) : (hw.modLink n f).sqOf x = hw.sqOf x := rfl
@[simp] theorem Hw.modLink_slotOf (hw : Hw) (n : Nat) (f : Link → Link) (x y : Nat) : (hw.modLink n f).slotOf x y = hw.slotOf x y := rfl
@[simp] theorem Hw.modLink_coreOf (hw : Hw) (n : Nat) (f : Link → Link) (x y : Nat) : (hw.modLink n f).coreOf x y = hw.coreOf x y := rfl
@[simp] theorem Hw.modLink_jobOf (hw : Hw) (n : Nat) (f : Link → Link) (x : Nat) : (hw.modLink n f).jobOf x = hw.jobOf x := rfl
@[simp] theorem Hw.modLink_dmaOf (hw : Hw) (n : Nat) (f : Link → Link) (x : Nat) : (hw.modLink n f).dmaOf x = hw.dmaOf x := rfl
@[simp] theorem Hw.modLink_tcOf (hw : Hw) (n : Nat) (f : Link → Link) (x : Nat) : (hw.modLink n f).tcOf x = hw.tcOf x := rfl
@[simp] theorem Hw.modLink_csiOf (hw : Hw) (n : Nat) (f : Link → Link) (x : Nat) : (hw.modLink n f).csiOf x = hw.csiOf x := rfl
@[simp] theorem Hw.modLink_domOf (hw : Hw) (n : Nat) (f : Link → Link) (x : Nat) : (hw.modLink n f).domOf x = hw.domOf x := rfl
@[simp] theorem Hw.modLink_isOn (hw : Hw) (n : Nat) (f : Link → Link) (x : Nat) : (hw.modLink n f).isOn x = hw.isOn x := rfl
@[simp] theorem Hw.modLink_srcOf (hw : Hw) (n : Nat) (f : Link → Link) (x : Nat) : (hw.modLink n f).srcOf x = hw.srcOf x := rfl
@[simp] theorem Hw.modLink_grpOf (hw : Hw) (n : Nat) (f : Link → Link) (x : Nat) : (hw.modLink n f).grpOf x = hw.grpOf x := rfl
@[simp] theorem Hw.modLink_chanOf (hw : Hw) (n : Nat) (f : Link → Link) (x : Nat) : (hw.modLink n f).chanOf x = hw.chanOf x := rfl
@[simp] theorem Hw.modLink_portOf (hw : Hw) (n : Nat) (f : Link → Link) (x : Bool) : (hw.modLink n f).portOf x = hw.portOf x := rfl
@[simp] theorem Hw.modLink_rtOf (hw : Hw) (n : Nat) (f : Link → Link) (x : Nat) : (hw.modLink n f).rtOf x = hw.rtOf x := rfl
@[simp] theorem Hw.modDma_sqOf (hw : Hw) (c : Nat) (f : Dma → Dma) (x : Nat) : (hw.modDma c f).sqOf x = hw.sqOf x := rfl
@[simp] theorem Hw.modDma_slotOf (hw : Hw) (c : Nat) (f : Dma → Dma) (x y : Nat) : (hw.modDma c f).slotOf x y = hw.slotOf x y := rfl
@[simp] theorem Hw.modDma_coreOf (hw : Hw) (c : Nat) (f : Dma → Dma) (x y : Nat) : (hw.modDma c f).coreOf x y = hw.coreOf x y := rfl
@[simp] theorem Hw.modDma_jobOf (hw : Hw) (c : Nat) (f : Dma → Dma) (x : Nat) : (hw.modDma c f).jobOf x = hw.jobOf x := rfl
@[simp] theorem Hw.modDma_linkOf (hw : Hw) (c : Nat) (f : Dma → Dma) (x : Nat) : (hw.modDma c f).linkOf x = hw.linkOf x := rfl
@[simp] theorem Hw.modDma_tcOf (hw : Hw) (c : Nat) (f : Dma → Dma) (x : Nat) : (hw.modDma c f).tcOf x = hw.tcOf x := rfl
@[simp] theorem Hw.modDma_csiOf (hw : Hw) (c : Nat) (f : Dma → Dma) (x : Nat) : (hw.modDma c f).csiOf x = hw.csiOf x := rfl
@[simp] theorem Hw.modDma_domOf (hw : Hw) (c : Nat) (f : Dma → Dma) (x : Nat) : (hw.modDma c f).domOf x = hw.domOf x := rfl
@[simp] theorem Hw.modDma_isOn (hw : Hw) (c : Nat) (f : Dma → Dma) (x : Nat) : (hw.modDma c f).isOn x = hw.isOn x := rfl
@[simp] theorem Hw.modDma_srcOf (hw : Hw) (c : Nat) (f : Dma → Dma) (x : Nat) : (hw.modDma c f).srcOf x = hw.srcOf x := rfl
@[simp] theorem Hw.modDma_grpOf (hw : Hw) (c : Nat) (f : Dma → Dma) (x : Nat) : (hw.modDma c f).grpOf x = hw.grpOf x := rfl
@[simp] theorem Hw.modDma_chanOf (hw : Hw) (c : Nat) (f : Dma → Dma) (x : Nat) : (hw.modDma c f).chanOf x = hw.chanOf x := rfl
@[simp] theorem Hw.modDma_portOf (hw : Hw) (c : Nat) (f : Dma → Dma) (x : Bool) : (hw.modDma c f).portOf x = hw.portOf x := rfl
@[simp] theorem Hw.modDma_rtOf (hw : Hw) (c : Nat) (f : Dma → Dma) (x : Nat) : (hw.modDma c f).rtOf x = hw.rtOf x := rfl
@[simp] theorem Hw.modTc_sqOf (hw : Hw) (n : Nat) (f : Tc → Tc) (x : Nat) : (hw.modTc n f).sqOf x = hw.sqOf x := rfl
@[simp] theorem Hw.modTc_slotOf (hw : Hw) (n : Nat) (f : Tc → Tc) (x y : Nat) : (hw.modTc n f).slotOf x y = hw.slotOf x y := rfl
@[simp] theorem Hw.modTc_coreOf (hw : Hw) (n : Nat) (f : Tc → Tc) (x y : Nat) : (hw.modTc n f).coreOf x y = hw.coreOf x y := rfl
@[simp] theorem Hw.modTc_jobOf (hw : Hw) (n : Nat) (f : Tc → Tc) (x : Nat) : (hw.modTc n f).jobOf x = hw.jobOf x := rfl
@[simp] theorem Hw.modTc_linkOf (hw : Hw) (n : Nat) (f : Tc → Tc) (x : Nat) : (hw.modTc n f).linkOf x = hw.linkOf x := rfl
@[simp] theorem Hw.modTc_dmaOf (hw : Hw) (n : Nat) (f : Tc → Tc) (x : Nat) : (hw.modTc n f).dmaOf x = hw.dmaOf x := rfl
@[simp] theorem Hw.modTc_csiOf (hw : Hw) (n : Nat) (f : Tc → Tc) (x : Nat) : (hw.modTc n f).csiOf x = hw.csiOf x := rfl
@[simp] theorem Hw.modTc_domOf (hw : Hw) (n : Nat) (f : Tc → Tc) (x : Nat) : (hw.modTc n f).domOf x = hw.domOf x := rfl
@[simp] theorem Hw.modTc_isOn (hw : Hw) (n : Nat) (f : Tc → Tc) (x : Nat) : (hw.modTc n f).isOn x = hw.isOn x := rfl
@[simp] theorem Hw.modTc_srcOf (hw : Hw) (n : Nat) (f : Tc → Tc) (x : Nat) : (hw.modTc n f).srcOf x = hw.srcOf x := rfl
@[simp] theorem Hw.modTc_grpOf (hw : Hw) (n : Nat) (f : Tc → Tc) (x : Nat) : (hw.modTc n f).grpOf x = hw.grpOf x := rfl
@[simp] theorem Hw.modTc_chanOf (hw : Hw) (n : Nat) (f : Tc → Tc) (x : Nat) : (hw.modTc n f).chanOf x = hw.chanOf x := rfl
@[simp] theorem Hw.modTc_portOf (hw : Hw) (n : Nat) (f : Tc → Tc) (x : Bool) : (hw.modTc n f).portOf x = hw.portOf x := rfl
@[simp] theorem Hw.modTc_rtOf (hw : Hw) (n : Nat) (f : Tc → Tc) (x : Nat) : (hw.modTc n f).rtOf x = hw.rtOf x := rfl
@[simp] theorem Hw.modCsi_sqOf (hw : Hw) (n : Nat) (f : CsiPort → CsiPort) (x : Nat) : (hw.modCsi n f).sqOf x = hw.sqOf x := rfl
@[simp] theorem Hw.modCsi_slotOf (hw : Hw) (n : Nat) (f : CsiPort → CsiPort) (x y : Nat) : (hw.modCsi n f).slotOf x y = hw.slotOf x y := rfl
@[simp] theorem Hw.modCsi_coreOf (hw : Hw) (n : Nat) (f : CsiPort → CsiPort) (x y : Nat) : (hw.modCsi n f).coreOf x y = hw.coreOf x y := rfl
@[simp] theorem Hw.modCsi_jobOf (hw : Hw) (n : Nat) (f : CsiPort → CsiPort) (x : Nat) : (hw.modCsi n f).jobOf x = hw.jobOf x := rfl
@[simp] theorem Hw.modCsi_linkOf (hw : Hw) (n : Nat) (f : CsiPort → CsiPort) (x : Nat) : (hw.modCsi n f).linkOf x = hw.linkOf x := rfl
@[simp] theorem Hw.modCsi_dmaOf (hw : Hw) (n : Nat) (f : CsiPort → CsiPort) (x : Nat) : (hw.modCsi n f).dmaOf x = hw.dmaOf x := rfl
@[simp] theorem Hw.modCsi_tcOf (hw : Hw) (n : Nat) (f : CsiPort → CsiPort) (x : Nat) : (hw.modCsi n f).tcOf x = hw.tcOf x := rfl
@[simp] theorem Hw.modCsi_domOf (hw : Hw) (n : Nat) (f : CsiPort → CsiPort) (x : Nat) : (hw.modCsi n f).domOf x = hw.domOf x := rfl
@[simp] theorem Hw.modCsi_isOn (hw : Hw) (n : Nat) (f : CsiPort → CsiPort) (x : Nat) : (hw.modCsi n f).isOn x = hw.isOn x := rfl
@[simp] theorem Hw.modCsi_srcOf (hw : Hw) (n : Nat) (f : CsiPort → CsiPort) (x : Nat) : (hw.modCsi n f).srcOf x = hw.srcOf x := rfl
@[simp] theorem Hw.modCsi_grpOf (hw : Hw) (n : Nat) (f : CsiPort → CsiPort) (x : Nat) : (hw.modCsi n f).grpOf x = hw.grpOf x := rfl
@[simp] theorem Hw.modCsi_chanOf (hw : Hw) (n : Nat) (f : CsiPort → CsiPort) (x : Nat) : (hw.modCsi n f).chanOf x = hw.chanOf x := rfl
@[simp] theorem Hw.modCsi_portOf (hw : Hw) (n : Nat) (f : CsiPort → CsiPort) (x : Bool) : (hw.modCsi n f).portOf x = hw.portOf x := rfl
@[simp] theorem Hw.modCsi_rtOf (hw : Hw) (n : Nat) (f : CsiPort → CsiPort) (x : Nat) : (hw.modCsi n f).rtOf x = hw.rtOf x := rfl
@[simp] theorem Hw.modDom_sqOf (hw : Hw) (d : Nat) (f : Domain → Domain) (x : Nat) : (hw.modDom d f).sqOf x = hw.sqOf x := rfl
@[simp] theorem Hw.modDom_slotOf (hw : Hw) (d : Nat) (f : Domain → Domain) (x y : Nat) : (hw.modDom d f).slotOf x y = hw.slotOf x y := rfl
@[simp] theorem Hw.modDom_coreOf (hw : Hw) (d : Nat) (f : Domain → Domain) (x y : Nat) : (hw.modDom d f).coreOf x y = hw.coreOf x y := rfl
@[simp] theorem Hw.modDom_jobOf (hw : Hw) (d : Nat) (f : Domain → Domain) (x : Nat) : (hw.modDom d f).jobOf x = hw.jobOf x := rfl
@[simp] theorem Hw.modDom_linkOf (hw : Hw) (d : Nat) (f : Domain → Domain) (x : Nat) : (hw.modDom d f).linkOf x = hw.linkOf x := rfl
@[simp] theorem Hw.modDom_dmaOf (hw : Hw) (d : Nat) (f : Domain → Domain) (x : Nat) : (hw.modDom d f).dmaOf x = hw.dmaOf x := rfl
@[simp] theorem Hw.modDom_tcOf (hw : Hw) (d : Nat) (f : Domain → Domain) (x : Nat) : (hw.modDom d f).tcOf x = hw.tcOf x := rfl
@[simp] theorem Hw.modDom_csiOf (hw : Hw) (d : Nat) (f : Domain → Domain) (x : Nat) : (hw.modDom d f).csiOf x = hw.csiOf x := rfl
@[simp] theorem Hw.modDom_srcOf (hw : Hw) (d : Nat) (f : Domain → Domain) (x : Nat) : (hw.modDom d f).srcOf x = hw.srcOf x := rfl
@[simp] theorem Hw.modDom_grpOf (hw : Hw) (d : Nat) (f : Domain → Domain) (x : Nat) : (hw.modDom d f).grpOf x = hw.grpOf x := rfl
@[simp] theorem Hw.modDom_chanOf (hw : Hw) (d : Nat) (f : Domain → Domain) (x : Nat) : (hw.modDom d f).chanOf x = hw.chanOf x := rfl
@[simp] theorem Hw.modDom_portOf (hw : Hw) (d : Nat) (f : Domain → Domain) (x : Bool) : (hw.modDom d f).portOf x = hw.portOf x := rfl
@[simp] theorem Hw.modDom_rtOf (hw : Hw) (d : Nat) (f : Domain → Domain) (x : Nat) : (hw.modDom d f).rtOf x = hw.rtOf x := rfl
@[simp] theorem Hw.modSrc_sqOf (hw : Hw) (n : Nat) (f : IrcSrc → IrcSrc) (x : Nat) : (hw.modSrc n f).sqOf x = hw.sqOf x := rfl
@[simp] theorem Hw.modSrc_slotOf (hw : Hw) (n : Nat) (f : IrcSrc → IrcSrc) (x y : Nat) : (hw.modSrc n f).slotOf x y = hw.slotOf x y := rfl
@[simp] theorem Hw.modSrc_coreOf (hw : Hw) (n : Nat) (f : IrcSrc → IrcSrc) (x y : Nat) : (hw.modSrc n f).coreOf x y = hw.coreOf x y := rfl
@[simp] theorem Hw.modSrc_jobOf (hw : Hw) (n : Nat) (f : IrcSrc → IrcSrc) (x : Nat) : (hw.modSrc n f).jobOf x = hw.jobOf x := rfl
@[simp] theorem Hw.modSrc_linkOf (hw : Hw) (n : Nat) (f : IrcSrc → IrcSrc) (x : Nat) : (hw.modSrc n f).linkOf x = hw.linkOf x := rfl
@[simp] theorem Hw.modSrc_dmaOf (hw : Hw) (n : Nat) (f : IrcSrc → IrcSrc) (x : Nat) : (hw.modSrc n f).dmaOf x = hw.dmaOf x := rfl
@[simp] theorem Hw.modSrc_tcOf (hw : Hw) (n : Nat) (f : IrcSrc → IrcSrc) (x : Nat) : (hw.modSrc n f).tcOf x = hw.tcOf x := rfl
@[simp] theorem Hw.modSrc_csiOf (hw : Hw) (n : Nat) (f : IrcSrc → IrcSrc) (x : Nat) : (hw.modSrc n f).csiOf x = hw.csiOf x := rfl
@[simp] theorem Hw.modSrc_domOf (hw : Hw) (n : Nat) (f : IrcSrc → IrcSrc) (x : Nat) : (hw.modSrc n f).domOf x = hw.domOf x := rfl
@[simp] theorem Hw.modSrc_isOn (hw : Hw) (n : Nat) (f : IrcSrc → IrcSrc) (x : Nat) : (hw.modSrc n f).isOn x = hw.isOn x := rfl
@[simp] theorem Hw.modSrc_chanOf (hw : Hw) (n : Nat) (f : IrcSrc → IrcSrc) (x : Nat) : (hw.modSrc n f).chanOf x = hw.chanOf x := rfl
@[simp] theorem Hw.modSrc_portOf (hw : Hw) (n : Nat) (f : IrcSrc → IrcSrc) (x : Bool) : (hw.modSrc n f).portOf x = hw.portOf x := rfl
@[simp] theorem Hw.modSrc_rtOf (hw : Hw) (n : Nat) (f : IrcSrc → IrcSrc) (x : Nat) : (hw.modSrc n f).rtOf x = hw.rtOf x := rfl
@[simp] theorem Hw.modGrp_sqOf (hw : Hw) (g : Nat) (f : IrcGrp → IrcGrp) (x : Nat) : (hw.modGrp g f).sqOf x = hw.sqOf x := rfl
@[simp] theorem Hw.modGrp_slotOf (hw : Hw) (g : Nat) (f : IrcGrp → IrcGrp) (x y : Nat) : (hw.modGrp g f).slotOf x y = hw.slotOf x y := rfl
@[simp] theorem Hw.modGrp_coreOf (hw : Hw) (g : Nat) (f : IrcGrp → IrcGrp) (x y : Nat) : (hw.modGrp g f).coreOf x y = hw.coreOf x y := rfl
@[simp] theorem Hw.modGrp_jobOf (hw : Hw) (g : Nat) (f : IrcGrp → IrcGrp) (x : Nat) : (hw.modGrp g f).jobOf x = hw.jobOf x := rfl
@[simp] theorem Hw.modGrp_linkOf (hw : Hw) (g : Nat) (f : IrcGrp → IrcGrp) (x : Nat) : (hw.modGrp g f).linkOf x = hw.linkOf x := rfl
@[simp] theorem Hw.modGrp_dmaOf (hw : Hw) (g : Nat) (f : IrcGrp → IrcGrp) (x : Nat) : (hw.modGrp g f).dmaOf x = hw.dmaOf x := rfl
@[simp] theorem Hw.modGrp_tcOf (hw : Hw) (g : Nat) (f : IrcGrp → IrcGrp) (x : Nat) : (hw.modGrp g f).tcOf x = hw.tcOf x := rfl
@[simp] theorem Hw.modGrp_csiOf (hw : Hw) (g : Nat) (f : IrcGrp → IrcGrp) (x : Nat) : (hw.modGrp g f).csiOf x = hw.csiOf x := rfl
@[simp] theorem Hw.modGrp_domOf (hw : Hw) (g : Nat) (f : IrcGrp → IrcGrp) (x : Nat) : (hw.modGrp g f).domOf x = hw.domOf x := rfl
@[simp] theorem Hw.modGrp_isOn (hw : Hw) (g : Nat) (f : IrcGrp → IrcGrp) (x : Nat) : (hw.modGrp g f).isOn x = hw.isOn x := rfl
@[simp] theorem Hw.modGrp_chanOf (hw : Hw) (g : Nat) (f : IrcGrp → IrcGrp) (x : Nat) : (hw.modGrp g f).chanOf x = hw.chanOf x := rfl
@[simp] theorem Hw.modGrp_portOf (hw : Hw) (g : Nat) (f : IrcGrp → IrcGrp) (x : Bool) : (hw.modGrp g f).portOf x = hw.portOf x := rfl
@[simp] theorem Hw.modGrp_rtOf (hw : Hw) (g : Nat) (f : IrcGrp → IrcGrp) (x : Nat) : (hw.modGrp g f).rtOf x = hw.rtOf x := rfl
@[simp] theorem Hw.modChan_sqOf (hw : Hw) (k : Nat) (f : PscChan → PscChan) (x : Nat) : (hw.modChan k f).sqOf x = hw.sqOf x := rfl
@[simp] theorem Hw.modChan_slotOf (hw : Hw) (k : Nat) (f : PscChan → PscChan) (x y : Nat) : (hw.modChan k f).slotOf x y = hw.slotOf x y := rfl
@[simp] theorem Hw.modChan_coreOf (hw : Hw) (k : Nat) (f : PscChan → PscChan) (x y : Nat) : (hw.modChan k f).coreOf x y = hw.coreOf x y := rfl
@[simp] theorem Hw.modChan_jobOf (hw : Hw) (k : Nat) (f : PscChan → PscChan) (x : Nat) : (hw.modChan k f).jobOf x = hw.jobOf x := rfl
@[simp] theorem Hw.modChan_linkOf (hw : Hw) (k : Nat) (f : PscChan → PscChan) (x : Nat) : (hw.modChan k f).linkOf x = hw.linkOf x := rfl
@[simp] theorem Hw.modChan_dmaOf (hw : Hw) (k : Nat) (f : PscChan → PscChan) (x : Nat) : (hw.modChan k f).dmaOf x = hw.dmaOf x := rfl
@[simp] theorem Hw.modChan_tcOf (hw : Hw) (k : Nat) (f : PscChan → PscChan) (x : Nat) : (hw.modChan k f).tcOf x = hw.tcOf x := rfl
@[simp] theorem Hw.modChan_csiOf (hw : Hw) (k : Nat) (f : PscChan → PscChan) (x : Nat) : (hw.modChan k f).csiOf x = hw.csiOf x := rfl
@[simp] theorem Hw.modChan_domOf (hw : Hw) (k : Nat) (f : PscChan → PscChan) (x : Nat) : (hw.modChan k f).domOf x = hw.domOf x := rfl
@[simp] theorem Hw.modChan_isOn (hw : Hw) (k : Nat) (f : PscChan → PscChan) (x : Nat) : (hw.modChan k f).isOn x = hw.isOn x := rfl
@[simp] theorem Hw.modChan_srcOf (hw : Hw) (k : Nat) (f : PscChan → PscChan) (x : Nat) : (hw.modChan k f).srcOf x = hw.srcOf x := rfl
@[simp] theorem Hw.modChan_grpOf (hw : Hw) (k : Nat) (f : PscChan → PscChan) (x : Nat) : (hw.modChan k f).grpOf x = hw.grpOf x := rfl
@[simp] theorem Hw.modChan_portOf (hw : Hw) (k : Nat) (f : PscChan → PscChan) (x : Bool) : (hw.modChan k f).portOf x = hw.portOf x := rfl
@[simp] theorem Hw.modChan_rtOf (hw : Hw) (k : Nat) (f : PscChan → PscChan) (x : Nat) : (hw.modChan k f).rtOf x = hw.rtOf x := rfl
@[simp] theorem Hw.modPort_sqOf (hw : Hw) (p : Bool) (f : Port → Port) (x : Nat) : (hw.modPort p f).sqOf x = hw.sqOf x := by cases p <;> rfl
@[simp] theorem Hw.modPort_slotOf (hw : Hw) (p : Bool) (f : Port → Port) (x y : Nat) : (hw.modPort p f).slotOf x y = hw.slotOf x y := by cases p <;> rfl
@[simp] theorem Hw.modPort_coreOf (hw : Hw) (p : Bool) (f : Port → Port) (x y : Nat) : (hw.modPort p f).coreOf x y = hw.coreOf x y := by cases p <;> rfl
@[simp] theorem Hw.modPort_jobOf (hw : Hw) (p : Bool) (f : Port → Port) (x : Nat) : (hw.modPort p f).jobOf x = hw.jobOf x := by cases p <;> rfl
@[simp] theorem Hw.modPort_linkOf (hw : Hw) (p : Bool) (f : Port → Port) (x : Nat) : (hw.modPort p f).linkOf x = hw.linkOf x := by cases p <;> rfl
@[simp] theorem Hw.modPort_dmaOf (hw : Hw) (p : Bool) (f : Port → Port) (x : Nat) : (hw.modPort p f).dmaOf x = hw.dmaOf x := by cases p <;> rfl
@[simp] theorem Hw.modPort_tcOf (hw : Hw) (p : Bool) (f : Port → Port) (x : Nat) : (hw.modPort p f).tcOf x = hw.tcOf x := by cases p <;> rfl
@[simp] theorem Hw.modPort_csiOf (hw : Hw) (p : Bool) (f : Port → Port) (x : Nat) : (hw.modPort p f).csiOf x = hw.csiOf x := by cases p <;> rfl
@[simp] theorem Hw.modPort_domOf (hw : Hw) (p : Bool) (f : Port → Port) (x : Nat) : (hw.modPort p f).domOf x = hw.domOf x := by cases p <;> rfl
@[simp] theorem Hw.modPort_isOn (hw : Hw) (p : Bool) (f : Port → Port) (x : Nat) : (hw.modPort p f).isOn x = hw.isOn x := by cases p <;> rfl
@[simp] theorem Hw.modPort_srcOf (hw : Hw) (p : Bool) (f : Port → Port) (x : Nat) : (hw.modPort p f).srcOf x = hw.srcOf x := by cases p <;> rfl
@[simp] theorem Hw.modPort_grpOf (hw : Hw) (p : Bool) (f : Port → Port) (x : Nat) : (hw.modPort p f).grpOf x = hw.grpOf x := by cases p <;> rfl
@[simp] theorem Hw.modPort_chanOf (hw : Hw) (p : Bool) (f : Port → Port) (x : Nat) : (hw.modPort p f).chanOf x = hw.chanOf x := by cases p <;> rfl
@[simp] theorem Hw.modPort_rtOf (hw : Hw) (p : Bool) (f : Port → Port) (x : Nat) : (hw.modPort p f).rtOf x = hw.rtOf x := by cases p <;> rfl
@[simp] theorem Hw.answer_sqOf (hw : Hw) (v st : Nat) (x : Nat) : (hw.answer v st).sqOf x = hw.sqOf x := rfl
@[simp] theorem Hw.answer_slotOf (hw : Hw) (v st : Nat) (x y : Nat) : (hw.answer v st).slotOf x y = hw.slotOf x y := rfl
@[simp] theorem Hw.answer_coreOf (hw : Hw) (v st : Nat) (x y : Nat) : (hw.answer v st).coreOf x y = hw.coreOf x y := rfl
@[simp] theorem Hw.answer_jobOf (hw : Hw) (v st : Nat) (x : Nat) : (hw.answer v st).jobOf x = hw.jobOf x := rfl
@[simp] theorem Hw.answer_linkOf (hw : Hw) (v st : Nat) (x : Nat) : (hw.answer v st).linkOf x = hw.linkOf x := rfl
@[simp] theorem Hw.answer_dmaOf (hw : Hw) (v st : Nat) (x : Nat) : (hw.answer v st).dmaOf x = hw.dmaOf x := rfl
@[simp] theorem Hw.answer_tcOf (hw : Hw) (v st : Nat) (x : Nat) : (hw.answer v st).tcOf x = hw.tcOf x := rfl
@[simp] theorem Hw.answer_csiOf (hw : Hw) (v st : Nat) (x : Nat) : (hw.answer v st).csiOf x = hw.csiOf x := rfl
@[simp] theorem Hw.answer_domOf (hw : Hw) (v st : Nat) (x : Nat) : (hw.answer v st).domOf x = hw.domOf x := rfl
@[simp] theorem Hw.answer_isOn (hw : Hw) (v st : Nat) (x : Nat) : (hw.answer v st).isOn x = hw.isOn x := rfl
@[simp] theorem Hw.answer_srcOf (hw : Hw) (v st : Nat) (x : Nat) : (hw.answer v st).srcOf x = hw.srcOf x := rfl
@[simp] theorem Hw.answer_grpOf (hw : Hw) (v st : Nat) (x : Nat) : (hw.answer v st).grpOf x = hw.grpOf x := rfl
@[simp] theorem Hw.answer_chanOf (hw : Hw) (v st : Nat) (x : Nat) : (hw.answer v st).chanOf x = hw.chanOf x := rfl
@[simp] theorem Hw.answer_portOf (hw : Hw) (v st : Nat) (x : Bool) : (hw.answer v st).portOf x = hw.portOf x := rfl
@[simp] theorem Hw.answer_rtOf (hw : Hw) (v st : Nat) (x : Nat) : (hw.answer v st).rtOf x = hw.rtOf x := rfl
@[simp] theorem Hw.wr_sqOf (hw : Hw) (a : Nat) (bs : List Byte) (x : Nat) : (hw.wr a bs).sqOf x = hw.sqOf x := rfl
@[simp] theorem Hw.wr_slotOf (hw : Hw) (a : Nat) (bs : List Byte) (x y : Nat) : (hw.wr a bs).slotOf x y = hw.slotOf x y := rfl
@[simp] theorem Hw.wr_coreOf (hw : Hw) (a : Nat) (bs : List Byte) (x y : Nat) : (hw.wr a bs).coreOf x y = hw.coreOf x y := rfl
@[simp] theorem Hw.wr_jobOf (hw : Hw) (a : Nat) (bs : List Byte) (x : Nat) : (hw.wr a bs).jobOf x = hw.jobOf x := rfl
@[simp] theorem Hw.wr_linkOf (hw : Hw) (a : Nat) (bs : List Byte) (x : Nat) : (hw.wr a bs).linkOf x = hw.linkOf x := rfl
@[simp] theorem Hw.wr_dmaOf (hw : Hw) (a : Nat) (bs : List Byte) (x : Nat) : (hw.wr a bs).dmaOf x = hw.dmaOf x := rfl
@[simp] theorem Hw.wr_tcOf (hw : Hw) (a : Nat) (bs : List Byte) (x : Nat) : (hw.wr a bs).tcOf x = hw.tcOf x := rfl
@[simp] theorem Hw.wr_csiOf (hw : Hw) (a : Nat) (bs : List Byte) (x : Nat) : (hw.wr a bs).csiOf x = hw.csiOf x := rfl
@[simp] theorem Hw.wr_domOf (hw : Hw) (a : Nat) (bs : List Byte) (x : Nat) : (hw.wr a bs).domOf x = hw.domOf x := rfl
@[simp] theorem Hw.wr_isOn (hw : Hw) (a : Nat) (bs : List Byte) (x : Nat) : (hw.wr a bs).isOn x = hw.isOn x := rfl
@[simp] theorem Hw.wr_srcOf (hw : Hw) (a : Nat) (bs : List Byte) (x : Nat) : (hw.wr a bs).srcOf x = hw.srcOf x := rfl
@[simp] theorem Hw.wr_grpOf (hw : Hw) (a : Nat) (bs : List Byte) (x : Nat) : (hw.wr a bs).grpOf x = hw.grpOf x := rfl
@[simp] theorem Hw.wr_chanOf (hw : Hw) (a : Nat) (bs : List Byte) (x : Nat) : (hw.wr a bs).chanOf x = hw.chanOf x := rfl
@[simp] theorem Hw.wr_portOf (hw : Hw) (a : Nat) (bs : List Byte) (x : Bool) : (hw.wr a bs).portOf x = hw.portOf x := rfl
@[simp] theorem Hw.wr_rtOf (hw : Hw) (a : Nat) (bs : List Byte) (x : Nat) : (hw.wr a bs).rtOf x = hw.rtOf x := rfl
@[simp] theorem Hw.rise_sqOf (hw : Hw) (w : W1c) (m : Nat) (x : Nat) : (hw.rise w m).sqOf x = hw.sqOf x := rfl
@[simp] theorem Hw.rise_slotOf (hw : Hw) (w : W1c) (m : Nat) (x y : Nat) : (hw.rise w m).slotOf x y = hw.slotOf x y := rfl
@[simp] theorem Hw.rise_coreOf (hw : Hw) (w : W1c) (m : Nat) (x y : Nat) : (hw.rise w m).coreOf x y = hw.coreOf x y := rfl
@[simp] theorem Hw.rise_jobOf (hw : Hw) (w : W1c) (m : Nat) (x : Nat) : (hw.rise w m).jobOf x = hw.jobOf x := rfl
@[simp] theorem Hw.rise_linkOf (hw : Hw) (w : W1c) (m : Nat) (x : Nat) : (hw.rise w m).linkOf x = hw.linkOf x := rfl
@[simp] theorem Hw.rise_dmaOf (hw : Hw) (w : W1c) (m : Nat) (x : Nat) : (hw.rise w m).dmaOf x = hw.dmaOf x := rfl
@[simp] theorem Hw.rise_tcOf (hw : Hw) (w : W1c) (m : Nat) (x : Nat) : (hw.rise w m).tcOf x = hw.tcOf x := rfl
@[simp] theorem Hw.rise_csiOf (hw : Hw) (w : W1c) (m : Nat) (x : Nat) : (hw.rise w m).csiOf x = hw.csiOf x := rfl
@[simp] theorem Hw.rise_domOf (hw : Hw) (w : W1c) (m : Nat) (x : Nat) : (hw.rise w m).domOf x = hw.domOf x := rfl
@[simp] theorem Hw.rise_isOn (hw : Hw) (w : W1c) (m : Nat) (x : Nat) : (hw.rise w m).isOn x = hw.isOn x := rfl
@[simp] theorem Hw.rise_srcOf (hw : Hw) (w : W1c) (m : Nat) (x : Nat) : (hw.rise w m).srcOf x = hw.srcOf x := rfl
@[simp] theorem Hw.rise_grpOf (hw : Hw) (w : W1c) (m : Nat) (x : Nat) : (hw.rise w m).grpOf x = hw.grpOf x := rfl
@[simp] theorem Hw.rise_chanOf (hw : Hw) (w : W1c) (m : Nat) (x : Nat) : (hw.rise w m).chanOf x = hw.chanOf x := rfl
@[simp] theorem Hw.rise_portOf (hw : Hw) (w : W1c) (m : Nat) (x : Bool) : (hw.rise w m).portOf x = hw.portOf x := rfl
@[simp] theorem Hw.rise_rtOf (hw : Hw) (w : W1c) (m : Nat) (x : Nat) : (hw.rise w m).rtOf x = hw.rtOf x := rfl

/-! ### Each accessor after its own update. -/

@[simp] theorem Hw.modSq_sqOf_same (hw : Hw) (s : Nat) (f : Square → Square) : (hw.modSq s f).sqOf s = f (hw.sqOf s) := by
  simp [Hw.modSq, Hw.sqOf]
theorem Hw.modSq_sqOf_ne (hw : Hw) {s j : Nat} (f : Square → Square) (h : j ≠ s) : (hw.modSq s f).sqOf j = hw.sqOf j := by
  simp [Hw.modSq, Hw.sqOf, mget_mupd_ne _ _ _ h]
@[simp] theorem Hw.modJob_jobOf_same (hw : Hw) (i : Nat) (f : Job → Job) : (hw.modJob i f).jobOf i = f (hw.jobOf i) := by
  simp [Hw.modJob, Hw.jobOf]
theorem Hw.modJob_jobOf_ne (hw : Hw) {i j : Nat} (f : Job → Job) (h : j ≠ i) : (hw.modJob i f).jobOf j = hw.jobOf j := by
  simp [Hw.modJob, Hw.jobOf, mget_mupd_ne _ _ _ h]
@[simp] theorem Hw.modLink_linkOf_same (hw : Hw) (n : Nat) (f : Link → Link) : (hw.modLink n f).linkOf n = f (hw.linkOf n) := by
  simp [Hw.modLink, Hw.linkOf]
theorem Hw.modLink_linkOf_ne (hw : Hw) {n j : Nat} (f : Link → Link) (h : j ≠ n) : (hw.modLink n f).linkOf j = hw.linkOf j := by
  simp [Hw.modLink, Hw.linkOf, mget_mupd_ne _ _ _ h]
@[simp] theorem Hw.modDma_dmaOf_same (hw : Hw) (c : Nat) (f : Dma → Dma) : (hw.modDma c f).dmaOf c = f (hw.dmaOf c) := by
  simp [Hw.modDma, Hw.dmaOf]
theorem Hw.modDma_dmaOf_ne (hw : Hw) {c j : Nat} (f : Dma → Dma) (h : j ≠ c) : (hw.modDma c f).dmaOf j = hw.dmaOf j := by
  simp [Hw.modDma, Hw.dmaOf, mget_mupd_ne _ _ _ h]
@[simp] theorem Hw.modTc_tcOf_same (hw : Hw) (n : Nat) (f : Tc → Tc) : (hw.modTc n f).tcOf n = f (hw.tcOf n) := by
  simp [Hw.modTc, Hw.tcOf]
theorem Hw.modTc_tcOf_ne (hw : Hw) {n j : Nat} (f : Tc → Tc) (h : j ≠ n) : (hw.modTc n f).tcOf j = hw.tcOf j := by
  simp [Hw.modTc, Hw.tcOf, mget_mupd_ne _ _ _ h]
@[simp] theorem Hw.modCsi_csiOf_same (hw : Hw) (n : Nat) (f : CsiPort → CsiPort) : (hw.modCsi n f).csiOf n = f (hw.csiOf n) := by
  simp [Hw.modCsi, Hw.csiOf]
theorem Hw.modCsi_csiOf_ne (hw : Hw) {n j : Nat} (f : CsiPort → CsiPort) (h : j ≠ n) : (hw.modCsi n f).csiOf j = hw.csiOf j := by
  simp [Hw.modCsi, Hw.csiOf, mget_mupd_ne _ _ _ h]
@[simp] theorem Hw.modDom_domOf_same (hw : Hw) (d : Nat) (f : Domain → Domain) : (hw.modDom d f).domOf d = f (hw.domOf d) := by
  simp [Hw.modDom, Hw.domOf]
theorem Hw.modDom_domOf_ne (hw : Hw) {d j : Nat} (f : Domain → Domain) (h : j ≠ d) : (hw.modDom d f).domOf j = hw.domOf j := by
  simp [Hw.modDom, Hw.domOf, mget_mupd_ne _ _ _ h]
@[simp] theorem Hw.modSrc_srcOf_same (hw : Hw) (n : Nat) (f : IrcSrc → IrcSrc) : (hw.modSrc n f).srcOf n = f (hw.srcOf n) := by
  simp [Hw.modSrc, Hw.srcOf]
theorem Hw.modSrc_srcOf_ne (hw : Hw) {n j : Nat} (f : IrcSrc → IrcSrc) (h : j ≠ n) : (hw.modSrc n f).srcOf j = hw.srcOf j := by
  simp [Hw.modSrc, Hw.srcOf, mget_mupd_ne _ _ _ h]
@[simp] theorem Hw.modGrp_grpOf_same (hw : Hw) (g : Nat) (f : IrcGrp → IrcGrp) : (hw.modGrp g f).grpOf g = f (hw.grpOf g) := by
  simp [Hw.modGrp, Hw.grpOf]
theorem Hw.modGrp_grpOf_ne (hw : Hw) {g j : Nat} (f : IrcGrp → IrcGrp) (h : j ≠ g) : (hw.modGrp g f).grpOf j = hw.grpOf j := by
  simp [Hw.modGrp, Hw.grpOf, mget_mupd_ne _ _ _ h]
@[simp] theorem Hw.modChan_chanOf_same (hw : Hw) (k : Nat) (f : PscChan → PscChan) : (hw.modChan k f).chanOf k = f (hw.chanOf k) := by
  simp [Hw.modChan, Hw.chanOf]
theorem Hw.modChan_chanOf_ne (hw : Hw) {k j : Nat} (f : PscChan → PscChan) (h : j ≠ k) : (hw.modChan k f).chanOf j = hw.chanOf j := by
  simp [Hw.modChan, Hw.chanOf, mget_mupd_ne _ _ _ h]
@[simp] theorem Hw.modSlot_slotOf_same (hw : Hw) (s p : Nat) (f : Slot → Slot) : (hw.modSlot s p f).slotOf s p = f (hw.slotOf s p) := by
  simp [Hw.modSlot, Hw.slotOf]
@[simp] theorem Hw.modCore_coreOf_same (hw : Hw) (s l : Nat) (f : LCore → LCore) : (hw.modCore s l f).coreOf s l = f (hw.coreOf s l) := by
  simp [Hw.modCore, Hw.coreOf]
@[simp] theorem Hw.modQueue_queueOf_same (hw : Hw) (s l q : Nat) (f : Queue → Queue) :
    (hw.modQueue s l q f).queueOf s l q = f (hw.queueOf s l q) := by
  simp [Hw.modQueue, Hw.queueOf, LCore.queueOf]
@[simp] theorem Hw.modSend_sendOf_same (hw : Hw) (s l c : Nat) (f : SendCh → SendCh) :
    (hw.modSend s l c f).sendOf s l c = f (hw.sendOf s l c) := by
  simp [Hw.modSend, Hw.sendOf, LCore.sendOf]
@[simp] theorem Hw.modCp_cpOf_same (hw : Hw) (s l : Nat) (f : Prog → Prog) : (hw.modCp s l f).cpOf s l = f (hw.cpOf s l) := by
  simp [Hw.modCp, Hw.cpOf]
@[simp] theorem Hw.modRt_rtOf_same (hw : Hw) (s : Nat) (f : Router → Router) : (hw.modRt s f).rtOf s = f (hw.rtOf s) := by
  simp [Hw.modRt, Hw.rtOf]
@[simp] theorem Hw.modPort_portOf_same (hw : Hw) (p : Bool) (f : Port → Port) : (hw.modPort p f).portOf p = f (hw.portOf p) := by
  cases p <;> rfl
@[simp] theorem Hw.modPort_portOf_other (hw : Hw) (p : Bool) (f : Port → Port) : (hw.modPort p f).portOf (!p) = hw.portOf (!p) := by
  cases p <;> rfl
@[simp] theorem Hw.answer_bus (hw : Hw) (v st : Nat) : (hw.answer v st).bus = ⟨v, st⟩ := rfl
@[simp] theorem Hw.wr_mem (hw : Hw) (a : Nat) (bs : List Byte) : (hw.wr a bs).banks.mem = memWriteN hw.banks.mem a bs := rfl
@[simp] theorem Hw.wipe_mem (hw : Hw) (a n : Nat) : (hw.wipe a n).banks.mem = memClear hw.banks.mem a n := rfl
@[simp] theorem Hw.unpoison_mem (hw : Hw) (a n : Nat) : (hw.unpoison a n).banks.mem = hw.banks.mem := rfl

end Sys2Proof.Machine
end

