-- ==== Sys2Proof/Laws/Bus.lean ====
section
/-! SUPPORT. Laws of register accesses: what an address names, and what a served write or read does. -/

namespace Sys2Proof.Machine

theorem regPlace_block {n off : Nat} (hn : n < 16) (ho : off < 0x10000) : regPlace (blockBase n + off) = .block n off := by
  have h1 : ¬(blockBase n + off < 0x100000000) := by unfold blockBase; omega
  have h2 : 0x200000000 ≤ blockBase n + off ∧ blockBase n + off < 0x200100000 := by unfold blockBase; omega
  have h3 : (blockBase n + off - 0x200000000) / 0x10000 = n := by unfold blockBase; omega
  have h4 : (blockBase n + off) % 0x10000 = off := by unfold blockBase; omega
  simp only [regPlace, h1, h2, h3, h4, if_false, if_true, and_self]

theorem regPlace_sq {s off : Nat} (hs : s < 64) (ho : off < 0x4000000) (hr : regionOf off = .reg) :
    regPlace (sqAddr s off) = .sq s off := by
  have h1 : sqAddr s off < 0x100000000 := by unfold sqAddr; omega
  have h3 : sqAddr s off / 0x4000000 = s := by unfold sqAddr; omega
  have h4 : sqAddr s off % 0x4000000 = off := by unfold sqAddr; omega
  simp only [regPlace, h1, h3, h4, hr, if_true]

/-- A served 32-bit write of a register that is no half of a 64-bit one. -/
theorem Hw.doWrite_served (hw : Hw) (ini : Initiator) {a v : Nat} (hg : hw.regGate a true = .serve) (ha : hw.absentReg a = false)
    (h0 : hw.reg64 a = none) (h4 : a % 8 = 4 → hw.reg64 (a - 4) = none) :
    hw.doWrite ini a v = (hw.regWrite ini a (v % 2 ^ 32)).1.answer 0 (hw.regWrite ini a (v % 2 ^ 32)).2 := by
  have h5 : (if a % 8 = 4 then hw.reg64 (a - 4) else none) = none := by
    by_cases h : a % 8 = 4
    · rw [if_pos h]; exact h4 h
    · rw [if_neg h]
  simp [doWrite, hg, h0, serveWrite, busWrite4, ha, h5]

/-- A served 64-bit write of a 64-bit register. -/
theorem Hw.doWrite_wide (hw : Hw) (ini : Initiator) {a v x : Nat} (hg : hw.regGate a true = .serve) (ha : hw.absentReg a = false)
    (h0 : hw.reg64 a = some x) : hw.doWrite ini a v true = (hw.regSet64 a v).1.answer 0 (hw.regSet64 a v).2 := by
  simp [doWrite, hg, serveWrite, busWrite8, ha, h0]

/-- A square that serves lets a register access through. -/
theorem Hw.sqGate_serves {hw : Hw} {s : Nat} (h : hw.sqServes s) (off : Nat) (w : Bool) : hw.sqGate s off w = .serve := by
  obtain ⟨h1, h2, h3, h4, h5⟩ := h
  have h6 : ((hw.sqOf s).rt.state == .absent) = false := by rcases h4 with h | h <;> rw [h] <;> rfl
  have h7 : ((hw.sqOf s).rt.state == .sink) = false := by rcases h4 with h | h <;> rw [h] <;> rfl
  simp [sqGate, h1, h2, h3, h6, h7, domGate, h5]

/-- A block that needs no power domain, or whose domain is ON, serves an access. -/
theorem Hw.regGate_block {hw : Hw} {n off : Nat} (hn : n < 16) (ho : off < 0x10000) (w : Bool)
    (hd : ∀ d, blockDomain n off = some d → hw.isOn d = true) : hw.regGate (blockBase n + off) w = .serve := by
  simp only [regGate, regPlace_block hn ho]
  split
  · rfl
  · cases h : blockDomain n off with
    | none => rfl
    | some d => simp [domGate, hd d h]

theorem Hw.regGate_sq {hw : Hw} {s off : Nat} (hs : s < 64) (ho : off < 0x4000000) (hr : regionOf off = .reg) (w : Bool) :
    hw.regGate (sqAddr s off) w = hw.sqGate s off w := by
  simp only [regGate, regPlace_sq hs ho hr]

theorem Hw.absentReg_block (hw : Hw) {n off : Nat} (hn : n < 16) (ho : off < 0x10000) :
    hw.absentReg (blockBase n + off) = false := by
  simp only [absentReg, regPlace_block hn ho]

theorem Hw.absentReg_sq (hw : Hw) {s off : Nat} (hs : s < 64) (ho : off < 0x4000000) (hr : regionOf off = .reg) :
    hw.absentReg (sqAddr s off) = (hw.sqOf s).regAbsent off := by
  simp only [absentReg, regPlace_sq hs ho hr]

theorem Hw.reg64_sq (hw : Hw) {s off : Nat} (hs : s < 64) (ho : off < 0x4000000) (hr : regionOf off = .reg) :
    hw.reg64 (sqAddr s off) = hw.sqReg64 s off := by
  simp only [reg64, regPlace_sq hs ho hr]

theorem Hw.regWrite_sq (hw : Hw) (ini : Initiator) {s off : Nat} (v : Nat) (hs : s < 64) (ho : off < 0x4000000)
    (hr : regionOf off = .reg) : hw.regWrite ini (sqAddr s off) v = hw.sqWrite ini s off v := by
  simp only [regWrite, regPlace_sq hs ho hr]

theorem word_mod (v : Word) : v.toNat % 2 ^ 32 = v.toNat := Nat.mod_eq_of_lt v.isLt

end Sys2Proof.Machine
end

