-- ==== Sys2Proof/Laws/Kezil.lean ====
section
/-! SUPPORT. Laws of the Kezil engine: what it does when nothing waits, and what a command that arrives at a quiet port does. -/

namespace Sys2Proof.Machine

/-- Without a takeover that waits, nothing is granted. -/
theorem Hw.kzGrant_none {hw : Hw} (ha : (hw.portOf false).current = none) (hb : (hw.portOf true).current = none) :
    hw.kzGrant = hw := by
  simp only [kzGrant, ha, hb]
  split <;> simp

/-- Both ports are without a command in progress. -/
theorem Hw.kzGrant_none' {hw : Hw} {p : Bool} (ha : (hw.portOf p).current = none) (hb : (hw.portOf (!p)).current = none) :
    hw.kzGrant = hw := by
  cases p
  · exact kzGrant_none ha hb
  · exact kzGrant_none hb ha

/-- With no command waiting on either port, the engine starts none. -/
theorem Hw.kzPump_none {hw : Hw} (ca : hw.kz.portA.cmds = []) (cb : hw.kz.portB.cmds = []) (ha : (hw.portOf false).current = none)
    (hb : (hw.portOf true).current = none) : hw.kzPump = hw := by
  simp only [kzPump, kzGrant_none ha hb, kzWaiting, ca, cb, List.length_nil, kzRun]

/-- A command that a port has: the same as it arrived. -/
theorem Hw.kzRun_one {hw : Hw} {p : Bool} {c : Cmd} (hon : hw.kzOn = true) (hroom : hw.kzRoom p c = true)
    (hc : (hw.portOf p).cmds = [c]) (ho : (hw.portOf (!p)).cmds = []) (h1 : (hw.portOf p).current = none)
    (hr : (hw.portOf p).replies.length < 32) :
    hw.kzRun 1 = ((hw.modPort p fun q => { q with cmds := [] }).kzStart p c).kzGrant := by
  have hn : hw.kzNext = some (p, c) := by
    cases p <;> simp_all [kzNext, kzHead]
  have hm : (hw.modPort p fun q => { q with cmds := q.cmds.drop 1 }) = hw.modPort p fun q => { q with cmds := [] } := by
    cases p <;> simp_all [modPort, portOf]
  simp only [kzRun, hon, Bool.not_true, Bool.false_eq_true, if_false, hn, hm]

/-- The lease does not look at the ports. -/
theorem Hw.kzTouch_modPort (hw : Hw) (p : Bool) (f : Port → Port) (g : Bool) : (hw.modPort p f).kzTouch g = (hw.kzTouch g).modPort p f := by
  cases p <;> simp [Hw.kzTouch, Hw.modPort] <;> split <;> rfl

/-- A request for a domain does not look at the Kezil ports. -/
theorem Hw.askDomain_modPort (hw : Hw) (p : Bool) (f : Port → Port) (d : Nat) (x : PwrState) :
    (hw.modPort p f).askDomain d x = (hw.askDomain d x).modPort p f := by
  simp only [Hw.askDomain, Hw.modPort_power]
  split <;> cases p <;> rfl

/-- A request for a domain leaves every domain as it is. -/
theorem Hw.askDomain_isOn (hw : Hw) (d e : Nat) (x : PwrState) : (hw.askDomain d x).isOn e = hw.isOn e := by
  simp only [Hw.askDomain]
  split <;> rfl

/-- A wake does not look at the Kezil ports. -/
theorem Hw.wakeDom_modPort (hw : Hw) (p : Bool) (f : Port → Port) (d : Nat) : (hw.modPort p f).wakeDom d = (hw.wakeDom d).modPort p f := by
  have e : (hw.modPort p f).domOf d = hw.domOf d := by cases p <;> rfl
  have q : (hw.modPort p f).sqOf d = hw.sqOf d := by cases p <;> rfl
  simp only [Hw.wakeDom, e, q]
  by_cases h : d < 64 ∧ (hw.sqOf d).fused = true
  · simp only [if_pos h]
  · simp only [if_neg h]
    cases (hw.domOf d).moving with
    | none =>
      simp only
      by_cases h2 : (hw.domOf d).state = .on
      · simp only [if_pos h2]; cases p <;> rfl
      · simp only [if_neg h2]; rw [← askDomain_modPort]; cases p <;> rfl
    | some m => cases m <;> cases p <;> rfl

/-- An interrupt signal does not look at the Kezil ports. -/
theorem Hw.irq_modPort (hw : Hw) (p : Bool) (f : Port → Port) (n : Nat) : (hw.modPort p f).irq n = (hw.irq n).modPort p f := by
  have e : (hw.modPort p f).isOn domCtrl = hw.isOn domCtrl := by cases p <;> rfl
  have g : ∀ k, (hw.modPort p f).grpOf k = hw.grpOf k := by intro k; cases p <;> rfl
  simp only [Hw.irq, e, g]
  by_cases h : hw.isOn domCtrl = true
  · simp only [if_pos h]; cases p <;> rfl
  · simp only [if_neg h]
    by_cases h2 : (hw.grpOf (n / 16)).wake = true
    · simp only [if_pos h2]; rw [← Hw.wakeDom_modPort]; cases p <;> rfl
    · simp only [if_neg h2]; cases p <;> rfl

/-- A wake leaves a domain that is ON as ON as it was. -/
theorem Hw.wakeDom_isOn (hw : Hw) (d e : Nat) (h : hw.isOn e = true) : (hw.wakeDom d).isOn e = true := by
  have hs : (hw.domOf e).state = .on := by simp [Hw.isOn] at h; exact h.1
  have hm : (hw.domOf e).moving = none := by simp [Hw.isOn] at h; exact h.2
  by_cases hd : e = d
  · subst hd
    simp only [Hw.wakeDom]
    split
    · exact h
    · simp only [hm]
      simp [Hw.isOn, Hw.domOf, Hw.modDom] at *
      exact h
  · simp only [Hw.wakeDom]
    split
    · exact h
    · have g : ∀ f : Domain → Domain, mget {} (mupd {} hw.power.dom d f) e = mget {} hw.power.dom e := fun f => mget_mupd_ne _ _ _ hd
      simp only [Hw.domOf] at hs hm
      split
      · simp [Hw.isOn, Hw.domOf, Hw.modDom, g, hs, hm]
      · simp [Hw.isOn, Hw.domOf, Hw.modDom, mget_mupd_ne _ _ _ hd, hs, hm]
      · split
        · simp [Hw.isOn, Hw.domOf, Hw.modDom, g, hs, hm]
        · rw [askDomain_isOn]; simp [Hw.isOn, Hw.domOf, Hw.modDom, g, hs, hm]

/-- A wake leaves the Kezil engine as it is. -/
theorem Hw.wakeDom_kz (hw : Hw) (d : Nat) : (hw.wakeDom d).kz = hw.kz := by
  simp only [Hw.wakeDom]
  split
  · rfl
  · split <;> (try rfl) <;> split <;> simp

/-- A wake leaves the firmware state as it is. -/
theorem Hw.wakeDom_fw (hw : Hw) (d : Nat) : (hw.wakeDom d).fw = hw.fw := by
  simp only [Hw.wakeDom]
  split
  · rfl
  · split <;> (try rfl) <;> split <;> simp

/-- An interrupt signal leaves the Kezil engine as it is. -/
theorem Hw.irq_kz (hw : Hw) (n : Nat) : (hw.irq n).kz = hw.kz := by
  simp only [Hw.irq]
  split
  · rfl
  · split
    · rw [Hw.wakeDom_kz]
    · rfl

/-- An interrupt signal leaves the firmware state as it is. -/
theorem Hw.irq_fw (hw : Hw) (n : Nat) : (hw.irq n).fw = hw.fw := by
  simp only [Hw.irq]
  split
  · rfl
  · split
    · rw [Hw.wakeDom_fw]
    · rfl

/-- An interrupt signal leaves a domain that is ON as ON as it was. -/
theorem Hw.irq_isOn (hw : Hw) (n d : Nat) (h : hw.isOn d = true) : (hw.irq n).isOn d = true := by
  simp only [Hw.irq]
  split
  · exact h
  · split
    · exact Hw.wakeDom_isOn _ _ _ h
    · exact h

/-- A wake leaves the DMA channels as they are. -/
theorem Hw.wakeDom_dma (hw : Hw) (d : Nat) : (hw.wakeDom d).dma = hw.dma := by
  simp only [Hw.wakeDom]
  split
  · rfl
  · split <;> (try rfl) <;> split <;> simp

/-- An interrupt signal leaves the DMA channels as they are. -/
theorem Hw.irq_dma (hw : Hw) (n : Nat) : (hw.irq n).dma = hw.dma := by
  simp only [Hw.irq]
  split
  · rfl
  · split
    · rw [Hw.wakeDom_dma]
    · rfl

/-- Use of a domain leaves a domain that is ON as ON as it was. -/
theorem Hw.touchDom_isOn (hw : Hw) (d e : Nat) (h : hw.isOn e = true) : (hw.touchDom d).isOn e = true := by
  by_cases hd : e = d
  · subst hd
    simp [Hw.isOn, Hw.domOf, Hw.touchDom, Hw.modDom] at *
    exact h
  · simp only [Hw.touchDom, Hw.modDom, Hw.domOf, Hw.isOn] at *
    simpa [mget_mupd_ne _ _ _ hd] using h

/-- The arrival keeps the engine on. -/
theorem Hw.arrived_kzOn (hw : Hw) (p : Bool) (h : hw.kzOn = true) : (hw.arrived p).kzOn = true := by
  simp only [Hw.kzOn, Bool.and_eq_true] at h
  have ht : ∀ h : Hw, (h.kzTouch p).fw = h.fw ∧ ∀ d, (h.kzTouch p).isOn d = h.isOn d := by
    intro h; simp only [kzTouch]; split <;> exact ⟨rfl, fun _ => rfl⟩
  simp only [Hw.kzOn, Hw.arrived, Hw.irq_fw, Bool.and_eq_true]
  refine ⟨irq_isOn _ _ _ (touchDom_isOn _ _ _ (wakeDom_isOn _ _ _ (wakeDom_isOn _ _ _ ?_))), ?_⟩
  · rw [(ht _).2]; exact h.1
  · simp only [touchDom, modDom, wakeDom_fw, (ht _).1]; exact h.2

/-- The arrival of a command leaves the DMA channels as they are. -/
theorem Hw.arrived_dma (hw : Hw) (p : Bool) : (hw.arrived p).dma = hw.dma := by
  have ht : ∀ h : Hw, (h.kzTouch p).dma = h.dma := by
    intro h; simp only [kzTouch]; split <;> rfl
  simp only [Hw.arrived, Hw.irq_dma, touchDom, modDom, wakeDom_dma, ht]

/-- What the arrival leaves of the Kezil state. -/
theorem Hw.arrived_kz (hw : Hw) (p : Bool) : (hw.arrived p).kz =
    { hw.kz with arrivals := hw.kz.arrivals + 1, leaseAt := if hw.kz.owner = some p then hw.elapsed else hw.kz.leaseAt } := by
  simp only [Hw.arrived, Hw.irq_kz, touchDom, modDom, wakeDom_kz, kzTouch]
  split <;> rfl

/-- The arrival of a command leaves the ports as they are. -/
theorem Hw.arrived_portOf (hw : Hw) (p g : Bool) : (hw.arrived p).portOf g = hw.portOf g := by
  simp only [portOf, arrived_kz]

/-- Two changes of one port are one. -/
theorem Hw.modPort_modPort (hw : Hw) (p : Bool) (f g : Port → Port) : (hw.modPort p f).modPort p g = hw.modPort p (fun q => g (f q)) := by
  cases p <;> rfl

/-- A change of a port that changes nothing. -/
theorem Hw.modPort_self (hw : Hw) (p : Bool) (f : Port → Port) (h : f (hw.portOf p) = hw.portOf p) : hw.modPort p f = hw := by
  cases p <;> simp_all [modPort, portOf]

/-- A change of a port leaves the engine as ON as it was. -/
theorem Hw.modPort_kzOn (hw : Hw) (p : Bool) (f : Port → Port) : (hw.modPort p f).kzOn = hw.kzOn := by cases p <;> rfl

/-- A change of a port leaves the DMA channels as free as they were. -/
theorem Hw.modPort_kzRoom (hw : Hw) (p g : Bool) (f : Port → Port) (c : Cmd) : (hw.modPort p f).kzRoom g c = hw.kzRoom g c := by
  cases p <;> rfl

/-- A command that arrives at a quiet port starts at once. -/
theorem Hw.kzCommand_quiet {hw : Hw} {p : Bool} {op tag : Nat} {async : Bool} {ps : List Byte} (hq : hw.kzQuiet p)
    (hroom : (hw.arrived p).kzRoom p
      { cmdOf op tag async ps with arrived := hw.kz.arrivals, time := hw.tb.now } = true) :
    hw.kzCommand op p async tag ps = ((hw.arrived p).kzStart p
      { cmdOf op tag async ps with arrived := hw.kz.arrivals, time := hw.tb.now }).kzGrant := by
  obtain ⟨hl, hon, hc, hc', h1, h2, hr⟩ := hq
  have hload : (hw.portOf p).load = 0 := by simp [Port.load, hc, h1]
  simp only [kzCommand, kzArrive, hl, hload]
  simp only [Bool.not_true, Bool.false_or]
  rw [if_neg (by decide)]
  generalize hcc : ({ cmdOf op tag async ps with arrived := hw.kz.arrivals, time := hw.tb.now } : Cmd) = c
  rw [hcc] at hroom
  have key : (((({ hw with kz := { hw.kz with arrivals := hw.kz.arrivals + 1 } } : Hw).modPort p fun q =>
      { q with cmds := q.cmds ++ [c] }).kzTouch p).wakeDom domCtrl |>.wakeDom domHub |>.touchDom (domUsb p) |>.irq (16 + b2n p))
      = (hw.arrived p).modPort p fun q => { q with cmds := q.cmds ++ [c] } := by
    have ht : ∀ (h : Hw) f, (h.modPort p f).touchDom (domUsb p) = (h.touchDom (domUsb p)).modPort p f := by
      intro h f; cases p <;> rfl
    rw [kzTouch_modPort, wakeDom_modPort, wakeDom_modPort, ht, irq_modPort]; rfl
  rw [key]
  have hon' := arrived_kzOn hw p hon
  have pc : ∀ g, (((hw.arrived p).modPort p fun q => { q with cmds := q.cmds ++ [c] }).portOf g)
      = if g = p then { hw.portOf p with cmds := [c] } else hw.portOf g := by
    intro g
    cases p <;> cases g <;> simp_all [modPort, portOf, arrived_kz]
  simp only [kzPump]
  rw [kzGrant_none' (p := p) (by simp [pc, h1]) (by cases p <;> simp_all)]
  have hw1 : (((hw.arrived p).modPort p fun q => { q with cmds := q.cmds ++ [c] })).kzWaiting = 1 := by
    have a := pc false; have b := pc true
    simp only [portOf] at a b
    cases p <;> simp_all [kzWaiting, portOf]
  rw [hw1, kzRun_one (p := p) (c := c)]
  · rw [modPort_modPort, modPort_self _ _ _ (by rw [arrived_portOf]; cases hp : hw.portOf p; simp_all)]
  · rw [modPort_kzOn]; exact hon'
  · rw [modPort_kzRoom]; exact hroom
  · simp [pc]
  · cases p <;> simp_all
  · simp [pc, h1]
  · simp [pc]; exact hr

/-- A life-cycle code is one of five. -/
theorem Fuses.lc_le (f : Fuses) : f.lc ≤ 4 := by
  simp only [Fuses.lc]
  split
  · omega
  · split <;> (try split) <;> (try split) <;> omega

/-- When the checks on a command pass. -/
theorem Hw.kzChecks_ok {hw : Hw} {p : Bool} {c : Cmd} {r : OpRow} (hb : c.bad = none) (hr : opRow c.opcode = some r)
    (ha : c.async = false ∨ r.async = true) (he : r.early = true ∨ hw.served = true)
    (ho : r.owner = false ∨ hw.kz.owner = some p) (hl : r.lcs.testBit hw.fuses.lc = true) : hw.kzChecks p c = (stOK, 0) := by
  rcases ha with ha | ha <;> rcases he with he | he <;> rcases ho with ho | ho <;> simp [kzChecks, hb, hr, ha, he, ho, hl]

/-- A command whose checks pass and whose work is done in one step is answered OK, over what its work leaves. -/
theorem Hw.kzStart_done {hw h : Hw} {p : Bool} {c : Cmd} {b : List Byte} (hk : hw.kzChecks p c = (stOK, 0))
    (hx : hw.kzExec p c = (h, .done stOK 0 b)) : hw.kzStart p c = h.answered p c.opcode c.tag c.async stOK 0 b := by
  simp [kzStart, hk, hx, kzAnswer, reply, answered]

/-- A reply leaves the commands in progress as they are. -/
theorem Hw.answered_current (hw : Hw) (p : Bool) (op tag : Nat) (async : Bool) (st d : Nat) (b : List Byte) (g : Bool) :
    ((hw.answered p op tag async st d b).portOf g).current = (hw.portOf g).current := by
  cases p <;> cases g <;> rfl

/-- A command that arrives at a quiet port, passes its checks and is done in one step is answered at once. -/
theorem Hw.kzCommand_done {hw h : Hw} {p async : Bool} {op tag : Nat} {ps b : List Byte} (hq : hw.kzQuiet p)
    (hroom : (hw.arrived p).kzRoom p
      { cmdOf op tag async ps with arrived := hw.kz.arrivals, time := hw.tb.now } = true) (c : Cmd)
    (hc : { cmdOf op tag async ps with arrived := hw.kz.arrivals, time := hw.tb.now } = c)
    (hk : (hw.arrived p).kzChecks p c = (stOK, 0)) (hx : (hw.arrived p).kzExec p c = (h, .done stOK 0 b))
    (ha : (h.portOf p).current = none) (hb : (h.portOf (!p)).current = none) :
    hw.kzCommand op p async tag ps = h.answered p op tag async stOK 0 b := by
  rw [kzCommand_quiet hq hroom, hc, kzStart_done hk hx]
  have e : c.opcode = op ∧ c.tag = tag ∧ c.async = async := by subst hc; exact ⟨rfl, rfl, rfl⟩
  rw [e.1, e.2.1, e.2.2, kzGrant_none' (p := p)]
  · rw [answered_current]; exact ha
  · rw [answered_current]; exact hb

end Sys2Proof.Machine
end

