-- ==== Sys2Proof/Laws/Memory.lean ====
section
/-! SUPPORT. Laws of memory: what is read after a write, and that every operation keeps the canonical form. -/

namespace Sys2Proof.Machine

theorem memWfFrom_mono {m : List Host.Cell} {a b : Nat} (hab : a ≤ b) (h : memWfFrom b m = true) : memWfFrom a m = true := by
  cases m with
  | nil => rfl
  | cons c r =>
    obtain ⟨k, v⟩ := c
    simp only [memWfFrom, Bool.and_eq_true, decide_eq_true_eq] at *
    exact ⟨⟨by omega, h.1.2⟩, h.2⟩

/-- Below the first address of a canonical memory every byte reads zero. -/
theorem memRead_below {m : List Host.Cell} {lo a : Nat} (h : memWfFrom lo m = true) (ha : a < lo) : memRead m a = 0 := by
  cases m with
  | nil => rfl
  | cons c r =>
    obtain ⟨k, v⟩ := c
    simp only [memWfFrom, Bool.and_eq_true, decide_eq_true_eq] at h
    have h1 : a ≠ k := by omega
    have h2 : a < k := by omega
    simp [memRead, h1, h2]

theorem memWrite_wfFrom {m : List Host.Cell} {lo : Nat} (a : Nat) (b : Byte) (h : memWfFrom lo m = true) (ha : lo ≤ a) :
    memWfFrom lo (memWrite m a b) = true := by
  induction m generalizing lo with
  | nil => by_cases hb : b = 0#8 <;> simp [memWrite, memWfFrom, hb, ha]
  | cons c r ih =>
    obtain ⟨k, v⟩ := c
    simp only [memWfFrom, Bool.and_eq_true, decide_eq_true_eq] at h
    obtain ⟨⟨h1, h2⟩, h3⟩ := h
    by_cases hk : a = k
    · subst hk
      by_cases hb : b = 0#8
      · simpa [memWrite, hb] using memWfFrom_mono (by omega) h3
      · simp [memWrite, memWfFrom, hb, ha, h3]
    · by_cases hl : a < k
      · have h4 : a + 1 ≤ k := hl
        have h5 : ¬v = 0#8 := by simpa using h2
        by_cases hb : b = 0#8 <;> simp [memWrite, memWfFrom, hk, hl, hb, ha, h1, h3, h4, h5]
      · simp only [memWrite, hk, hl, if_false, memWfFrom, Bool.and_eq_true, decide_eq_true_eq]
        exact ⟨⟨h1, h2⟩, ih h3 (by omega)⟩

/-- A write of a byte keeps the canonical form. -/
theorem memWrite_wf {m : List Host.Cell} (a : Nat) (b : Byte) (h : Memory.wf m = true) : Memory.wf (memWrite m a b) = true :=
  memWrite_wfFrom a b h (Nat.zero_le a)

/-- A write of bytes keeps the canonical form. -/
theorem memWriteN_wf {m : List Host.Cell} (a : Nat) (bs : List Byte) (h : Memory.wf m = true) :
    Memory.wf (memWriteN m a bs) = true := by
  induction bs generalizing m a with
  | nil => exact h
  | cons b r ih => exact ih (a + 1) (memWrite_wf a b h)

theorem filter_wfFrom {m : List Host.Cell} (p : Host.Cell → Bool) {lo : Nat} (h : memWfFrom lo m = true) :
    memWfFrom lo (m.filter p) = true := by
  induction m generalizing lo with
  | nil => rfl
  | cons c r ih =>
    obtain ⟨k, v⟩ := c
    simp only [memWfFrom, Bool.and_eq_true, decide_eq_true_eq] at h
    by_cases hp : p (k, v)
    · simp only [List.filter_cons, hp, if_true, memWfFrom, Bool.and_eq_true, decide_eq_true_eq]
      exact ⟨h.1, ih h.2⟩
    · simp only [List.filter_cons, hp]
      exact memWfFrom_mono (by omega) (ih h.2)

/-- Dropping entries keeps the canonical form. -/
theorem filter_wf {m : List Host.Cell} (p : Host.Cell → Bool) (h : Memory.wf m = true) : Memory.wf (m.filter p) = true :=
  filter_wfFrom p h

/-- A wipe keeps the canonical form. -/
theorem memClear_wf {m : List Host.Cell} (a n : Nat) (h : Memory.wf m = true) : Memory.wf (memClear m a n) = true :=
  filter_wf _ h

theorem memRead_memWrite_same {m : List Host.Cell} {lo : Nat} (a : Nat) (b : Byte) (h : memWfFrom lo m = true) :
    memRead (memWrite m a b) a = b := by
  induction m generalizing lo with
  | nil => by_cases hb : b = 0#8 <;> simp [memWrite, memRead, hb]
  | cons c r ih =>
    obtain ⟨k, v⟩ := c
    simp only [memWfFrom, Bool.and_eq_true, decide_eq_true_eq] at h
    obtain ⟨⟨h1, h2⟩, h3⟩ := h
    by_cases hk : a = k
    · subst hk
      by_cases hb : b = 0#8
      · simpa [memWrite, hb] using memRead_below h3 (by omega)
      · simp [memWrite, memRead, hb]
    · by_cases hl : a < k
      · by_cases hb : b = 0#8 <;> simp [memWrite, memRead, hk, hl, hb]
      · simp [memWrite, memRead, hk, hl, ih h3]

theorem memRead_memWrite_ne {m : List Host.Cell} {lo : Nat} {a x : Nat} (b : Byte) (hne : x ≠ a) (h : memWfFrom lo m = true) :
    memRead (memWrite m a b) x = memRead m x := by
  induction m generalizing lo with
  | nil => by_cases hb : b = 0#8 <;> simp [memWrite, memRead, hb, hne]
  | cons c r ih =>
    obtain ⟨k, v⟩ := c
    simp only [memWfFrom, Bool.and_eq_true, decide_eq_true_eq] at h
    obtain ⟨⟨h1, h2⟩, h3⟩ := h
    by_cases hk : a = k
    · subst hk
      by_cases hb : b = 0#8
      · by_cases hx : x < a
        · simp [memWrite, hb, memRead, hne, hx, memRead_below h3 (show x < a + 1 by omega)]
        · simp [memWrite, hb, memRead, hne, hx]
      · simp [memWrite, memRead, hb, hne]
    · by_cases hl : a < k
      · by_cases hb : b = 0#8
        · simp [memWrite, hk, hl, hb]
        · by_cases hx : x < a
          · have h5 : x ≠ k := by omega
            have h6 : x < k := by omega
            simp [memWrite, memRead, hk, hl, hb, hne, hx, h5, h6]
          · simp [memWrite, memRead, hk, hl, hb, hne, hx]
      · simp [memWrite, memRead, hk, hl, ih h3]

/-- Bytes outside a write of bytes read as before. -/
theorem memRead_memWriteN_out {m : List Host.Cell} {a x : Nat} (bs : List Byte) (hx : x < a ∨ a + bs.length ≤ x)
    (h : Memory.wf m = true) : memRead (memWriteN m a bs) x = memRead m x := by
  induction bs generalizing m a with
  | nil => rfl
  | cons b r ih =>
    simp only [List.length_cons] at hx
    rw [memWriteN, ih (by omega) (memWrite_wf a b h), memRead_memWrite_ne (lo := 0) b (by omega) h]

/-- The bytes of a write read back. -/
theorem memReadN_memWriteN {m : List Host.Cell} {a : Nat} (bs : List Byte) (h : Memory.wf m = true) :
    memReadN (memWriteN m a bs) a bs.length = bs := by
  induction bs generalizing m a with
  | nil => rfl
  | cons b r ih =>
    simp only [List.length_cons, memReadN, memWriteN]
    rw [ih (memWrite_wf a b h), memRead_memWriteN_out r (by omega) (memWrite_wf a b h), memRead_memWrite_same (lo := 0) a b h]

end Sys2Proof.Machine
end

