-- ==== Sys2Proof/WellFormed.lean ====
section
/-! DEFINITION. Well-formed commands: operands whose ranges their types do not give. -/

namespace Sys2Proof

/-- An initiator that reaches a 64-bit register in halves (00/R16). -/
def halves : Initiator → Bool
  | .other => false
  | .core _ | .dma _ | .security | .debug => true

/-- A square and a physical slot. -/
def slotNamed (x : Nat × Nat) : Bool := decide (x.1 < 64 ∧ x.2 < 19)

/-- A 64-bit word of a row: 8 in a row of 64 bytes, 16 in one of 128 (12/T12-1). -/
def wordInRow (unit : Fin 68) (group : Fin 32) (i : Nat) : Bool :=
  decide (i < if unit.val < 64 ∧ group.val < 20 then 8 else 16)

/-- A finding of the march test names a bank of the module and rows of it. -/
def findOk (x : MarchFind) : Bool := decide (x.unit < 67 ∧ x.group < 32 ∧ x.bank < 16) && x.rows.all fun r => decide (r < 2048)

/-- A payload whose length the 16-bit word count of a CSI-2 header can give; RAW10 packs four pixels in five bytes. -/
def bodyFits : CsiBody → Bool
  | .raw8 px => decide (px.length < 65536)
  | .raw10 px => decide (px.length * 5 < 65536 * 4)
  | .vendor b => decide (b.length < 65536)
  | .frameStart | .frameEnd | .other => true

/-- A voltage in mV that PWR_VIN can show (14/T14-6). -/
def volts (mv : Nat) : Bool := decide (mv < 65536)

/-- PLEN of a command is at most 1,048,592 (10/R348). -/
def plenOk (params : List Byte) : Bool := decide (params.length ≤ 1048592)

/-- The operands lie in the ranges that the spec gives them. -/
def Instr.wellFormed : Instr → Bool
  | .registerWrite _ addr value wide => decide (addr.toNat % (if wide then 8 else 4) = 0) && (wide || decide (value.toNat < 2 ^ 32))
  | .reg64LowRead ini addr => decide (addr.toNat % 8 = 0) && halves ini
  | .reg64HighRead ini addr => decide (addr.toNat % 8 = 4) && halves ini
  | .reg64LowWrite ini addr _ => decide (addr.toNat % 8 = 0) && halves ini
  | .reg64HighWrite ini addr _ => decide (addr.toNat % 8 = 4) && halves ini
  | .sqCfgWrite _ _ _ => true
  | .inputCutoff _ => true
  | .jobRelease _ => true
  | .eventDistribute _ _ => true
  | .globalClosure _ _ => true
  | .shadowCompare _ _ _ _ _ => true
  | .updateComplete _ _ => true
  | .consolidationPhaseA _ _ _ => true
  | .consolidationPhaseB _ _ _ => true
  | .globalDone _ => true
  | .snapshotCopyUnit _ => true
  | .tempoStall _ => true
  | .seqTempoPeriodWrite _ _ _ => true
  | .seqTempoBoundWrite _ _ _ => true
  | .reload _ _ _ => true
  | .reloadCheckDone _ _ => true
  | .ruleReload _ _ _ => true
  | .ruleReloadCheckDone _ _ => true
  | .ruleLfsrWrite _ _ _ _ => true
  | .packetInject _ => true
  | .routeCycle => true
  | .writePacket _ => true
  | .readPacket _ _ => true
  | .fencePacket _ => true
  | .respPacket _ => true
  | .queuePacket _ => true
  | .qstatPacket _ => true
  | .inboxWatchdog _ => true
  | .flip _ => true
  | .oldEpochDrained => true
  | .rtrTblDataWrite _ _ _ => true
  | .olSlotWrite _ _ _ => true
  | .squareAbsent _ => true
  | .linkFrameTx _ => true
  | .linkFrameRx _ _ _ => true
  | .linkResendLimit _ => true
  | .linkSilenceTimeout _ => true
  | .laneFail _ _ => true
  | .flCtlWrite _ _ _ => true
  | .linkUp _ => true
  | .ropen _ _ _ _ => true
  | .rclose _ _ _ _ => true
  | .sopen _ _ _ _ => true
  | .sclose _ _ _ _ => true
  | .send _ _ => true
  | .recv _ _ => true
  | .sendTimeout _ _ => true
  | .recvTimeout _ _ => true
  | .start _ _ _ => true
  | .stop _ _ _ => true
  | .opNop _ _ => true
  | .opAdd _ _ => true
  | .opSub _ _ => true
  | .opMul _ _ => true
  | .opShr _ _ => true
  | .opShl _ _ => true
  | .opMin _ _ => true
  | .opMax _ _ => true
  | .opAbs _ _ => true
  | .opNeg _ _ => true
  | .opMov _ _ => true
  | .opLdi _ _ => true
  | .opCmpge _ _ => true
  | .opCmplt _ _ => true
  | .opCmpeq _ _ => true
  | .opCmpnz _ _ => true
  | .opEnd _ _ => true
  | .opJmp _ _ => true
  | .opLdw _ _ => true
  | .opStw _ _ => true
  | .dmaStartChain _ _ => true
  | .dmaStopChain _ _ => true
  | .dmaDescriptor _ => true
  | .dmaDescriptorComplete _ => true
  | .dmaTimeout _ => true
  | .taskStart => true
  | .taskEnd _ fails => fails.all slotNamed
  | .waitTimeExpiry _ => true
  | .taskDeadline _ => true
  | .seqRingWrite _ _ => true
  | .windowStart temps => decide (temps.length = 64)
  | .powerSample _ squares _ => squares.all fun x => decide (x.1 < 64)
  | .tempSample _ _ => true
  | .dvfsRaiseComplete _ => true
  | .domainIdleEntry _ => true
  | .domainTransitionBegin => true
  | .domainTransitionDone _ => true
  | .pwrReqWrite _ _ => true
  | .wakeRequest _ => true
  | .restartPurgeDone _ => true
  | .restoreStart _ => true
  | .restoreDone _ _ => true
  | .eccWriteback _ _ _ _ _ => true
  | .rowRepair unit group _ _ bad _ _ => bad.all (wordInRow unit group)
  | .sqBankreqWrite _ _ _ => true
  | .retrain _ _ => true
  | .psramDriftCheck drifts => drifts.all fun x => decide (x.1 < 16)
  | .psramRetrainDone _ window => decide (window ≤ 256)
  | .psramRetrainTimeout _ => true
  | .journalPageWrite => true
  | .pscJrnlWrite _ _ => true
  | .sessionOpen _ _ _ params => plenOk params
  | .sessionClose _ _ _ params => plenOk params
  | .takeover _ _ _ params => plenOk params
  | .setLease _ _ _ params => plenOk params
  | .echo _ _ _ params => plenOk params
  | .portStatus _ _ _ params => plenOk params
  | .getIdentity _ _ _ params => plenOk params
  | .getStageReports _ _ _ params => plenOk params
  | .getCert _ _ _ params => plenOk params
  | .attest _ _ _ params => plenOk params
  | .getTelemetry _ _ _ params => plenOk params
  | .getNetDigests _ _ _ params => plenOk params
  | .memRead _ _ _ params => plenOk params
  | .memWrite _ _ _ params => plenOk params
  | .dmaStart _ _ _ params => plenOk params
  | .graphSubmit _ _ _ params => plenOk params
  | .taskRetire _ _ _ params => plenOk params
  | .taskCancel _ _ _ params => plenOk params
  | .taskStatus _ _ _ params => plenOk params
  | .jobStop _ _ _ params => plenOk params
  | .doorbellRing _ _ _ params => plenOk params
  | .seqRun _ _ _ params => plenOk params
  | .imageCheck _ _ _ params => plenOk params
  | .squareInfo _ _ _ params => plenOk params
  | .streamSet _ _ _ params => plenOk params
  | .streamGet _ _ _ params => plenOk params
  | .pwrSet _ _ _ params => plenOk params
  | .pwrPins _ _ _ params => plenOk params
  | .budgetSet _ _ _ params => plenOk params
  | .budgetGet _ _ _ params => plenOk params
  | .tripClear _ _ _ params => plenOk params
  | .faultRead _ _ _ params => plenOk params
  | .stickyRead _ _ _ params => plenOk params
  | .stickyClear _ _ _ params => plenOk params
  | .jobFaults _ _ _ params => plenOk params
  | .fwBegin _ _ _ params => plenOk params
  | .fwData _ _ _ params => plenOk params
  | .fwEnd _ _ _ params => plenOk params
  | .fwActivate _ _ _ params => plenOk params
  | .fwCoreReport => true
  | .fwActivationTimeout => true
  | .fwStatus _ _ _ params => plenOk params
  | .lcGet _ _ _ params => plenOk params
  | .lcTransition _ _ _ params => plenOk params
  | .keyEnrol _ _ _ params => plenOk params
  | .reset _ _ _ params => plenOk params
  | .timeGet _ _ _ params => plenOk params
  | .timeSet _ _ _ params => plenOk params
  | .leaseExpiry => true
  | .usbLinkLoss _ _ => true
  | .usbSuspend _ _ _ => true
  | .vbusChange _ _ => true
  | .resultRecordAck _ => true
  | .inputRecord _ bytes => decide (bytes ≠ [])
  | .ircDoorbell _ _ _ => true
  | .ircAck _ _ => true
  | .ircEoi _ _ _ => true
  | .clrp _ _ _ _ => true
  | .ircHoldoffEnd _ => true
  | .tcCountEvent _ => true
  | .tioEdge _ _ _ => true
  | .tcCapRead _ _ _ => true
  | .clear _ _ _ => true
  | .tcCntWrite _ _ _ => true
  | .tcCmpWrite _ _ _ => true
  | .timeRefPresent => true
  | .timeRefLost => true
  | .timebasePllLock => true
  | .ppsEdge => true
  | .ppsAbsent => true
  | .timebaseSlewTick => true
  | .tbSetWrite _ value wide => wide || decide (value.toNat % 2 ^ 32 = 0)
  | .tbPpsRead _ _ => true
  | .stageS1 => true
  | .stageS2 unlocked _ => unlocked.all fun x => decide (x < 64)
  | .stageS3 finds psram => finds.all findOk && psram.all fun x => decide (x.1 < 16)
  | .stageS4 => true
  | .stageS5 fails => fails.all slotNamed
  | .stageS6 windows => decide (windows.length = 16) && windows.all fun x => decide (x.length = 3)
  | .stageS7 fails => decide (fails.length = 6) && fails.all fun x => x.all fun i => decide (i < 5)
  | .linkTrainingTimeout _ => true
  | .stageS8 => true
  | .go _ _ _ => true
  | .laneRetrainDone _ _ => true
  | .laneRetrainTimeout _ => true
  | .laneErrorWindow _ _ _ => true
  | .supplyStart vinA vinB _ _ => volts vinA && volts vinB
  | .supplySwitch vinA vinB => volts vinA && volts vinB
  | .supplyReturn => true
  | .supplyOvervoltage _ mv => volts mv
  | .supplyReconnect _ mv => volts mv
  | .inputShort _ => true
  | .brownout => true
  | .resetNAssert => true
  | .resetNRelease => true
  | .mgtTransfer _ read len bytes _ => if read then decide (bytes = []) else decide (len = 0)
  | .mgtSclTimeout => true
  | .csiPacket _ _ _ _ _ body => bodyFits body
  | .csiEnable _ _ _ => true
  | .runningTempoLate _ => true
  | .bankGroupTransitionDone _ _ => true
  | .malformedCommand _ raw => decide (raw ≠ [])
  | .replyCollected _ => true
  | .notificationDelivered _ => true
  | .lossOfBothSupplies vinA vinB => volts vinA && volts vinB
  | .supplyRangeChange vinA vinB => volts vinA && volts vinB
  | .linkTrainingRequest _ => true
  | .waitTimeLeadReached _ => true

end Sys2Proof
end

