-- ==== Sys2Proof/Laws/PerInstr.lean ====
section
/-! SUPPORT. One law per command about its syntax: the parameters that it carries fit a transfer (10/R348). -/

namespace Sys2Proof.Laws.Params

/-- The parameter bytes that a command carries: those of a Kezil command, and none for any other. -/
def paramsOf : Instr → List Byte
  | .sessionOpen _ _ _ params => params
  | .sessionClose _ _ _ params => params
  | .takeover _ _ _ params => params
  | .setLease _ _ _ params => params
  | .echo _ _ _ params => params
  | .portStatus _ _ _ params => params
  | .getIdentity _ _ _ params => params
  | .getStageReports _ _ _ params => params
  | .getCert _ _ _ params => params
  | .attest _ _ _ params => params
  | .getTelemetry _ _ _ params => params
  | .getNetDigests _ _ _ params => params
  | .memRead _ _ _ params => params
  | .memWrite _ _ _ params => params
  | .dmaStart _ _ _ params => params
  | .graphSubmit _ _ _ params => params
  | .taskRetire _ _ _ params => params
  | .taskCancel _ _ _ params => params
  | .taskStatus _ _ _ params => params
  | .jobStop _ _ _ params => params
  | .doorbellRing _ _ _ params => params
  | .seqRun _ _ _ params => params
  | .imageCheck _ _ _ params => params
  | .squareInfo _ _ _ params => params
  | .streamSet _ _ _ params => params
  | .streamGet _ _ _ params => params
  | .pwrSet _ _ _ params => params
  | .pwrPins _ _ _ params => params
  | .budgetSet _ _ _ params => params
  | .budgetGet _ _ _ params => params
  | .tripClear _ _ _ params => params
  | .faultRead _ _ _ params => params
  | .stickyRead _ _ _ params => params
  | .stickyClear _ _ _ params => params
  | .jobFaults _ _ _ params => params
  | .fwBegin _ _ _ params => params
  | .fwData _ _ _ params => params
  | .fwEnd _ _ _ params => params
  | .fwActivate _ _ _ params => params
  | .fwStatus _ _ _ params => params
  | .lcGet _ _ _ params => params
  | .lcTransition _ _ _ params => params
  | .keyEnrol _ _ _ params => params
  | .reset _ _ _ params => params
  | .timeGet _ _ _ params => params
  | .timeSet _ _ _ params => params
  | _ => []

/-- A well-formed command carries at most 1,048,592 parameter bytes (10/R348). -/
def Statement (i : Instr) : Prop := i.wellFormed = true → (paramsOf i).length ≤ 1048592

/-- A command without parameters carries none. -/
theorem none_carried (i : Instr) (h : paramsOf i = []) : Statement i := fun _ => by simp [h]

theorem registerWrite (ini : Initiator) (addr : Addr) (value : DWord) (wide : Bool) : Statement (.registerWrite ini addr value wide) := none_carried _ rfl
theorem reg64LowRead (ini : Initiator) (addr : Addr) : Statement (.reg64LowRead ini addr) := none_carried _ rfl
theorem reg64HighRead (ini : Initiator) (addr : Addr) : Statement (.reg64HighRead ini addr) := none_carried _ rfl
theorem reg64LowWrite (ini : Initiator) (addr : Addr) (value : Word) : Statement (.reg64LowWrite ini addr value) := none_carried _ rfl
theorem reg64HighWrite (ini : Initiator) (addr : Addr) (value : Word) : Statement (.reg64HighWrite ini addr value) := none_carried _ rfl
theorem sqCfgWrite (ini : Initiator) (sq : Fin 64) (value : Word) : Statement (.sqCfgWrite ini sq value) := none_carried _ rfl
theorem inputCutoff (job : Fin 4) : Statement (.inputCutoff job) := none_carried _ rfl
theorem jobRelease (job : Fin 4) : Statement (.jobRelease job) := none_carried _ rfl
theorem eventDistribute (sq : Fin 64) (seen : List Seen) : Statement (.eventDistribute sq seen) := none_carried _ rfl
theorem globalClosure (job : Fin 4) (seen : List (Fin 64 × Seen)) : Statement (.globalClosure job seen) := none_carried _ rfl
theorem shadowCompare (sq : Fin 64) (core : Fin 18) (neuron : Fin 16384) (find : ShadowFind) (seen : List Seen) : Statement (.shadowCompare sq core neuron find seen) := none_carried _ rfl
theorem updateComplete (sq : Fin 64) (core : Fin 18) : Statement (.updateComplete sq core) := none_carried _ rfl
theorem consolidationPhaseA (sq : Fin 64) (core : Fin 18) (seen : List Seen) : Statement (.consolidationPhaseA sq core seen) := none_carried _ rfl
theorem consolidationPhaseB (sq : Fin 64) (core : Fin 18) (seen : List Seen) : Statement (.consolidationPhaseB sq core seen) := none_carried _ rfl
theorem globalDone (job : Fin 4) : Statement (.globalDone job) := none_carried _ rfl
theorem snapshotCopyUnit (sq : Fin 64) : Statement (.snapshotCopyUnit sq) := none_carried _ rfl
theorem tempoStall (job : Fin 4) : Statement (.tempoStall job) := none_carried _ rfl
theorem seqTempoPeriodWrite (ini : Initiator) (job : Fin 4) (value : Word) : Statement (.seqTempoPeriodWrite ini job value) := none_carried _ rfl
theorem seqTempoBoundWrite (ini : Initiator) (job : Fin 4) (value : Word) : Statement (.seqTempoBoundWrite ini job value) := none_carried _ rfl
theorem reload (ini : Initiator) (sq : Fin 64) (core : CoreRef) : Statement (.reload ini sq core) := none_carried _ rfl
theorem reloadCheckDone (sq : Fin 64) (core : Fin 18) : Statement (.reloadCheckDone sq core) := none_carried _ rfl
theorem ruleReload (ini : Initiator) (sq : Fin 64) (core : CoreRef) : Statement (.ruleReload ini sq core) := none_carried _ rfl
theorem ruleReloadCheckDone (sq : Fin 64) (core : Fin 18) : Statement (.ruleReloadCheckDone sq core) := none_carried _ rfl
theorem ruleLfsrWrite (ini : Initiator) (sq : Fin 64) (core : CoreRef) (value : Word) : Statement (.ruleLfsrWrite ini sq core value) := none_carried _ rfl
theorem packetInject (sq : Fin 64) : Statement (.packetInject sq) := none_carried _ rfl
theorem routeCycle : Statement .routeCycle := none_carried _ rfl
theorem writePacket (sq : Fin 64) : Statement (.writePacket sq) := none_carried _ rfl
theorem readPacket (sq : Fin 64) (seen : List Seen) : Statement (.readPacket sq seen) := none_carried _ rfl
theorem fencePacket (sq : Fin 64) : Statement (.fencePacket sq) := none_carried _ rfl
theorem respPacket (sq : Fin 64) : Statement (.respPacket sq) := none_carried _ rfl
theorem queuePacket (sq : Fin 64) : Statement (.queuePacket sq) := none_carried _ rfl
theorem qstatPacket (sq : Fin 64) : Statement (.qstatPacket sq) := none_carried _ rfl
theorem inboxWatchdog (sq : Fin 64) : Statement (.inboxWatchdog sq) := none_carried _ rfl
theorem flip (ini : Initiator) : Statement (.flip ini) := none_carried _ rfl
theorem oldEpochDrained : Statement .oldEpochDrained := none_carried _ rfl
theorem rtrTblDataWrite (ini : Initiator) (sq : Fin 64) (value : Word) : Statement (.rtrTblDataWrite ini sq value) := none_carried _ rfl
theorem olSlotWrite (ini : Initiator) (slot : Fin 4096) (value : DWord) : Statement (.olSlotWrite ini slot value) := none_carried _ rfl
theorem squareAbsent (sq : Fin 64) : Statement (.squareAbsent sq) := none_carried _ rfl
theorem linkFrameTx (link : Fin 6) : Statement (.linkFrameTx link) := none_carried _ rfl
theorem linkFrameRx (link : Fin 6) (frame : BitVec 512) (marks : PacketMark × PacketMark) : Statement (.linkFrameRx link frame marks) := none_carried _ rfl
theorem linkResendLimit (link : Fin 6) : Statement (.linkResendLimit link) := none_carried _ rfl
theorem linkSilenceTimeout (link : Fin 6) : Statement (.linkSilenceTimeout link) := none_carried _ rfl
theorem laneFail (link : Fin 6) (lane : Fin 5) : Statement (.laneFail link lane) := none_carried _ rfl
theorem flCtlWrite (ini : Initiator) (link : Fin 6) (value : Word) : Statement (.flCtlWrite ini link value) := none_carried _ rfl
theorem linkUp (link : Fin 6) : Statement (.linkUp link) := none_carried _ rfl
theorem ropen (ini : Initiator) (sq : Fin 64) (core : Fin 18) (queue : Fin 4) : Statement (.ropen ini sq core queue) := none_carried _ rfl
theorem rclose (ini : Initiator) (sq : Fin 64) (core : Fin 18) (queue : Fin 4) : Statement (.rclose ini sq core queue) := none_carried _ rfl
theorem sopen (ini : Initiator) (sq : Fin 64) (core : Fin 18) (queue : Fin 4) : Statement (.sopen ini sq core queue) := none_carried _ rfl
theorem sclose (ini : Initiator) (sq : Fin 64) (core : Fin 18) (queue : Fin 4) : Statement (.sclose ini sq core queue) := none_carried _ rfl
theorem send (sq : Fin 64) (core : Fin 18) : Statement (.send sq core) := none_carried _ rfl
theorem recv (sq : Fin 64) (core : Fin 18) : Statement (.recv sq core) := none_carried _ rfl
theorem sendTimeout (sq : Fin 64) (core : Fin 18) : Statement (.sendTimeout sq core) := none_carried _ rfl
theorem recvTimeout (sq : Fin 64) (core : Fin 18) : Statement (.recvTimeout sq core) := none_carried _ rfl
theorem start (ini : Initiator) (sq : Fin 64) (core : Fin 18) : Statement (.start ini sq core) := none_carried _ rfl
theorem stop (ini : Initiator) (sq : Fin 64) (core : Fin 18) : Statement (.stop ini sq core) := none_carried _ rfl
theorem opNop (sq : Fin 64) (core : Fin 18) : Statement (.opNop sq core) := none_carried _ rfl
theorem opAdd (sq : Fin 64) (core : Fin 18) : Statement (.opAdd sq core) := none_carried _ rfl
theorem opSub (sq : Fin 64) (core : Fin 18) : Statement (.opSub sq core) := none_carried _ rfl
theorem opMul (sq : Fin 64) (core : Fin 18) : Statement (.opMul sq core) := none_carried _ rfl
theorem opShr (sq : Fin 64) (core : Fin 18) : Statement (.opShr sq core) := none_carried _ rfl
theorem opShl (sq : Fin 64) (core : Fin 18) : Statement (.opShl sq core) := none_carried _ rfl
theorem opMin (sq : Fin 64) (core : Fin 18) : Statement (.opMin sq core) := none_carried _ rfl
theorem opMax (sq : Fin 64) (core : Fin 18) : Statement (.opMax sq core) := none_carried _ rfl
theorem opAbs (sq : Fin 64) (core : Fin 18) : Statement (.opAbs sq core) := none_carried _ rfl
theorem opNeg (sq : Fin 64) (core : Fin 18) : Statement (.opNeg sq core) := none_carried _ rfl
theorem opMov (sq : Fin 64) (core : Fin 18) : Statement (.opMov sq core) := none_carried _ rfl
theorem opLdi (sq : Fin 64) (core : Fin 18) : Statement (.opLdi sq core) := none_carried _ rfl
theorem opCmpge (sq : Fin 64) (core : Fin 18) : Statement (.opCmpge sq core) := none_carried _ rfl
theorem opCmplt (sq : Fin 64) (core : Fin 18) : Statement (.opCmplt sq core) := none_carried _ rfl
theorem opCmpeq (sq : Fin 64) (core : Fin 18) : Statement (.opCmpeq sq core) := none_carried _ rfl
theorem opCmpnz (sq : Fin 64) (core : Fin 18) : Statement (.opCmpnz sq core) := none_carried _ rfl
theorem opEnd (sq : Fin 64) (core : Fin 18) : Statement (.opEnd sq core) := none_carried _ rfl
theorem opJmp (sq : Fin 64) (core : Fin 18) : Statement (.opJmp sq core) := none_carried _ rfl
theorem opLdw (sq : Fin 64) (core : Fin 18) : Statement (.opLdw sq core) := none_carried _ rfl
theorem opStw (sq : Fin 64) (core : Fin 18) : Statement (.opStw sq core) := none_carried _ rfl
theorem dmaStartChain (ini : Initiator) (chan : Fin 16) : Statement (.dmaStartChain ini chan) := none_carried _ rfl
theorem dmaStopChain (ini : Initiator) (chan : Fin 16) : Statement (.dmaStopChain ini chan) := none_carried _ rfl
theorem dmaDescriptor (chan : Fin 16) : Statement (.dmaDescriptor chan) := none_carried _ rfl
theorem dmaDescriptorComplete (chan : Fin 16) : Statement (.dmaDescriptorComplete chan) := none_carried _ rfl
theorem dmaTimeout (chan : Fin 16) : Statement (.dmaTimeout chan) := none_carried _ rfl
theorem taskStart : Statement .taskStart := none_carried _ rfl
theorem taskEnd (tid : Fin 4096) (fails : List (Nat × Nat)) : Statement (.taskEnd tid fails) := none_carried _ rfl
theorem waitTimeExpiry (tid : Fin 4096) : Statement (.waitTimeExpiry tid) := none_carried _ rfl
theorem taskDeadline (tid : Fin 4096) : Statement (.taskDeadline tid) := none_carried _ rfl
theorem seqRingWrite (ini : Initiator) (value : Word) : Statement (.seqRingWrite ini value) := none_carried _ rfl
theorem windowStart (temps : List Int) : Statement (.windowStart temps) := none_carried _ rfl
theorem powerSample (energy : Nat) (squares : List (Nat × Nat)) (fixed : Nat) : Statement (.powerSample energy squares fixed) := none_carried _ rfl
theorem tempSample (sq : Fin 64) (temp : Int) : Statement (.tempSample sq temp) := none_carried _ rfl
theorem dvfsRaiseComplete (sq : Fin 64) : Statement (.dvfsRaiseComplete sq) := none_carried _ rfl
theorem domainIdleEntry (dom : Fin 91) : Statement (.domainIdleEntry dom) := none_carried _ rfl
theorem domainTransitionBegin : Statement .domainTransitionBegin := none_carried _ rfl
theorem domainTransitionDone (dom : Fin 91) : Statement (.domainTransitionDone dom) := none_carried _ rfl
theorem pwrReqWrite (ini : Initiator) (value : Word) : Statement (.pwrReqWrite ini value) := none_carried _ rfl
theorem wakeRequest (dom : Fin 91) : Statement (.wakeRequest dom) := none_carried _ rfl
theorem restartPurgeDone (job : Fin 4) : Statement (.restartPurgeDone job) := none_carried _ rfl
theorem restoreStart (job : Fin 4) : Statement (.restoreStart job) := none_carried _ rfl
theorem restoreDone (job : Fin 4) (seen : List (Fin 64 × Seen)) : Statement (.restoreDone job seen) := none_carried _ rfl
theorem eccWriteback (unit : Fin 68) (group : Fin 32) (bank : Fin 16) (row : Fin 2048) (used : Option (Fin 16 × DWord × BitVec 4)) : Statement (.eccWriteback unit group bank row used) := none_carried _ rfl
theorem rowRepair (unit : Fin 68) (group : Fin 32) (bank : Fin 16) (row : Fin 2048) (bad : List Nat) (uncorr : Bool)
    (check : Option (Fin 19)) : Statement (.rowRepair unit group bank row bad uncorr check) := none_carried _ rfl
theorem sqBankreqWrite (ini : Initiator) (sq : Fin 64) (value : Word) : Statement (.sqBankreqWrite ini sq value) := none_carried _ rfl
theorem retrain (ini : Initiator) (chan : Fin 16) : Statement (.retrain ini chan) := none_carried _ rfl
theorem psramDriftCheck (drifts : List (Nat × Nat)) : Statement (.psramDriftCheck drifts) := none_carried _ rfl
theorem psramRetrainDone (chan : Fin 16) (window : Nat) : Statement (.psramRetrainDone chan window) := none_carried _ rfl
theorem psramRetrainTimeout (chan : Fin 16) : Statement (.psramRetrainTimeout chan) := none_carried _ rfl
theorem journalPageWrite : Statement .journalPageWrite := none_carried _ rfl
theorem pscJrnlWrite (ini : Initiator) (value : Word) : Statement (.pscJrnlWrite ini value) := none_carried _ rfl
theorem sessionOpen (port : Bool) (async : Bool) (tag : BitVec 16) (params : List Byte) : Statement (.sessionOpen port async tag params) := of_decide_eq_true
theorem sessionClose (port : Bool) (async : Bool) (tag : BitVec 16) (params : List Byte) : Statement (.sessionClose port async tag params) := of_decide_eq_true
theorem takeover (port : Bool) (async : Bool) (tag : BitVec 16) (params : List Byte) : Statement (.takeover port async tag params) := of_decide_eq_true
theorem setLease (port : Bool) (async : Bool) (tag : BitVec 16) (params : List Byte) : Statement (.setLease port async tag params) := of_decide_eq_true
theorem echo (port : Bool) (async : Bool) (tag : BitVec 16) (params : List Byte) : Statement (.echo port async tag params) := of_decide_eq_true
theorem portStatus (port : Bool) (async : Bool) (tag : BitVec 16) (params : List Byte) : Statement (.portStatus port async tag params) := of_decide_eq_true
theorem getIdentity (port : Bool) (async : Bool) (tag : BitVec 16) (params : List Byte) : Statement (.getIdentity port async tag params) := of_decide_eq_true
theorem getStageReports (port : Bool) (async : Bool) (tag : BitVec 16) (params : List Byte) : Statement (.getStageReports port async tag params) := of_decide_eq_true
theorem getCert (port : Bool) (async : Bool) (tag : BitVec 16) (params : List Byte) : Statement (.getCert port async tag params) := of_decide_eq_true
theorem attest (port : Bool) (async : Bool) (tag : BitVec 16) (params : List Byte) : Statement (.attest port async tag params) := of_decide_eq_true
theorem getTelemetry (port : Bool) (async : Bool) (tag : BitVec 16) (params : List Byte) : Statement (.getTelemetry port async tag params) := of_decide_eq_true
theorem getNetDigests (port : Bool) (async : Bool) (tag : BitVec 16) (params : List Byte) : Statement (.getNetDigests port async tag params) := of_decide_eq_true
theorem memRead (port : Bool) (async : Bool) (tag : BitVec 16) (params : List Byte) : Statement (.memRead port async tag params) := of_decide_eq_true
theorem memWrite (port : Bool) (async : Bool) (tag : BitVec 16) (params : List Byte) : Statement (.memWrite port async tag params) := of_decide_eq_true
theorem dmaStart (port : Bool) (async : Bool) (tag : BitVec 16) (params : List Byte) : Statement (.dmaStart port async tag params) := of_decide_eq_true
theorem graphSubmit (port : Bool) (async : Bool) (tag : BitVec 16) (params : List Byte) : Statement (.graphSubmit port async tag params) := of_decide_eq_true
theorem taskRetire (port : Bool) (async : Bool) (tag : BitVec 16) (params : List Byte) : Statement (.taskRetire port async tag params) := of_decide_eq_true
theorem taskCancel (port : Bool) (async : Bool) (tag : BitVec 16) (params : List Byte) : Statement (.taskCancel port async tag params) := of_decide_eq_true
theorem taskStatus (port : Bool) (async : Bool) (tag : BitVec 16) (params : List Byte) : Statement (.taskStatus port async tag params) := of_decide_eq_true
theorem jobStop (port : Bool) (async : Bool) (tag : BitVec 16) (params : List Byte) : Statement (.jobStop port async tag params) := of_decide_eq_true
theorem doorbellRing (port : Bool) (async : Bool) (tag : BitVec 16) (params : List Byte) : Statement (.doorbellRing port async tag params) := of_decide_eq_true
theorem seqRun (port : Bool) (async : Bool) (tag : BitVec 16) (params : List Byte) : Statement (.seqRun port async tag params) := of_decide_eq_true
theorem imageCheck (port : Bool) (async : Bool) (tag : BitVec 16) (params : List Byte) : Statement (.imageCheck port async tag params) := of_decide_eq_true
theorem squareInfo (port : Bool) (async : Bool) (tag : BitVec 16) (params : List Byte) : Statement (.squareInfo port async tag params) := of_decide_eq_true
theorem streamSet (port : Bool) (async : Bool) (tag : BitVec 16) (params : List Byte) : Statement (.streamSet port async tag params) := of_decide_eq_true
theorem streamGet (port : Bool) (async : Bool) (tag : BitVec 16) (params : List Byte) : Statement (.streamGet port async tag params) := of_decide_eq_true
theorem pwrSet (port : Bool) (async : Bool) (tag : BitVec 16) (params : List Byte) : Statement (.pwrSet port async tag params) := of_decide_eq_true
theorem pwrPins (port : Bool) (async : Bool) (tag : BitVec 16) (params : List Byte) : Statement (.pwrPins port async tag params) := of_decide_eq_true
theorem budgetSet (port : Bool) (async : Bool) (tag : BitVec 16) (params : List Byte) : Statement (.budgetSet port async tag params) := of_decide_eq_true
theorem budgetGet (port : Bool) (async : Bool) (tag : BitVec 16) (params : List Byte) : Statement (.budgetGet port async tag params) := of_decide_eq_true
theorem tripClear (port : Bool) (async : Bool) (tag : BitVec 16) (params : List Byte) : Statement (.tripClear port async tag params) := of_decide_eq_true
theorem faultRead (port : Bool) (async : Bool) (tag : BitVec 16) (params : List Byte) : Statement (.faultRead port async tag params) := of_decide_eq_true
theorem stickyRead (port : Bool) (async : Bool) (tag : BitVec 16) (params : List Byte) : Statement (.stickyRead port async tag params) := of_decide_eq_true
theorem stickyClear (port : Bool) (async : Bool) (tag : BitVec 16) (params : List Byte) : Statement (.stickyClear port async tag params) := of_decide_eq_true
theorem jobFaults (port : Bool) (async : Bool) (tag : BitVec 16) (params : List Byte) : Statement (.jobFaults port async tag params) := of_decide_eq_true
theorem fwBegin (port : Bool) (async : Bool) (tag : BitVec 16) (params : List Byte) : Statement (.fwBegin port async tag params) := of_decide_eq_true
theorem fwData (port : Bool) (async : Bool) (tag : BitVec 16) (params : List Byte) : Statement (.fwData port async tag params) := of_decide_eq_true
theorem fwEnd (port : Bool) (async : Bool) (tag : BitVec 16) (params : List Byte) : Statement (.fwEnd port async tag params) := of_decide_eq_true
theorem fwActivate (port : Bool) (async : Bool) (tag : BitVec 16) (params : List Byte) : Statement (.fwActivate port async tag params) := of_decide_eq_true
theorem fwCoreReport : Statement .fwCoreReport := none_carried _ rfl
theorem fwActivationTimeout : Statement .fwActivationTimeout := none_carried _ rfl
theorem fwStatus (port : Bool) (async : Bool) (tag : BitVec 16) (params : List Byte) : Statement (.fwStatus port async tag params) := of_decide_eq_true
theorem lcGet (port : Bool) (async : Bool) (tag : BitVec 16) (params : List Byte) : Statement (.lcGet port async tag params) := of_decide_eq_true
theorem lcTransition (port : Bool) (async : Bool) (tag : BitVec 16) (params : List Byte) : Statement (.lcTransition port async tag params) := of_decide_eq_true
theorem keyEnrol (port : Bool) (async : Bool) (tag : BitVec 16) (params : List Byte) : Statement (.keyEnrol port async tag params) := of_decide_eq_true
theorem reset (port : Bool) (async : Bool) (tag : BitVec 16) (params : List Byte) : Statement (.reset port async tag params) := of_decide_eq_true
theorem timeGet (port : Bool) (async : Bool) (tag : BitVec 16) (params : List Byte) : Statement (.timeGet port async tag params) := of_decide_eq_true
theorem timeSet (port : Bool) (async : Bool) (tag : BitVec 16) (params : List Byte) : Statement (.timeSet port async tag params) := of_decide_eq_true
theorem leaseExpiry : Statement .leaseExpiry := none_carried _ rfl
theorem usbLinkLoss (port : Bool) (reset : Bool) : Statement (.usbLinkLoss port reset) := none_carried _ rfl
theorem usbSuspend (port : Bool) (enter : Bool) (wake : Bool) : Statement (.usbSuspend port enter wake) := none_carried _ rfl
theorem vbusChange (port : Bool) (present : Bool) : Statement (.vbusChange port present) := none_carried _ rfl
theorem resultRecordAck (port : Bool) : Statement (.resultRecordAck port) := none_carried _ rfl
theorem inputRecord (port : Bool) (bytes : List Byte) : Statement (.inputRecord port bytes) := none_carried _ rfl
theorem ircDoorbell (ini : Initiator) (target : Fin 4) (source : Fin 512) : Statement (.ircDoorbell ini target source) := none_carried _ rfl
theorem ircAck (ini : Initiator) (target : Fin 4) : Statement (.ircAck ini target) := none_carried _ rfl
theorem ircEoi (ini : Initiator) (target : Fin 4) (source : Fin 512) : Statement (.ircEoi ini target source) := none_carried _ rfl
theorem clrp (ini : Initiator) (source : Fin 512) (pri : Fin 16) (en : Bool) : Statement (.clrp ini source pri en) := none_carried _ rfl
theorem ircHoldoffEnd (group : Fin 32) : Statement (.ircHoldoffEnd group) := none_carried _ rfl
theorem tcCountEvent (tc : Fin 16) : Statement (.tcCountEvent tc) := none_carried _ rfl
theorem tioEdge (pin : Fin 16) (level : Bool) (samples : Nat) : Statement (.tioEdge pin level samples) := none_carried _ rfl
theorem tcCapRead (ini : Initiator) (tc : Fin 16) (wide : Bool) : Statement (.tcCapRead ini tc wide) := none_carried _ rfl
theorem clear (ini : Initiator) (tc : Fin 16) (en : Bool) : Statement (.clear ini tc en) := none_carried _ rfl
theorem tcCntWrite (ini : Initiator) (tc : Fin 16) (value : Word) : Statement (.tcCntWrite ini tc value) := none_carried _ rfl
theorem tcCmpWrite (ini : Initiator) (tc : Fin 16) (value : Word) : Statement (.tcCmpWrite ini tc value) := none_carried _ rfl
theorem timeRefPresent : Statement .timeRefPresent := none_carried _ rfl
theorem timeRefLost : Statement .timeRefLost := none_carried _ rfl
theorem timebasePllLock : Statement .timebasePllLock := none_carried _ rfl
theorem ppsEdge : Statement .ppsEdge := none_carried _ rfl
theorem ppsAbsent : Statement .ppsAbsent := none_carried _ rfl
theorem timebaseSlewTick : Statement .timebaseSlewTick := none_carried _ rfl
theorem tbSetWrite (ini : Initiator) (value : DWord) (wide : Bool) : Statement (.tbSetWrite ini value wide) := none_carried _ rfl
theorem tbPpsRead (ini : Initiator) (wide : Bool) : Statement (.tbPpsRead ini wide) := none_carried _ rfl
theorem stageS1 : Statement .stageS1 := none_carried _ rfl
theorem stageS2 (unlocked : List Nat) (pll : Option Nat) : Statement (.stageS2 unlocked pll) := none_carried _ rfl
theorem stageS3 (finds : List MarchFind) (psram : Option (Nat × Nat)) : Statement (.stageS3 finds psram) := none_carried _ rfl
theorem stageS4 : Statement .stageS4 := none_carried _ rfl
theorem stageS5 (fails : List (Nat × Nat)) : Statement (.stageS5 fails) := none_carried _ rfl
theorem stageS6 (windows : List (List Nat)) : Statement (.stageS6 windows) := none_carried _ rfl
theorem stageS7 (fails : List (List Nat)) : Statement (.stageS7 fails) := none_carried _ rfl
theorem linkTrainingTimeout (link : Fin 6) : Statement (.linkTrainingTimeout link) := none_carried _ rfl
theorem stageS8 : Statement .stageS8 := none_carried _ rfl
theorem go (ini : Initiator) (link : Fin 6) (lane : Fin 4) : Statement (.go ini link lane) := none_carried _ rfl
theorem laneRetrainDone (link : Fin 6) (ok : Bool) : Statement (.laneRetrainDone link ok) := none_carried _ rfl
theorem laneRetrainTimeout (link : Fin 6) : Statement (.laneRetrainTimeout link) := none_carried _ rfl
theorem laneErrorWindow (link : Fin 6) (lane : Fin 4) (errors : Nat) : Statement (.laneErrorWindow link lane errors) := none_carried _ rfl
theorem supplyStart (vinA : Nat) (vinB : Nat) (pins : Fin 8) (us : Nat) : Statement (.supplyStart vinA vinB pins us) := none_carried _ rfl
theorem supplySwitch (vinA : Nat) (vinB : Nat) : Statement (.supplySwitch vinA vinB) := none_carried _ rfl
theorem supplyReturn : Statement .supplyReturn := none_carried _ rfl
theorem supplyOvervoltage (input : Bool) (mv : Nat) : Statement (.supplyOvervoltage input mv) := none_carried _ rfl
theorem supplyReconnect (input : Bool) (mv : Nat) : Statement (.supplyReconnect input mv) := none_carried _ rfl
theorem inputShort (input : Bool) : Statement (.inputShort input) := none_carried _ rfl
theorem brownout : Statement .brownout := none_carried _ rfl
theorem resetNAssert : Statement .resetNAssert := none_carried _ rfl
theorem resetNRelease : Statement .resetNRelease := none_carried _ rfl
theorem mgtTransfer (addr : Fin 128) (read : Bool) (len : Nat) (bytes : List Byte) (stop : Bool) : Statement (.mgtTransfer addr read len bytes stop) := none_carried _ rfl
theorem mgtSclTimeout : Statement .mgtSclTimeout := none_carried _ rfl
theorem csiPacket (csi : Fin 8) (channel : Fin 4) (hdrBad : Bool) (crcBad : Bool) (more : Bool) (body : CsiBody) : Statement (.csiPacket csi channel hdrBad crcBad more body) := none_carried _ rfl
theorem csiEnable (ini : Initiator) (csi : Fin 8) (value : Word) : Statement (.csiEnable ini csi value) := none_carried _ rfl
theorem runningTempoLate (job : Fin 4) : Statement (.runningTempoLate job) := none_carried _ rfl
theorem bankGroupTransitionDone (sq : Fin 64) (group : Fin 28) : Statement (.bankGroupTransitionDone sq group) := none_carried _ rfl
theorem malformedCommand (port : Bool) (raw : List Byte) : Statement (.malformedCommand port raw) := none_carried _ rfl
theorem replyCollected (port : Bool) : Statement (.replyCollected port) := none_carried _ rfl
theorem notificationDelivered (port : Bool) : Statement (.notificationDelivered port) := none_carried _ rfl
theorem lossOfBothSupplies (vinA : Nat) (vinB : Nat) : Statement (.lossOfBothSupplies vinA vinB) := none_carried _ rfl
theorem supplyRangeChange (vinA : Nat) (vinB : Nat) : Statement (.supplyRangeChange vinA vinB) := none_carried _ rfl
theorem linkTrainingRequest (link : Fin 6) : Statement (.linkTrainingRequest link) := none_carried _ rfl
theorem waitTimeLeadReached (tid : Fin 4096) : Statement (.waitTimeLeadReached tid) := none_carried _ rfl

end Sys2Proof.Laws.Params
end

