-- ==== Sys2Proof/Laws/Residue.lean ====
section
/-! SUPPORT. A lane that works exactly passes its checks: the residues of products with a shift, of sums, of differences and of a
closed slot agree (09/R309). -/

namespace Sys2Proof.Machine

/-- A residue is the one natural number below 7 that its value is congruent to. -/
theorem r7_cast (x : Int) : ((r7 x : Nat) : Int) = x % 7 := Int.toNat_of_nonneg (Int.emod_nonneg x (by decide))

theorem r7_lt (x : Int) : r7 x < 7 := by
  have := r7_cast x; have := Int.emod_lt_of_pos x (show (0 : Int) < 7 by decide); omega

theorem r7_add (x y : Int) : r7 (x + y) = (r7 x + r7 y) % 7 := by
  have := r7_cast x; have := r7_cast y; have := r7_cast (x + y); omega

theorem r7_mul (x y : Int) : r7 (x * y) = r7 x * r7 y % 7 := by
  have h : ((r7 (x * y) : Nat) : Int) = ((r7 x * r7 y % 7 : Nat) : Int) := by
    push_cast; rw [r7_cast, r7_cast, r7_cast]; exact Int.mul_emod ..
  exact_mod_cast h

theorem checkAdd_exact (x y : Int) : checkAdd x y (x + y) = true := by simp [checkAdd, r7_add]

theorem checkSub_exact (x y : Int) : checkSub x y (x - y) = true := by
  have := r7_cast x; have := r7_cast y; have := r7_cast (x - y); have := r7_lt y
  simp only [checkSub, beq_iff_eq]; omega

theorem checkMulShift_exact (a b : Int) (s : Nat) : checkMulShift a b (a * b / 2 ^ s) (a * b % 2 ^ s) s = true := by
  have h := congrArg r7 (Int.mul_ediv_add_emod (a * b) (2 ^ s)).symm
  rw [r7_add, r7_mul, r7_mul, Nat.mul_comm (r7 (2 ^ s))] at h
  simpa [checkMulShift] using h

theorem checkSlotClose_exact (parts : List Int) : checkSlotClose parts.sum parts = true := by
  have : r7 parts.sum = (parts.map r7).sum % 7 := by
    induction parts with
    | nil => rfl
    | cons x xs ih => rw [List.sum_cons, r7_add, ih]; simp
  simp [checkSlotClose, this]

end Sys2Proof.Machine
end

