-- ==== Sys2Proof/Tests/Slice0.lean ====
section
/-! SUPPORT. Witnesses: for every statement, and for each clause of it, a concrete state and operands that meet all its
hypotheses. Then the worked examples of the spec, and one ill-formed command for each check of WellFormed. -/

namespace Sys2Proof.Tests

open Sys2Proof Sys2Proof.Machine

set_option maxRecDepth 100000
set_option Elab.async false

/-- A decidable hypothesis that holds, by evaluation. -/
theorem met {p : Prop} [Decidable p] (h : decide p = true := by decide +kernel) : p := of_decide_eq_true h

/-- A state with an empty queue over a module. -/
def st (h : Hw) : State := { pending := [], hw := h }

/-- The register RT_FLIP_AT and its high word. -/
def flipAt : Addr := BitVec.ofNat 40 (blockBase 7 + 8)
def flipAtHi : Addr := BitVec.ofNat 40 (blockBase 7 + 12)

/-- Square 0 serves in the module of the defaults. -/
theorem serves0 : ({} : Hw).sqServes 0 := by unfold Hw.sqServes; decide +kernel

/-- A job on square 0 whose tempo runs. -/
def jobOn0 : List (Nat × Job) := [(0, { active := true, mask := 1, released := true })]

/-- Slot 0 of square 0 with a given content. -/
def slot0 (k : Slot) : Hw := { slot := [(0, k)] }

theorem slot0_writable (k : Slot) : (slot0 k).slotWritable .other 0 (.logical 0) := by
  have h : (slot0 k).sq = [] := rfl
  have d : (slot0 k).power = {} := rfl
  simp only [Hw.slotWritable, Hw.sqServes, Hw.slotNamed, Hw.sqOf, Hw.isOn, Hw.domOf, h, d]
  decide

/-- An empty table image, and a rule image that holds only a seed. -/
def emptyTable : Image := { base := 0, bytes := [] }
def seedRule : Image := { base := 0, bytes := List.replicate 20 0 ++ [1] }

/-- Core 0 of square 0 runs a program of two words whose first is `u`; `c` gives its queues and channels. -/
def prog (u : Uop) (c : LCore := {}) (p : Prog := {}) : Hw :=
  { banks := { mem := memWriteN [] 0x3000020 (leBytes 4 (uopEncode u).toNat) }
    core := [(0, { c with cp := { p with run := true, len := 2 } })] }

/-- A WRITE of square 63 to unit 0x300000 (square memory), a READ, a FENCE, a QUEUE message, a QSTAT and a data RESP. -/
def aWrite : Packet := mkWrite {} 0 63 0x300000 255 (leBytes 16 7)
def aRead : Packet := mkRead {} 0 63 0x300000 1 9 0x3FFFFF 200
def aFence : Packet := mkFence {} 0 63 255 1 1 9 0x3FFFFF 200
def aQueue : Packet := mkQueue {} 0 0 69 255 200 3 77
def aQstat : Packet := mkQstat {} 0 0 5 2 0 9 4 255
def aResp : Packet := mkRespData {} 0 63 0x300000 (leBytes 16 9)
def inboxOf (q : Nat) (p : Packet) (k : Square := {}) : Hw := { sq := [(q, { k with inbox := [{ pkt := p, slot := 0, counted := false }] })] }

/-- A running job of slot 0 on square 0. -/
def job0 (k : Job := {}) : List (Nat × Job) := [(0, { k with active := true, mask := 1, released := true })]

/-- An event packet of one event, and a square that holds it under a binding that reaches nothing. -/
def anEvent : Packet := mkPacket (mkHdr 0 0 0 0 0 0 0 0 0) (evPayload [(3, 200)])
def distHw : Hw :=
  { banks := { mem := memWriteN [] (sqMem 0) [0, 0, 0, 0, 0, 0, 4, 0, 0, 0, 0, 0, 0, 0, 0, 128] }, jobs := job0 { phase := 1 }
    sq := [(0, { inbox := [{ pkt := anEvent, slot := 0, counted := true }], ledgerT := some 0, root := some [0, 0, 0, 0, 1] })] }

/-- A sample of neuron 16383 of core 3. -/
def aSample : Sample := ⟨3, 16383, [], [[]], []⟩

/-- The module after bring-up, with an owner, quiet on both ports. -/
def kzHw (o : Option Bool := some false) : Hw :=
  { bring := { stage := 8, last := 8, s0Done := true }, kz := { owner := o, portA := { up := true }, portB := { up := true } } }

/-- A task descriptor: type, class and flags, task number, parameter bytes. -/
def descOf (ty flags tid : Nat) (param : List Byte) : List Byte :=
  let d := leBytes 1 ty ++ leBytes 1 flags ++ leBytes 2 tid ++ List.replicate 28 0 ++ param
  d ++ List.replicate (64 - d.length) 0

/-- The quiet module without a life-cycle transition yet. -/
def blankHw : Hw := { kzHw with fuses := { lcCount := 0 } }

/-- A transfer with a good header: opcode, tag, length word, parameters and their CRC. -/
def transfer (op tag n : Nat) (ps : List Byte) : List Byte :=
  let h := leBytes 2 0x4B5A ++ [1, 0] ++ leBytes 2 op ++ leBytes 2 tag ++ leBytes 4 n ++ leBytes 2 0
  h ++ leBytes 2 (crc16 h) ++ ps

/-- A descriptor at 0x1_0000_0040 that moves 16 bytes within PSRAM, and the bytes it moves. -/
def descHw : Hw :=
  { banks := { mem := memWriteN (memWriteN [] 0x100000040 (leBytes 8 0x100001000 ++ leBytes 8 0x100002000 ++ leBytes 8 16)) 0x100001000 [1, 2, 3] }
    dma := [(15, { run := true, cur := 0x100000040 })] }

/-- A descriptor in progress at 0x1_0000_0040 with its bytes written. -/
def doneDesc : DmaDesc :=
  { parseDesc 0x100000040 [] with len := 4, written := 4, nextV := true, next := 0x100000080 }

/-- An input record of one event of neuron 5 of group 9. -/
def inRec : List Byte :=
  let b := leBytes 2 0x4E49 ++ [1, 0, 0, 0] ++ leBytes 6 0 ++ leBytes 4 1 ++ leBytes 8 (5 + 3 * 2 ^ 16 + 9 * 2 ^ 24)
  b ++ leBytes 4 (crc32 b)

/-- Nothing is lost by the use of a bank group of a square where no group has been switched. -/
theorem kept {h : Hw} {q : Nat} (e : (h.sqOf q).banks = []) (a : Nat) : h.placeKept q a := by
  intro g _
  simp only [Hw.bankKept, Square.bankOf, e, mget]
  split <;> constructor <;> intro x <;> cases x

/-- A rule image whose one range consolidates line 7 with record 2, and square 0 in phase B with it. -/
def consRule : Image := { base := 0, bytes := [33, 0, 0, 0] ++ List.replicate 252 0 ++ [7, 0, 0, 0, 8, 0, 0, 0, 2, 0, 0, 0, 0, 32] }
def phaseBHw : Hw :=
  { banks := { mem := memWriteN (memWriteN [] (recordAt 0 2 + 128) [9, 8]) (synTier 0 + 128 * 7 + 3) [5] }
    jobs := job0 { phase := 3 }, slot := [(15, { phaseB := true, rule := some consRule })], sq := [(0, { usedSlots := [(2, 2)] })] }

/-- A core of square 0 with an empty table in force, and no unit of it due. -/
def closeHw : Hw :=
  { jobs := job0 { phase := 2, closedSq := [0], injected := true, boundNext := 7, tempo := 5 }, slot := [(0, { table := some emptyTable })] }

theorem close_quiet : ∀ x : Fin 64, ((closeHw).jobOf 0).mask.testBit x = true → ((closeHw).sqOf x).inbox = []
    ∧ ((closeHw).sqOf x).flt.shadowOut = false ∧ ((closeHw).sqOf x).flt.pend = []
    ∧ ∀ (l : Fin 18) img, ((closeHw).lslot x l).table = some img →
      ((List.range 16).any fun m => modelAlways img.bytes m) = false ∧ mget [] ((closeHw).lslot x l).due (5 % 8) = []
      ∧ (∀ i, mget 0 ((closeHw).lslot x l).modSum i = 0) ∧ (∀ b : Fin 4, (closeHw).sramAt x (.due l (5 % 8) b) = none)
      ∧ (closeHw).recFault x l (5 % 16384) = none := by
  intro x hx
  have hx0 : x = 0 := by revert hx; revert x; decide +kernel
  subst hx0
  refine ⟨rfl, rfl, rfl, fun l img e => ?_⟩
  have h0 : ∀ l : Fin 18, ((closeHw).lslot (0 : Fin 64) l).table.isSome = true → l = 0 := by decide +kernel
  have hl := h0 l (by rw [e]; rfl)
  subst hl
  have hi : some emptyTable = some img := e
  cases hi
  exact ⟨by decide +kernel, rfl, fun _ => rfl, by decide +kernel, by decide +kernel⟩

/-- A neuron record with a membrane, a count, a trace and a sum in slot 4, and a table whose channel 0 has gain 3. -/
def updHw : Hw := { banks := { mem := memWriteN [] 0x20000A0 ([0, 1, 0, 90, 5, 100] ++ List.replicate 14 0 ++ [0xFE, 0xFF, 0xFF]) } }
def updTables : Tables := { img := List.replicate 0x1000 0 ++ [3], rule := none }

/-- A port in a job, at line 1 of a frame in MODE 0 with 2 pixels a line, with a reference frame or without; its one tile. -/
def camTile : Nat := 1 * 2 ^ 22 + 3 * 2 ^ 29 + 9 * 2 ^ 36
def camHw (ref : Bool) : Hw :=
  { csi := [(7, { en := true, vc := 3, inFrame := true, line := 1, width := 1, height := 1, joined := some 1, refOk := ref, th := 4,
                  graded := true, gshift := 1, refPix := [(2, 4), (3, 5)], ntile := 1, tile := [(0, BitVec.ofNat 64 camTile)] })]
    jobs := [(1, { active := true })] }
def camDiff (x : Nat) : Nat := if x = 0 then 3 else 1018

theorem cam_diff {ref : Bool} : ∀ x (v : BitVec 10), [(7 : BitVec 10), 1023][x]? = some v → camDiff x =
    (if mget 0 ((camHw ref).csiOf 7).refPix (1 * (1 + 1) + x) ≤ v.toNat then v.toNat - mget 0 ((camHw ref).csiOf 7).refPix (1 * (1 + 1) + x)
     else mget 0 ((camHw ref).csiOf 7).refPix (1 * (1 + 1) + x) - v.toNat) := by
  intro x v h
  match x, h with
  | 0, h => cases h; cases ref <;> rfl
  | 1, h => cases h; cases ref <;> rfl
  | _ + 2, h => cases h

theorem cam_same : ∀ x (v : BitVec 10), [(7 : BitVec 10)][x]? = some v → 3 =
    (if mget 0 ((camHw true).csiOf 7).refPix (1 * (1 + 1) + x) ≤ v.toNat then v.toNat - mget 0 ((camHw true).csiOf 7).refPix (1 * (1 + 1) + x)
     else mget 0 ((camHw true).csiOf 7).refPix (1 * (1 + 1) + x) - v.toNat) := by
  intro x v h
  match x, h with
  | 0, h => cases h; rfl
  | _ + 1, h => cases h

theorem cam_small : ∀ x (v : BitVec 10), x ≤ 1 → [(7 : BitVec 10)][x]? = some v → 3 < 4 := fun _ _ _ _ => by decide

theorem cam_other : ∀ y (w : BitVec 10), y ≤ 1 → y ≠ 1 → [(7 : BitVec 10), 1023][y]? = some w → camDiff y < 4 := by
  intro y w h n _
  have e : y = 0 := by omega
  subst e
  decide

/-! ### Witnesses of the statements -/

/-- IdleStep: an empty queue with nothing owed on the ports. -/
theorem test_wit_idle (H : Obligations.IdleStep) :
    type_of% (H (st {}) rfl rfl rfl rfl rfl rfl rfl rfl) :=
    H (st {}) rfl rfl rfl rfl rfl rfl rfl rfl

/-- StepKeepsMemoryForm: a register write over a memory that lists one byte. -/
theorem test_wit_memform (H : Obligations.StepKeepsMemoryForm) :
    type_of% (H { st { banks := { mem := [(5, 1)] } } with pending := [.pscJrnlWrite .other 1] } _ (by decide) rfl) :=
    H { st { banks := { mem := [(5, 1)] } } with pending := [.pscJrnlWrite .other 1] } _ (by decide) rfl

/-- MemoryReadsBack: two bytes across a listed byte. -/
theorem test_wit_readsback (H : Obligations.MemoryReadsBack) :
    type_of% (H [(5, 1)] 4 [7, 0] (by decide)) :=
    H [(5, 1)] 4 [7, 0] (by decide)

/-- HalfReads: RT_FLIP_AT read by its low word. -/
theorem test_wit_halflow (H : Obligations.HalfReads) :
    type_of% ((H (.core 3) flipAt flipAtHi 0 (st {}) rfl met met met met).1 met) :=
    (H (.core 3) flipAt flipAtHi 0 (st {}) rfl met met met met).1 met

/-- HalfReads: its high word, latched. -/
theorem test_wit_halfhi1 (H : Obligations.HalfReads) :
    type_of% ((H (.dma 15) flipAt flipAtHi (5 + 3 * 2 ^ 32) (st
    { (({} : Hw).setHalf (.dma 15) flipAt.toNat { latch := some 9 }) with rt := { flipAt := 5 + 3 * 2 ^ 32 } }) rfl met
    met met met).2.1 met 9 met) :=
    (H (.dma 15) flipAt flipAtHi (5 + 3 * 2 ^ 32) (st
    { (({} : Hw).setHalf (.dma 15) flipAt.toNat { latch := some 9 }) with rt := { flipAt := 5 + 3 * 2 ^ 32 } }) rfl met
    met met met).2.1 met 9 met

/-- HalfReads: its high word, not latched. -/
theorem test_wit_halfhi2 (H : Obligations.HalfReads) :
    type_of% ((H .debug flipAt flipAtHi (5 + 3 * 2 ^ 32) (st { rt := { flipAt := 5 + 3 * 2 ^ 32 } }) rfl met met met met).2.2 met
    met) :=
    (H .debug flipAt flipAtHi (5 + 3 * 2 ^ 32) (st { rt := { flipAt := 5 + 3 * 2 ^ 32 } }) rfl met met met met).2.2 met
    met

/-- HalfWrites: the low word of RT_FLIP_AT, held. -/
theorem test_wit_halfw1 (H : Obligations.HalfWrites) :
    type_of% ((H .security flipAt flipAtHi 0 7 (st {}) rfl met met met met).1 met) :=
    (H .security flipAt flipAtHi 0 7 (st {}) rfl met met met met).1 met

/-- HalfWrites: the high word after the low one. -/
theorem test_wit_halfw2 (H : Obligations.HalfWrites) :
    type_of% ((H .security flipAt flipAtHi 0 7 (st (({} : Hw).setHalf .security flipAt.toNat { low := some 4 })) rfl met met met
    met).2 met _ rfl) :=
    (H .security flipAt flipAtHi 0 7 (st (({} : Hw).setHalf .security flipAt.toNat { low := some 4 })) rfl met met met
    met).2 met _ rfl

/-- RegisterWrites: DMA_TMO while the hub domain is ON. -/
theorem test_wit_regw2 (H : Obligations.RegisterWrites) :
    type_of% ((H .other 0 (st {})).2.1 met) :=
    (H .other 0 (st {})).2.1 met

/-- RegisterWrites: RT_FLIP_AT. -/
theorem test_wit_regw1 (H : Obligations.RegisterWrites) :
    type_of% ((H .other 0x3000000000005 (st {})).1) :=
    (H .other 0x3000000000005 (st {})).1

/-- RegisterWrites: PSC_RTCFG. -/
theorem test_wit_regw3 (H : Obligations.RegisterWrites) :
    type_of% ((H .other 0x00070009 (st {})).2.2.1) :=
    (H .other 0x00070009 (st {})).2.2.1

/-- RegisterWrites: the first address past the local ones. -/
theorem test_wit_regw4 (H : Obligations.RegisterWrites) :
    type_of% ((H .other 1 (st {})).2.2.2 0x200100000 met) :=
    (H .other 1 (st {})).2.2.2 0x200100000 met

/-- TempoPeriodWrite: a value at the upper limit, with no job. -/
theorem test_wit_period1 (H : Obligations.TempoPeriodWrite) :
    type_of% ((H .other 3 100000000 (st {})).2 met met met) :=
    (H .other 3 100000000 (st {})).2 met met met

/-- TempoPeriodWrite: a value past the upper limit. -/
theorem test_wit_period2 (H : Obligations.TempoPeriodWrite) :
    type_of% ((H .other 3 100000001 (st {})).1 (.inr (.inr met))) :=
    (H .other 3 100000001 (st {})).1 (.inr (.inr met))

/-- TempoPeriodWrite: a running job. -/
theorem test_wit_period3 (H : Obligations.TempoPeriodWrite) :
    type_of% ((H .other 0 25000 (st { jobs := [(0, { active := true })] })).1 (.inl met)) :=
    (H .other 0 25000 (st { jobs := [(0, { active := true })] })).1 (.inl met)

/-- TempoPeriodWrite: a value below the lower limit. -/
theorem test_wit_period4 (H : Obligations.TempoPeriodWrite) :
    type_of% ((H .other 0 24999 (st {})).1 (.inr (.inl met))) :=
    (H .other 0 24999 (st {})).1 (.inr (.inl met))

/-- TempoBoundWrite: a bound for a running job. -/
theorem test_wit_bound1 (H : Obligations.TempoBoundWrite) :
    type_of% ((H .other 1 1 (st { jobs := [(1, { active := true })] })).1 met) :=
    (H .other 1 1 (st { jobs := [(1, { active := true })] })).1 met

/-- TempoBoundWrite: a zero. -/
theorem test_wit_bound2 (H : Obligations.TempoBoundWrite) :
    type_of% ((H .other 1 0x10000 (st {})).2 met) :=
    (H .other 1 0x10000 (st {})).2 met

/-- SquarePolicyWrite: a loaded square. -/
theorem test_wit_policy1 (H : Obligations.SquarePolicyWrite) :
    type_of% ((H .other 63 1 (st { sq := [(63, { loaded := true })] }) (by unfold Hw.sqServes; decide +kernel)).1 met) :=
    (H .other 63 1 (st { sq := [(63, { loaded := true })] }) (by unfold Hw.sqServes; decide +kernel)).1 met

/-- SquarePolicyWrite: ROUTE_AROUND in a square that is not loaded. -/
theorem test_wit_policy2 (H : Obligations.SquarePolicyWrite) :
    type_of% ((H .other 0 1 (st {}) serves0).2 met met) :=
    (H .other 0 1 (st {}) serves0).2 met met

/-- SquarePolicyWrite: REMAP in a square under ROUTE_AROUND. -/
theorem test_wit_policy3 (H : Obligations.SquarePolicyWrite) :
    type_of% ((H .other 0 0 (st { sq := [(0, { policy := true })] }) (by unfold Hw.sqServes; decide +kernel)).2 met met) :=
    (H .other 0 0 (st { sq := [(0, { policy := true })] }) (by unfold Hw.sqServes; decide +kernel)).2 met met

/-- ReloadWrites: RELOAD while a check runs. -/
theorem test_wit_reload1 (H : Obligations.ReloadWrites) :
    type_of% ((H .other 0 (.logical 0) 0 (st (slot0 { checking := true })) (slot0_writable _) _ _ rfl rfl).1 met) :=
    (H .other 0 (.logical 0) 0 (st (slot0 { checking := true })) (slot0_writable _) _ _ rfl rfl).1 met

/-- ReloadWrites: a table image one byte past the end of square memory. -/
theorem test_wit_reload2 (H : Obligations.ReloadWrites) :
    type_of% ((H .other 0 (.logical 0) 0 (st (slot0 { tblBase := 0x200000 - tableSize + 1 })) (slot0_writable _) _ _ rfl rfl).2.1
    met met) :=
    (H .other 0 (.logical 0) 0 (st (slot0 { tblBase := 0x200000 - tableSize + 1 })) (slot0_writable _) _ _ rfl rfl).2.1
    met met

/-- ReloadWrites: a table image that ends where square memory does. -/
theorem test_wit_reload3 (H : Obligations.ReloadWrites) :
    type_of% ((H .other 0 (.logical 0) 0 (st (slot0 { tblBase := 0x200000 - tableSize })) (slot0_writable _) _ _ rfl rfl).2.2.2.1
    met met met met met) :=
    (H .other 0 (.logical 0) 0 (st (slot0 { tblBase := 0x200000 - tableSize })) (slot0_writable _) _ _ rfl rfl).2.2.2.1
    met met met met met

/-- ReloadWrites: RULE_RELOAD while a check runs. -/
theorem test_wit_reload4 (H : Obligations.ReloadWrites) :
    type_of% ((H .other 0 (.logical 0) 0 (st (slot0 { rChecking := true })) (slot0_writable _) _ _ rfl rfl).2.2.2.2.1 met) :=
    (H .other 0 (.logical 0) 0 (st (slot0 { rChecking := true })) (slot0_writable _) _ _ rfl rfl).2.2.2.2.1 met

/-- ReloadWrites: a rule image at the start of square memory. -/
theorem test_wit_reload5 (H : Obligations.ReloadWrites) :
    type_of% ((H .other 0 (.logical 0) 0 (st (slot0 {})) (slot0_writable _) _ _ rfl rfl).2.2.2.2.2.2.2.1 met met met met met) :=
    (H .other 0 (.logical 0) 0 (st (slot0 {})) (slot0_writable _) _ _ rfl rfl).2.2.2.2.2.2.2.1 met met met met met

/-- ReloadWrites: RULE_LFSR of a core in no job. -/
theorem test_wit_reload6 (H : Obligations.ReloadWrites) :
    type_of% (((H .other 0 (.logical 0) 5 (st (slot0 {})) (slot0_writable _) _ _ rfl rfl).2.2.2.2.2.2.2.2.1 met met).2 met) :=
    ((H .other 0 (.logical 0) 5 (st (slot0 {})) (slot0_writable _) _ _ rfl rfl).2.2.2.2.2.2.2.2.1 met met).2 met

/-- ReloadWrites: RULE_LFSR with zero. -/
theorem test_wit_reload7 (H : Obligations.ReloadWrites) :
    type_of% ((H .other 0 (.logical 0) 0 (st (slot0 {})) (slot0_writable _) _ _ rfl rfl).2.2.2.2.2.2.2.2.2 (.inr rfl)) :=
    (H .other 0 (.logical 0) 0 (st (slot0 {})) (slot0_writable _) _ _ rfl rfl).2.2.2.2.2.2.2.2.2 (.inr rfl)

/-- ReloadWrites: RULE_LFSR of a core in a job. -/
theorem test_wit_reload8 (H : Obligations.ReloadWrites) :
    type_of% ((H .other 0 (.logical 0) 7 (st { slot0 {} with jobs := jobOn0 })
    (by unfold Hw.slotWritable Hw.sqServes Hw.slotNamed; exact ⟨by decide +kernel, by decide +kernel, by decide +kernel, rfl⟩)
    _ _ rfl rfl).2.2.2.2.2.2.2.2.2 (.inl met)) :=
    (H .other 0 (.logical 0) 7 (st { slot0 {} with jobs := jobOn0 })
    (by unfold Hw.slotWritable Hw.sqServes Hw.slotNamed; exact ⟨by decide +kernel, by decide +kernel, by decide +kernel, rfl⟩)
    _ _ rfl rfl).2.2.2.2.2.2.2.2.2 (.inl met)

/-- ReloadWrites: RELOAD through the physical-slot window of a control core. -/
theorem test_wit_reload9 (H : Obligations.ReloadWrites) :
    type_of% ((H (.core 0) 0 (.slot 0) 0 (st (slot0 {}))
    (by unfold Hw.slotWritable Hw.sqServes Hw.slotNamed; exact ⟨by decide +kernel, by decide +kernel, by decide +kernel, rfl⟩)
    _ _ rfl rfl).2.2.2.1 met met met met met) :=
    (H (.core 0) 0 (.slot 0) 0 (st (slot0 {}))
    (by unfold Hw.slotWritable Hw.sqServes Hw.slotNamed; exact ⟨by decide +kernel, by decide +kernel, by decide +kernel, rfl⟩)
    _ _ rfl rfl).2.2.2.1 met met met met met

/-- ReloadChecksEnd: an image that fails its check, being short. -/
theorem test_wit_check1 (H : Obligations.ReloadChecksEnd) :
    type_of% (((H 0 0 { base := 0, bytes := [] } (st
    { slot0 { checking := true, stagedT := some { base := 0, bytes := [] }, tEcc := true } with sq := [(0, { flt := { nsnap := [(0, 0)] } })] })
    met met).1 met met met _ rfl _ rfl).1 met) :=
    ((H 0 0 { base := 0, bytes := [] } (st
    { slot0 { checking := true, stagedT := some { base := 0, bytes := [] }, tEcc := true } with sq := [(0, { flt := { nsnap := [(0, 0)] } })] })
    met met).1 met met met _ rfl _ rfl).1 met

/-- ReloadChecksEnd: a rule image read through an uncorrectable word. -/
theorem test_wit_check4 (H : Obligations.ReloadChecksEnd) :
    type_of% (((H 0 0 { base := 0, bytes := [] } (st (slot0
    { rChecking := true, stagedR := some { base := 0, bytes := [] }, rEcc := true })) met met).2 met met met _ rfl _
    rfl).1 met) :=
    ((H 0 0 { base := 0, bytes := [] } (st (slot0
    { rChecking := true, stagedR := some { base := 0, bytes := [] }, rEcc := true })) met met).2 met met met _ rfl _
    rfl).1 met

/-- RouteTables: OLD_BUSY set. -/
theorem test_wit_flip1 (H : Obligations.RouteTables) :
    type_of% ((H .other 0 0 (st { rt := { oldBusy := true } })).1 (.inl rfl)) :=
    (H .other 0 0 (st { rt := { oldBusy := true } })).1 (.inl rfl)

/-- RouteTables: RT_FLIP_AT names a running job. -/
theorem test_wit_flip2 (H : Obligations.RouteTables) :
    type_of% ((H .other 0 0 (st { jobs := jobOn0 })).2.1 met met met) :=
    (H .other 0 0 (st { jobs := jobOn0 })).2.1 met met met

/-- RouteTables: no job runs. -/
theorem test_wit_flip3 (H : Obligations.RouteTables) :
    type_of% ((H .other 0 0 (st {})).2.2.1 met met met) :=
    (H .other 0 0 (st {})).2.2.1 met met met

/-- RouteTables: no packet of the other version is left. -/
theorem test_wit_flip4 (H : Obligations.RouteTables) :
    type_of% ((H .other 0 0 (st { rt := { oldBusy := true } })).2.2.2.1 met met) :=
    (H .other 0 0 (st { rt := { oldBusy := true } })).2.2.2.1 met met

/-- RouteTables: an address that names no table. -/
theorem test_wit_tbl1 (H : Obligations.RouteTables) :
    type_of% (((H .other 0 5 (st { sq := [(0, { rt := { tblAddr := 0xFFFFFFFF } })] })).2.2.2.2 met _ rfl).1 met) :=
    ((H .other 0 5 (st { sq := [(0, { rt := { tblAddr := 0xFFFFFFFF } })] })).2.2.2.2 met _ rfl).1 met

/-- RouteTables: the version in force. -/
theorem test_wit_tbl2 (H : Obligations.RouteTables) :
    type_of% (((H .other 0 5 (st { sq := [(0, { rt := { tblAddr := 0 } })] })).2.2.2.2 met _ rfl).2.1 met (.inl met)) :=
    ((H .other 0 5 (st { sq := [(0, { rt := { tblAddr := 0 } })] })).2.2.2.2 met _ rfl).2.1 met (.inl met)

/-- RouteTables: the last square entry of the idle version. -/
theorem test_wit_tbl3 (H : Obligations.RouteTables) :
    type_of% (((H .other 0 0x1FFF (st { sq := [(0, { rt := { tblAddr := 0x4000 + 63 } })] })).2.2.2.2 met _ rfl).2.2.1 met met met
    met) :=
    ((H .other 0 0x1FFF (st { sq := [(0, { rt := { tblAddr := 0x4000 + 63 } })] })).2.2.2.2 met _ rfl).2.2.1 met met met
    met

/-- RouteTables: a multicast entry of the idle version. -/
theorem test_wit_tbl4 (H : Obligations.RouteTables) :
    type_of% (((H .other 0 0x7FFFFFF (st { sq := [(0, { rt := { tblAddr := 0x10000 + 0x4000 + 0x3FFF } })] })).2.2.2.2 met _
    rfl).2.2.2.2 met met met) :=
    ((H .other 0 0x7FFFFFF (st { sq := [(0, { rt := { tblAddr := 0x10000 + 0x4000 + 0x3FFF } })] })).2.2.2.2 met _
    rfl).2.2.2.2 met met met

/-- LedgerPortAndCameraWrites: a slot of a running job. -/
theorem test_wit_ol1 (H : Obligations.LedgerPortAndCameraWrites) :
    type_of% (((H .other 0 (st { jobs := [(0, { active := true, jobId := 9 })], ol := [(4095, { jobId := 9 })] })).1 4095 1 met).1
    met) :=
    ((H .other 0 (st { jobs := [(0, { active := true, jobId := 9 })], ol := [(4095, { jobId := 9 })] })).1 4095 1 met).1
    met

/-- LedgerPortAndCameraWrites: a slot of no running job. -/
theorem test_wit_ol2 (H : Obligations.LedgerPortAndCameraWrites) :
    type_of% (((H .other 0 (st { ol := [(4095, { jobId := 9 })] })).1 4095 0xFFFFFFFFFFFFFFFF met).2 met) :=
    ((H .other 0 (st { ol := [(4095, { jobId := 9 })] })).1 4095 0xFFFFFFFFFFFFFFFF met).2 met

/-- LedgerPortAndCameraWrites: an idle port. -/
theorem test_wit_flctl (H : Obligations.LedgerPortAndCameraWrites) :
    type_of% ((H .other 0xF1 (st {})).2.1 5 met met met met met) :=
    (H .other 0xF1 (st {})).2.1 5 met met met met met

/-- LedgerPortAndCameraWrites: a port that a job has joined. -/
theorem test_wit_csi1 (H : Obligations.LedgerPortAndCameraWrites) :
    type_of% (((H .other 1 (st { csi := [(7, { joined := some 0 })] })).2.2.1 7 met _ _ rfl rfl).1 met) :=
    ((H .other 1 (st { csi := [(7, { joined := some 0 })] })).2.2.1 7 met _ _ rfl rfl).1 met

/-- LedgerPortAndCameraWrites: a configuration of size 1 × 1, which is too small. -/
theorem test_wit_csi2 (H : Obligations.LedgerPortAndCameraWrites) :
    type_of% (((H .other 9 (st { csi := [(7, { lanes := 0, ntile := 3 })] })).2.2.1 7 met _ _ rfl rfl).2.1 met met) :=
    ((H .other 9 (st { csi := [(7, { lanes := 0, ntile := 3 })] })).2.2.1 7 met _ _ rfl rfl).2.1 met met

/-- LedgerPortAndCameraWrites: a configuration that is accepted. -/
theorem test_wit_csi3 (H : Obligations.LedgerPortAndCameraWrites) :
    type_of% (((H .other 1 (st { csi := [(0, { th := 1, width := 7, height := 7 })] })).2.2.1 0 met _ _ rfl rfl).2.2 met met) :=
    ((H .other 1 (st { csi := [(0, { th := 1, width := 7, height := 7 })] })).2.2.1 0 met _ _ rfl rfl).2.2 met met

/-- LedgerPortAndCameraWrites: while a job runs. -/
theorem test_wit_jrnl1 (H : Obligations.LedgerPortAndCameraWrites) :
    type_of% ((H .other 1 (st { jobs := jobOn0 })).2.2.2.1 met) :=
    (H .other 1 (st { jobs := jobOn0 })).2.2.2.1 met

/-- LedgerPortAndCameraWrites: the largest journal. -/
theorem test_wit_jrnl2 (H : Obligations.LedgerPortAndCameraWrites) :
    type_of% ((H .other 0xE0 (st {})).2.2.2.2.1 met _ rfl) :=
    (H .other 0xE0 (st {})).2.2.2.2.1 met _ rfl

/-- LedgerPortAndCameraWrites: channel 15. -/
theorem test_wit_retr (H : Obligations.LedgerPortAndCameraWrites) :
    type_of% ((H .other 0 (st {})).2.2.2.2.2.1 15 met met met met) :=
    (H .other 0 (st {})).2.2.2.2.2.1 15 met met met met

/-- LedgerPortAndCameraWrites: all doorbells. -/
theorem test_wit_ring (H : Obligations.LedgerPortAndCameraWrites) :
    type_of% ((H .other 0xFFFFFFFF (st { bud := { wakeDom := [(1, 0)] } })).2.2.2.2.2.2 met met met) :=
    (H .other 0xFFFFFFFF (st { bud := { wakeDom := [(1, 0)] } })).2.2.2.2.2.2 met met met

/-- ReloadChecksEnd: an empty table that passes for a core without neurons, while a job runs. -/
theorem test_wit_check2 (H : Obligations.ReloadChecksEnd) :
    type_of% (((H 0 0 emptyTable (st
    { slot0 { checking := true, stagedT := some emptyTable } with jobs := jobOn0, sq := [(0, { flt := { nsnap := [(0, 0)] } })] })
    met met).1 met met met _ rfl _ rfl).2.1 met met) :=
    ((H 0 0 emptyTable (st
    { slot0 { checking := true, stagedT := some emptyTable } with jobs := jobOn0, sq := [(0, { flt := { nsnap := [(0, 0)] } })] })
    met met).1 met met met _ rfl _ rfl).2.1 met met

/-- ReloadChecksEnd: the same table, with no job. -/
theorem test_wit_check3 (H : Obligations.ReloadChecksEnd) :
    type_of% (((H 0 0 emptyTable (st
    { slot0 { checking := true, stagedT := some emptyTable } with sq := [(0, { flt := { nsnap := [(0, 0)] } })] }) met
    met).1 met met met _ rfl _ rfl).2.2 met met met) :=
    ((H 0 0 emptyTable (st
    { slot0 { checking := true, stagedT := some emptyTable } with sq := [(0, { flt := { nsnap := [(0, 0)] } })] }) met
    met).1 met met met _ rfl _ rfl).2.2 met met met

/-- ReloadChecksEnd: a rule image without a plastic range. -/
theorem test_wit_check5 (H : Obligations.ReloadChecksEnd) :
    type_of% (((H 0 0 seedRule (st (slot0 { rChecking := true, stagedR := some seedRule })) met met).2 met met met _ rfl _ rfl).2.2
    met met met) :=
    ((H 0 0 seedRule (st (slot0 { rChecking := true, stagedR := some seedRule })) met met).2 met met met _ rfl _ rfl).2.2
    met met met

/-- ReloadWrites: a rule image one byte past the end of square memory. -/
theorem test_wit_reload10 (H : Obligations.ReloadWrites) :
    type_of% ((H .other 0 (.logical 0) 0 (st (slot0 { ruleBase := 0x200000 - ruleSize + 1 })) (slot0_writable _) _ _ rfl
    rfl).2.2.2.2.2.1 met met) :=
    (H .other 0 (.logical 0) 0 (st (slot0 { ruleBase := 0x200000 - ruleSize + 1 })) (slot0_writable _) _ _ rfl
    rfl).2.2.2.2.2.1 met met

/-- ReloadWrites: RULE_LFSR while the control block waits for the copier. -/
theorem test_wit_reload11 (H : Obligations.ReloadWrites) :
    type_of% (((H .other 0 (.logical 0) 5 (st { slot0 {} with sq := [(0, { flt := { pend := [.control] } })] })
    (by unfold Hw.slotWritable Hw.sqServes Hw.slotNamed; exact ⟨by decide +kernel, by decide +kernel, by decide +kernel, rfl⟩)
    _ _ rfl rfl).2.2.2.2.2.2.2.2.1 met met).1) :=
    ((H .other 0 (.logical 0) 5 (st { slot0 {} with sq := [(0, { flt := { pend := [.control] } })] })
    (by unfold Hw.slotWritable Hw.sqServes Hw.slotNamed; exact ⟨by decide +kernel, by decide +kernel, by decide +kernel, rfl⟩)
    _ _ rfl rfl).2.2.2.2.2.2.2.2.1 met met).1

/-- ReloadChecksEnd: the same rule image while a job runs. -/
theorem test_wit_check6 (H : Obligations.ReloadChecksEnd) :
    type_of% (((H 0 0 seedRule (st { slot0 { rChecking := true, stagedR := some seedRule } with jobs := jobOn0 }) met met).2 met met
    met _ rfl _ rfl).2.1 met met) :=
    ((H 0 0 seedRule (st { slot0 { rChecking := true, stagedR := some seedRule } with jobs := jobOn0 }) met met).2 met met
    met _ rfl _ rfl).2.1 met met

/-- RouteTables: the last module entry of the idle version. -/
theorem test_wit_tbl5 (H : Obligations.RouteTables) :
    type_of% (((H .other 0 0x1FFF (st { sq := [(0, { rt := { tblAddr := 0x8000 + 0x4000 + 15 } })] })).2.2.2.2 met _ rfl).2.2.2.1
    met met met met) :=
    ((H .other 0 0x1FFF (st { sq := [(0, { rt := { tblAddr := 0x8000 + 0x4000 + 15 } })] })).2.2.2.2 met _ rfl).2.2.2.1
    met met met met

/-- LedgerPortAndCameraWrites: a size of 33, outside 1 to 32. -/
theorem test_wit_jrnl3 (H : Obligations.LedgerPortAndCameraWrites) :
    type_of% ((H .other 0x61 (st { psc := { size := 4, jpage := 9 } })).2.2.2.2.1 met _ rfl) :=
    (H .other 0x61 (st { psc := { size := 4, jpage := 9 } })).2.2.2.2.1 met _ rfl

/-- ReloadWrites: RELOAD with square memory OFF. -/
theorem test_wit_reload12 (H : Obligations.ReloadWrites) :
    type_of% ((H .other 0 (.logical 0) 0 (st { slot0 {} with sq := [(0, { banks := [(19, { state := .off })] })] })
    (by unfold Hw.slotWritable Hw.sqServes Hw.slotNamed; exact ⟨by decide +kernel, by decide +kernel, by decide +kernel, rfl⟩)
    _ _ rfl rfl).2.2.1 met met met) :=
    (H .other 0 (.logical 0) 0 (st { slot0 {} with sq := [(0, { banks := [(19, { state := .off })] })] })
    (by unfold Hw.slotWritable Hw.sqServes Hw.slotNamed; exact ⟨by decide +kernel, by decide +kernel, by decide +kernel, rfl⟩)
    _ _ rfl rfl).2.2.1 met met met

/-- ReloadWrites: RULE_RELOAD with square memory OFF. -/
theorem test_wit_reload13 (H : Obligations.ReloadWrites) :
    type_of% ((H .other 0 (.logical 0) 0 (st { slot0 {} with sq := [(0, { banks := [(19, { state := .off })] })] })
    (by unfold Hw.slotWritable Hw.sqServes Hw.slotNamed; exact ⟨by decide +kernel, by decide +kernel, by decide +kernel, rfl⟩)
    _ _ rfl rfl).2.2.2.2.2.2.1 met met met) :=
    (H .other 0 (.logical 0) 0 (st { slot0 {} with sq := [(0, { banks := [(19, { state := .off })] })] })
    (by unfold Hw.slotWritable Hw.sqServes Hw.slotNamed; exact ⟨by decide +kernel, by decide +kernel, by decide +kernel, rfl⟩)
    _ _ rfl rfl).2.2.2.2.2.2.1 met met met

/-- InterruptDelivery: a doorbell of core 3 for the last source. -/
theorem test_wit_db1 (H : Obligations.InterruptDelivery) :
    type_of% ((H (.core 3) 3 511 0 false 0 (st {})).1 met (.inr met) met) :=
    (H (.core 3) 3 511 0 false 0 (st {})).1 met (.inr met) met

/-- InterruptDelivery: a doorbell for a source that is pending. -/
theorem test_wit_db1b (H : Obligations.InterruptDelivery) :
    type_of% ((H (.core 3) 3 480 0 false 0 (st { irc := { src := [(480, { pend := true })] } })).1 met (.inr met) met) :=
    (H (.core 3) 3 480 0 false 0 (st { irc := { src := [(480, { pend := true })] } })).1 met (.inr met) met

/-- InterruptDelivery: the control complex in RETAIN. -/
theorem test_wit_db2 (H : Obligations.InterruptDelivery) :
    type_of% ((H .debug 0 480 0 false 0 (st { power := { dom := [(domCtrl, { state := .retain })] } })).2.1 met (.inr met) met _ rfl) :=
    (H .debug 0 480 0 false 0 (st { power := { dom := [(domCtrl, { state := .retain })] } })).2.1 met (.inr met) met _ rfl

/-- InterruptDelivery: a reserved source. -/
theorem test_wit_db3 (H : Obligations.InterruptDelivery) :
    type_of% ((H .other 0 15 0 false 0 (st {})).2.2.2.1 met (.inl met)) :=
    (H .other 0 15 0 false 0 (st {})).2.2.2.1 met (.inl met)

/-- InterruptDelivery: the last number that only a unit may write, from an initiator that is none. -/
theorem test_wit_db4 (H : Obligations.InterruptDelivery) :
    type_of% ((H (.core 3) 0 479 0 false 0 (st {})).2.2.1 met met) :=
    (H (.core 3) 0 479 0 false 0 (st {})).2.2.1 met met

/-- InterruptDelivery: nothing is pending. -/
theorem test_wit_ack1 (H : Obligations.InterruptDelivery) :
    type_of% ((H (.core 0) 0 0 0 false 0 (st {})).2.2.2.2.1 met (fun m => by simp [Hw.presentable, Hw.srcOf, st, mget])) :=
    (H (.core 0) 0 0 0 false 0 (st {})).2.2.2.2.1 met (fun m => by simp [Hw.presentable, Hw.srcOf, st, mget])

/-- InterruptDelivery: two sources of one priority are pending and enabled for target 2. -/
theorem test_wit_ack2 (H : Obligations.InterruptDelivery) :
    type_of% ((H (.core 2) 2 0 0 false 0 (st
    { irc := { src := [(16, { pend := true, en := true, pri := 2 }), (20, { pend := true, en := true, pri := 2 })], grp := [(1, { target := 2 })] } })).2.2.2.2.2.1
    met 20 met) :=
    (H (.core 2) 2 0 0 false 0 (st
    { irc := { src := [(16, { pend := true, en := true, pri := 2 }), (20, { pend := true, en := true, pri := 2 })], grp := [(1, { target := 2 })] } })).2.2.2.2.2.1
    met 20 met

/-- InterruptDelivery: the source on top of the stack. -/
theorem test_wit_eoi1 (H : Obligations.InterruptDelivery) :
    type_of% ((H (.core 1) 1 20 0 false 0 (st
    { irc := { accepts := [(1, [(20, 2), (16, 3)])], src := [(20, { act := true })] } })).2.2.2.2.2.2.1 met 2 [(16, 3)]
    met) :=
    (H (.core 1) 1 20 0 false 0 (st
    { irc := { accepts := [(1, [(20, 2), (16, 3)])], src := [(20, { act := true })] } })).2.2.2.2.2.2.1 met 2 [(16, 3)]
    met

/-- InterruptDelivery: an empty stack. -/
theorem test_wit_eoi2 (H : Obligations.InterruptDelivery) :
    type_of% ((H (.core 1) 1 20 0 false 0 (st {})).2.2.2.2.2.2.2.1 met (fun p rest => by intro h; cases h)) :=
    (H (.core 1) 1 20 0 false 0 (st {})).2.2.2.2.2.2.2.1 met (fun p rest => by intro h; cases h)

/-- InterruptDelivery: a pending source. -/
theorem test_wit_clrp (H : Obligations.InterruptDelivery) :
    type_of% ((H (.core 1) 1 20 15 true 0 (st { irc := { src := [(20, { pend := true })] } })).2.2.2.2.2.2.2.2.1 met 1 rfl) :=
    (H (.core 1) 1 20 15 true 0 (st { irc := { src := [(20, { pend := true })] } })).2.2.2.2.2.2.2.2.1 met 1 rfl

/-- InterruptDelivery: a hold-off that has expired. -/
theorem test_wit_hold (H : Obligations.InterruptDelivery) :
    type_of% ((H (.core 1) 1 20 15 true 31 (st { irc := { grp := [(31, { heldUntil := some 0 })] } })).2.2.2.2.2.2.2.2.2 met) :=
    (H (.core 1) 1 20 15 true 31 (st { irc := { grp := [(31, { heldUntil := some 0 })] } })).2.2.2.2.2.2.2.2.2 met

/-- TimerCounts: a TC that steps from 0xFFFF_FFFF to 0, into its compare value. -/
theorem test_wit_tick1 (H : Obligations.TimerCounts) :
    type_of% ((H 15 (st { elapsed := 1, tc := [(15, { en := true, cnt := 0xFFFFFFFF, cmp := 0 })] }) _ rfl met met met met met).2
    met _ rfl) :=
    (H 15 (st { elapsed := 1, tc := [(15, { en := true, cnt := 0xFFFFFFFF, cmp := 0 })] }) _ rfl met met met met met).2
    met _ rfl

/-- TimerCounts: a TC that reloads and drives its pin, 8 cycles after the event before. -/
theorem test_wit_tick2 (H : Obligations.TimerCounts) :
    type_of% ((H 0 (st
    { elapsed := 9, tc := [(0, { en := true, cnt := 5, cmp := 5, matched := true, cfg := 0x2800006, tickAt := 1 })] }) _
    rfl met met met met met).2 met _ rfl) :=
    (H 0 (st
    { elapsed := 9, tc := [(0, { en := true, cnt := 5, cmp := 5, matched := true, cfg := 0x2800006, tickAt := 1 })] }) _
    rfl met met met met met).2 met _ rfl

/-- TimerCounts: the cycle of a write of the count. -/
theorem test_wit_tick3 (H : Obligations.TimerCounts) :
    type_of% ((H 15 (st { elapsed := 1, tc := [(15, { en := true, cnt := 0xFFFFFFFF, cmp := 0, quietAt := some 1 })] }) _ rfl met
    met met met met).1 met) :=
    (H 15 (st { elapsed := 1, tc := [(15, { en := true, cnt := 0xFFFFFFFF, cmp := 0, quietAt := some 1 })] }) _ rfl met
    met met met met).1 met

/-- TimerRegistersAndEdges: a TC that holds a pair. -/
theorem test_wit_tclear (H : Obligations.TimerRegistersAndEdges) :
    type_of% ((H .other 15 0 true true 1 9 (st { elapsed := 3, tc := [(15, { cnt := 7, outLvl := true, pair := some (1, 2) })] })).1
    met) :=
    (H .other 15 0 true true 1 9 (st { elapsed := 3, tc := [(15, { cnt := 7, outLvl := true, pair := some (1, 2) })] })).1
    met

/-- TimerRegistersAndEdges: a count. -/
theorem test_wit_tcnt (H : Obligations.TimerRegistersAndEdges) :
    type_of% ((H .other 15 0 true true 1 9 (st { tc := [(15, { cnt := 7 })] })).2.1 met) :=
    (H .other 15 0 true true 1 9 (st { tc := [(15, { cnt := 7 })] })).2.1 met

/-- TimerRegistersAndEdges: a compare value. -/
theorem test_wit_tcmp (H : Obligations.TimerRegistersAndEdges) :
    type_of% ((H .other 15 0 true true 1 9 (st {})).2.2.2.1 met) :=
    (H .other 15 0 true true 1 9 (st {})).2.2.2.1 met

/-- TimerRegistersAndEdges: a held pair. -/
theorem test_wit_tcap (H : Obligations.TimerRegistersAndEdges) :
    type_of% ((H .other 15 0 true true 1 9 (st { tc := [(15, { pair := some (1, 2), unread := true })] })).2.2.2.2.1 met) :=
    (H .other 15 0 true true 1 9 (st { tc := [(15, { pair := some (1, 2), unread := true })] })).2.2.2.2.1 met

/-- TimerRegistersAndEdges: a rising edge that TC 3 captures. -/
theorem test_wit_tedge (H : Obligations.TimerRegistersAndEdges) :
    type_of% ((H .other 15 5 true true 1 9 (st
    { tc := [(3, { en := true, cnt := 7, cfg := 0x400000 + 5 * 0x20000 })] })).2.2.2.2.2.2.1 met met met met) :=
    (H .other 15 5 true true 1 9 (st
    { tc := [(3, { en := true, cnt := 7, cfg := 0x400000 + 5 * 0x20000 })] })).2.2.2.2.2.2.1 met met met met

/-- TimerRegistersAndEdges: the timebase domain in RETAIN. -/
theorem test_wit_tlatch (H : Obligations.TimerRegistersAndEdges) :
    type_of% ((H .other 15 15 true true 1 9 (st { power := { dom := [(domTb, { state := .retain })] } })).2.2.2.2.2.2.2 met met met) :=
    (H .other 15 15 true true 1 9 (st { power := { dom := [(domTb, { state := .retain })] } })).2.2.2.2.2.2.2 met met met

/-- TimebaseDiscipline: the reference becomes present. -/
theorem test_wit_tref (H : Obligations.TimebaseDiscipline) :
    type_of% ((H .other 0 (st {})).1) :=
    (H .other 0 (st {})).1

/-- TimebaseDiscipline: a disciplined timebase loses the reference. -/
theorem test_wit_tlost (H : Obligations.TimebaseDiscipline) :
    type_of% ((H .other 0 (st { tb := { refPresent := true, state := .disciplined } })).2.1 met met) :=
    (H .other 0 (st { tb := { refPresent := true, state := .disciplined } })).2.1 met met

/-- TimebaseDiscipline: the PLL locks in HOLDOVER. -/
theorem test_wit_tlock (H : Obligations.TimebaseDiscipline) :
    type_of% ((H .other 0 (st { tb := { refPresent := true, locking := true, state := .holdover } })).2.2.1 met met met) :=
    (H .other 0 (st { tb := { refPresent := true, locking := true, state := .holdover } })).2.2.1 met met met

/-- TimebaseDiscipline: the first edge, half a second off. -/
theorem test_wit_pps (H : Obligations.TimebaseDiscipline) :
    type_of% ((H .other 0 (st { tb := { now := 1500000000, stepEn := false } })).2.2.2.1 met met met met) :=
    (H .other 0 (st { tb := { now := 1500000000, stepEn := false } })).2.2.2.1 met met met met

/-- TimebaseDiscipline: one ns past 1.5 s after the last accepted edge. -/
theorem test_wit_ppsno (H : Obligations.TimebaseDiscipline) :
    type_of% ((H .other 0 (st { elapsed := 1500000002, tb := { lastPpsAt := some 1 } })).2.2.2.2.2.2.2.1 1 met met met) :=
    (H .other 0 (st { elapsed := 1500000002, tb := { lastPpsAt := some 1 } })).2.2.2.2.2.2.2.1 1 met met met

/-- TimebaseDiscipline: a count that is ahead. -/
theorem test_wit_slew1 (H : Obligations.TimebaseDiscipline) :
    type_of% ((H .other 0 (st { elapsed := 10000, tb := { slew := 100, slewLeft := 1, now := 5 } })).2.2.2.2.2.2.2.2.2.1 met met met
    met) :=
    (H .other 0 (st { elapsed := 10000, tb := { slew := 100, slewLeft := 1, now := 5 } })).2.2.2.2.2.2.2.2.2.1 met met met
    met

/-- TimebaseDiscipline: a count that is behind, at the end of its range. -/
theorem test_wit_slew2 (H : Obligations.TimebaseDiscipline) :
    type_of% ((H .other 0 (st { elapsed := 10000, tb := { slew := 100, slewLeft := -1, now := 2 ^ 64 - 1 } })).2.2.2.2.2.2.2.2.2.2.1
    met met met met) :=
    (H .other 0 (st { elapsed := 10000, tb := { slew := 100, slewLeft := -1, now := 2 ^ 64 - 1 } })).2.2.2.2.2.2.2.2.2.2.1
    met met met met

/-- TimebaseDiscipline: no job runs. -/
theorem test_wit_tbset1 (H : Obligations.TimebaseDiscipline) :
    type_of% ((H .other 0xFFFFFFFFFFFFFFFF (st {})).2.2.2.2.2.2.2.2.2.2.2.1 met met met) :=
    (H .other 0xFFFFFFFFFFFFFFFF (st {})).2.2.2.2.2.2.2.2.2.2.2.1 met met met

/-- TimebaseDiscipline: the timebase is disciplined. -/
theorem test_wit_tbset2 (H : Obligations.TimebaseDiscipline) :
    type_of% ((H .other 1 (st { tb := { state := .disciplined } })).2.2.2.2.2.2.2.2.2.2.2.2.1 met (.inr met)) :=
    (H .other 1 (st { tb := { state := .disciplined } })).2.2.2.2.2.2.2.2.2.2.2.2.1 met (.inr met)

/-- TimebaseDiscipline: a captured value that is unread. -/
theorem test_wit_tbpps (H : Obligations.TimebaseDiscipline) :
    type_of% ((H .other 1 (st { tb := { ppsValue := 2 ^ 63, ppsUnread := true } })).2.2.2.2.2.2.2.2.2.2.2.2.2 met) :=
    (H .other 1 (st { tb := { ppsValue := 2 ^ 63, ppsUnread := true } })).2.2.2.2.2.2.2.2.2.2.2.2.2 met

/-- TimerRegistersAndEdges: a level that has held for FILT samples only. -/
theorem test_wit_tfilt (H : Obligations.TimerRegistersAndEdges) :
    type_of% ((H .other 15 0 true true 3 9 (st { tio := { filt := 3 } })).2.2.2.2.2.1 (.inl met)) :=
    (H .other 15 0 true true 3 9 (st { tio := { filt := 3 } })).2.2.2.2.2.1 (.inl met)

/-- TimerRegistersAndEdges: an edge on an output pin against the level that it drives. -/
theorem test_wit_tdrive (H : Obligations.TimerRegistersAndEdges) :
    type_of% ((H .other 15 0 true true 1 9 (st { tio := { dir := 1 } })).2.2.2.2.2.1 (.inr met)) :=
    (H .other 15 0 true true 1 9 (st { tio := { dir := 1 } })).2.2.2.2.2.1 (.inr met)

/-- TimerRegistersAndEdges: a falling edge of pin 15 that TC 15 counts. -/
theorem test_wit_tedge2 (H : Obligations.TimerRegistersAndEdges) :
    type_of% ((H .other 15 15 true false 4 9 (st
    { tio := { filt := 3, level := [15] }, tc := [(15, { en := true, cnt := 7, cfg := 1 + 15 * 32 + 1024 })] })).2.2.2.2.2.2.1
    met met met met) :=
    (H .other 15 15 true false 4 9 (st
    { tio := { filt := 3, level := [15] }, tc := [(15, { en := true, cnt := 7, cfg := 1 + 15 * 32 + 1024 })] })).2.2.2.2.2.2.1
    met met met met

/-- TimebaseDiscipline: a later edge, half a second after the one before it. -/
theorem test_wit_pps2 (H : Obligations.TimebaseDiscipline) :
    type_of% ((H .other 0 (st { tb := { now := 1500000000, prevPps := some 1000000000, ppsUnread := true } })).2.2.2.2.1 met
    (by intro x h; cases h; decide)) :=
    (H .other 0 (st { tb := { now := 1500000000, prevPps := some 1000000000, ppsUnread := true } })).2.2.2.2.1 met
    (by intro x h; cases h; decide)

/-- TimebaseDiscipline: an edge 1 ns short of half a second after the one before it. -/
theorem test_wit_pps3 (H : Obligations.TimebaseDiscipline) :
    type_of% ((H .other 0 (st { tb := { now := 1499999999, prevPps := some 1000000000 } })).2.2.2.2.2.1 met 1000000000 met met) :=
    (H .other 0 (st { tb := { now := 1499999999, prevPps := some 1000000000 } })).2.2.2.2.2.1 met 1000000000 met met

/-- TimebaseDiscipline: the same while DISCIPLINED. -/
theorem test_wit_ppsno2 (H : Obligations.TimebaseDiscipline) :
    type_of% ((H .other 0 (st { elapsed := 1500000002, tb := { lastPpsAt := some 1, state := .disciplined } })).2.2.2.2.2.2.1 1 met
    met met) :=
    (H .other 0 (st { elapsed := 1500000002, tb := { lastPpsAt := some 1, state := .disciplined } })).2.2.2.2.2.2.1 1 met
    met met

/-- TimebaseDiscipline: one cycle too early. -/
theorem test_wit_slew0 (H : Obligations.TimebaseDiscipline) :
    type_of% ((H .other 0 (st { elapsed := 9999, tb := { slew := 100, slewLeft := 1 } })).2.2.2.2.2.2.2.2.1 met) :=
    (H .other 0 (st { elapsed := 9999, tb := { slew := 100, slewLeft := 1 } })).2.2.2.2.2.2.2.2.1 met

/-- TimerRegistersAndEdges: a write to TC_STATUS that clears OVF and CAP; MATCH was set in this very cycle. -/
theorem test_wit_twc (H : Obligations.TimerRegistersAndEdges) :
    type_of% ((H .other 15 0 true true 1 9 (st
    { risen := [(.tc 15, 1)], tc := [(15, { matchF := true, ovf := true, cap := true })] })).2.2.1 met 7 _ rfl) :=
    (H .other 15 0 true true 1 9 (st
    { risen := [(.tc 15, 1)], tc := [(15, { matchF := true, ovf := true, cap := true })] })).2.2.1 met 7 _ rfl

/-- TimerCounts: a TC that captured an edge in this very cycle. -/
theorem test_wit_tick4 (H : Obligations.TimerCounts) :
    type_of% ((H 15 (st
    { elapsed := 1, tc := [(15, { en := true, cnt := 7, cmp := 8, lastEdge := some (0, true, 7), edgeAt := some 1 })] }) _
    rfl met met met met met).2 met _ rfl) :=
    (H 15 (st
    { elapsed := 1, tc := [(15, { en := true, cnt := 7, cmp := 8, lastEdge := some (0, true, 7), edgeAt := some 1 })] }) _
    rfl met met met met met).2 met _ rfl

/-- QueueEnds: a queue without a bound sender, at the last generation. -/
theorem test_wit_ropen1 (H : Obligations.QueueEnds) :
    type_of% ((H .other 63 17 3 (st
    { sq := [(63, { lmap := [(17, 18)] })], core := [(63 * 18 + 17, { queue := [(3, { gen := 255, valid := [1] })] })] })
    (by unfold Hw.coreServes Hw.sqServes; decide +kernel)).1 met) :=
    (H .other 63 17 3 (st
    { sq := [(63, { lmap := [(17, 18)] })], core := [(63 * 18 + 17, { queue := [(3, { gen := 255, valid := [1] })] })] })
    (by unfold Hw.coreServes Hw.sqServes; decide +kernel)).1 met

/-- QueueEnds: a queue with a bound sender. -/
theorem test_wit_ropen2 (H : Obligations.QueueEnds) :
    type_of% ((H .other 0 0 0 (st { core := [(0, { queue := [(0, { bound := true, ssq := 5, score := 2 })] })] })
    (by unfold Hw.coreServes Hw.sqServes; decide +kernel)).2.1 met) :=
    (H .other 0 0 0 (st { core := [(0, { queue := [(0, { bound := true, ssq := 5, score := 2 })] })] })
    (by unfold Hw.coreServes Hw.sqServes; decide +kernel)).2.1 met

/-- QueueEnds: no program waits. -/
theorem test_wit_rclose (H : Obligations.QueueEnds) :
    type_of% ((H .other 0 0 2 (st { core := [(0, { queue := [(2, { open_ := true, valid := [1] })] })] })
    (by unfold Hw.coreServes Hw.sqServes; decide +kernel)).2.2.1 (by intro d off h; cases h)) :=
    (H .other 0 0 2 (st { core := [(0, { queue := [(2, { open_ := true, valid := [1] })] })] })
    (by unfold Hw.coreServes Hw.sqServes; decide +kernel)).2.2.1 (by intro d off h; cases h)

/-- QueueEnds: an announcement waits. -/
theorem test_wit_sopen1 (H : Obligations.QueueEnds) :
    type_of% ((H .other 0 15 3 (st { core := [(15, { send := [(3, { rvalid := true, rgen := 9, rej := 0x12 })] })] })
    (by unfold Hw.coreServes Hw.sqServes; decide +kernel)).2.2.2.2.1 met) :=
    (H .other 0 15 3 (st { core := [(15, { send := [(3, { rvalid := true, rgen := 9, rej := 0x12 })] })] })
    (by unfold Hw.coreServes Hw.sqServes; decide +kernel)).2.2.2.2.1 met

/-- QueueEnds: no announcement waits. -/
theorem test_wit_sopen2 (H : Obligations.QueueEnds) :
    type_of% ((H .other 0 0 3 (st { core := [(0, { send := [(2, { rgen := 9 })] })] })
    (by unfold Hw.coreServes Hw.sqServes; decide +kernel)).2.2.2.2.2.1 met) :=
    (H .other 0 0 3 (st { core := [(0, { send := [(2, { rgen := 9 })] })] })
    (by unfold Hw.coreServes Hw.sqServes; decide +kernel)).2.2.2.2.2.1 met

/-- QueueEnds: an open channel. -/
theorem test_wit_sclose (H : Obligations.QueueEnds) :
    type_of% ((H .other 0 0 1 (st { core := [(0, { send := [(1, { open_ := true })] })] })
    (by unfold Hw.coreServes Hw.sqServes; decide +kernel)).2.2.2.2.2.2.1) :=
    (H .other 0 0 1 (st { core := [(0, { send := [(1, { open_ := true })] })] })
    (by unfold Hw.coreServes Hw.sqServes; decide +kernel)).2.2.2.2.2.2.1

/-- QueueEnds: a program of one END. -/
theorem test_wit_start1 (H : Obligations.QueueEnds) :
    type_of% (((H .other 0 0 1 (st { banks := { mem := memWriteN [] 0x3000020 [0, 0, 0, 0xFC] } })
    (by unfold Hw.coreServes Hw.sqServes; decide +kernel)).2.2.2.2.2.2.2.2.1 met
    (by unfold Hw.memKept Hw.bankKept; decide +kernel) _ rfl met).1 met) :=
    ((H .other 0 0 1 (st { banks := { mem := memWriteN [] 0x3000020 [0, 0, 0, 0xFC] } })
    (by unfold Hw.coreServes Hw.sqServes; decide +kernel)).2.2.2.2.2.2.2.2.1 met
    (by unfold Hw.memKept Hw.bankKept; decide +kernel) _ rfl met).1 met

/-- QueueEnds: a program with a reserved opcode. -/
theorem test_wit_start2 (H : Obligations.QueueEnds) :
    type_of% (((H .other 0 0 1 (st { banks := { mem := memWriteN [] 0x3000020 [0, 0, 0, 0x3C, 0, 0, 0, 0xFC] } })
    (by unfold Hw.coreServes Hw.sqServes; decide +kernel)).2.2.2.2.2.2.2.2.1 met
    (by unfold Hw.memKept Hw.bankKept; decide +kernel) _ rfl met).2 met) :=
    ((H .other 0 0 1 (st { banks := { mem := memWriteN [] 0x3000020 [0, 0, 0, 0x3C, 0, 0, 0, 0xFC] } })
    (by unfold Hw.coreServes Hw.sqServes; decide +kernel)).2.2.2.2.2.2.2.2.1 met
    (by unfold Hw.memKept Hw.bankKept; decide +kernel) _ rfl met).2 met

/-- QueueEnds: a program that runs. -/
theorem test_wit_stop (H : Obligations.QueueEnds) :
    type_of% ((H .other 0 0 1 (st (prog ⟨.nop, 0, 0, 0, 0, 0⟩))
    (by unfold Hw.coreServes Hw.sqServes; decide +kernel)).2.2.2.2.2.2.2.2.2 met) :=
    (H .other 0 0 1 (st (prog ⟨.nop, 0, 0, 0, 0, 0⟩))
    (by unfold Hw.coreServes Hw.sqServes; decide +kernel)).2.2.2.2.2.2.2.2.2 met

/-- QueueEnds: square memory is OFF. -/
theorem test_wit_startoff (H : Obligations.QueueEnds) :
    type_of% ((H .other 0 0 1 (st { sq := [(0, { banks := [(19, { state := .off })] })] })
    (by unfold Hw.coreServes Hw.sqServes; decide +kernel)).2.2.2.2.2.2.2.1 met met) :=
    (H .other 0 0 1 (st { sq := [(0, { banks := [(19, { state := .off })] })] })
    (by unfold Hw.coreServes Hw.sqServes; decide +kernel)).2.2.2.2.2.2.2.1 met met

/-- MessagesMove: a message through channel 1, the last credit. -/
theorem test_wit_send1 (H : Obligations.MessagesMove) :
    type_of% ((((H 0 0 ⟨.send, 0, 2, 3, 0, 1⟩ 0x40 (st (prog ⟨.send, 0, 2, 3, 0, 1⟩
    { send := [(1, { open_ := true, credits := 1, wptr := 255, dsq := 9, dcore := 3, dq := 2 })] } { w := [(3, 0x40)] }))
    met _ rfl).1 (by unfold Hw.issues Hw.present Hw.cpReadable Hw.memKept Hw.bankKept; decide +kernel) met _ _ rfl rfl).1
    rfl _ rfl).1 met met met met met) :=
    (((H 0 0 ⟨.send, 0, 2, 3, 0, 1⟩ 0x40 (st (prog ⟨.send, 0, 2, 3, 0, 1⟩
    { send := [(1, { open_ := true, credits := 1, wptr := 255, dsq := 9, dcore := 3, dq := 2 })] } { w := [(3, 0x40)] }))
    met _ rfl).1 (by unfold Hw.issues Hw.present Hw.cpReadable Hw.memKept Hw.bankKept; decide +kernel) met _ _ rfl rfl).1
    rfl _ rfl).1 met met met met met

/-- MessagesMove: a closed channel. -/
theorem test_wit_send2 (H : Obligations.MessagesMove) :
    type_of% ((((H 0 0 ⟨.send, 0, 2, 3, 0, 1⟩ 0x40 (st (prog ⟨.send, 0, 2, 3, 0, 1⟩ { send := [(1, {})] } { w := [(3, 0x40)] })) met
    _ rfl).1 (by unfold Hw.issues Hw.present Hw.cpReadable Hw.memKept Hw.bankKept; decide +kernel) met _ _ rfl rfl).1 rfl
    _ rfl).2.2.2 met) :=
    (((H 0 0 ⟨.send, 0, 2, 3, 0, 1⟩ 0x40 (st (prog ⟨.send, 0, 2, 3, 0, 1⟩ { send := [(1, {})] } { w := [(3, 0x40)] })) met
    _ rfl).1 (by unfold Hw.issues Hw.present Hw.cpReadable Hw.memKept Hw.bankKept; decide +kernel) met _ _ rfl rfl).1 rfl
    _ rfl).2.2.2 met

/-- MessagesMove: a message of queue 2, two of which are valid. -/
theorem test_wit_recv1 (H : Obligations.MessagesMove) :
    type_of% (((((H 0 0 ⟨.recv, 0, 2, 3, 0, 2⟩ 0x40 (st (prog ⟨.recv, 0, 2, 3, 0, 2⟩
    { queue := [(2, { open_ := true, valid := [254, 255], rptr := 255, buf := 1 })] } { w := [(3, 0x40)] })) met _ rfl).1
    (by unfold Hw.issues Hw.present Hw.cpReadable Hw.memKept Hw.bankKept; decide +kernel) met _ _ rfl rfl).2 rfl _ rfl).1
    met met met _ rfl).1 met met met) :=
    ((((H 0 0 ⟨.recv, 0, 2, 3, 0, 2⟩ 0x40 (st (prog ⟨.recv, 0, 2, 3, 0, 2⟩
    { queue := [(2, { open_ := true, valid := [254, 255], rptr := 255, buf := 1 })] } { w := [(3, 0x40)] })) met _ rfl).1
    (by unfold Hw.issues Hw.present Hw.cpReadable Hw.memKept Hw.bankKept; decide +kernel) met _ _ rfl rfl).2 rfl _ rfl).1
    met met met _ rfl).1 met met met

/-- MessagesMove: a closed queue. -/
theorem test_wit_recv2 (H : Obligations.MessagesMove) :
    type_of% ((((H 0 0 ⟨.recv, 0, 2, 3, 0, 2⟩ 0x40 (st (prog ⟨.recv, 0, 2, 3, 0, 2⟩
    { queue := [(2, { valid := [254], rptr := 255 })] } { w := [(3, 0x40)] })) met _ rfl).1
    (by unfold Hw.issues Hw.present Hw.cpReadable Hw.memKept Hw.bankKept; decide +kernel) met _ _ rfl rfl).2 rfl _
    rfl).2.2 met met) :=
    (((H 0 0 ⟨.recv, 0, 2, 3, 0, 2⟩ 0x40 (st (prog ⟨.recv, 0, 2, 3, 0, 2⟩
    { queue := [(2, { valid := [254], rptr := 255 })] } { w := [(3, 0x40)] })) met _ rfl).1
    (by unfold Hw.issues Hw.present Hw.cpReadable Hw.memKept Hw.bankKept; decide +kernel) met _ _ rfl rfl).2 rfl _
    rfl).2.2 met met

/-- MessagesMove: a SEND that has waited CP_TMO. -/
theorem test_wit_sendto (H : Obligations.MessagesMove) :
    type_of% ((H 0 0 ⟨.send, 0, 2, 3, 0, 1⟩ 0x40 (st
    { prog ⟨.send, 0, 2, 3, 0, 1⟩ {} { wait := some (.send 2 5 0x40), waitN := 1 } with elapsed := 1000000 }) met _
    rfl).2.1 2 5 met met) :=
    (H 0 0 ⟨.send, 0, 2, 3, 0, 1⟩ 0x40 (st
    { prog ⟨.send, 0, 2, 3, 0, 1⟩ {} { wait := some (.send 2 5 0x40), waitN := 1 } with elapsed := 1000000 }) met _
    rfl).2.1 2 5 met met

/-- MessagesMove: a RECV that has waited CP_TMO. -/
theorem test_wit_recvto (H : Obligations.MessagesMove) :
    type_of% ((H 0 0 ⟨.recv, 0, 2, 3, 0, 2⟩ 0x40 (st
    { prog ⟨.recv, 0, 2, 3, 0, 2⟩ {} { wait := some (.recv 2 5 0x40), waitN := 1 } with elapsed := 1000000 }) met _
    rfl).2.2 2 5 met met) :=
    (H 0 0 ⟨.recv, 0, 2, 3, 0, 2⟩ 0x40 (st
    { prog ⟨.recv, 0, 2, 3, 0, 2⟩ {} { wait := some (.recv 2 5 0x40), waitN := 1 } with elapsed := 1000000 }) met _
    rfl).2.2 2 5 met met

/-- ArithmeticMicroOps: ADD that saturates. -/
theorem test_wit_alu_add (H : Obligations.ArithmeticMicroOps) :
    type_of% (H 0 0 ⟨.add, 0, 7, 0, 1, 0⟩ (st (prog ⟨.add, 0, 7, 0, 1, 0⟩ {} { w := [(0, 8388607), (1, 1)] }))
    (by unfold Hw.issues Hw.present Hw.cpReadable Hw.memKept Hw.bankKept; decide +kernel) met _ _ _ _ rfl rfl rfl rfl _
    (.head _) rfl) :=
    H 0 0 ⟨.add, 0, 7, 0, 1, 0⟩ (st (prog ⟨.add, 0, 7, 0, 1, 0⟩ {} { w := [(0, 8388607), (1, 1)] }))
    (by unfold Hw.issues Hw.present Hw.cpReadable Hw.memKept Hw.bankKept; decide +kernel) met _ _ _ _ rfl rfl rfl rfl _
    (.head _) rfl

/-- ArithmeticMicroOps: SUB that saturates below, under F. -/
theorem test_wit_alu_sub (H : Obligations.ArithmeticMicroOps) :
    type_of% (H 0 0 ⟨.sub, 1, 7, 0, 1, 0⟩ (st (prog ⟨.sub, 1, 7, 0, 1, 0⟩ {} { w := [(0, -8388608), (1, 1)], f := true }))
    (by unfold Hw.issues Hw.present Hw.cpReadable Hw.memKept Hw.bankKept; decide +kernel) met _ _ _ _ rfl rfl rfl rfl _
    (.tail _ (.head _)) rfl) :=
    H 0 0 ⟨.sub, 1, 7, 0, 1, 0⟩ (st (prog ⟨.sub, 1, 7, 0, 1, 0⟩ {} { w := [(0, -8388608), (1, 1)], f := true }))
    (by unfold Hw.issues Hw.present Hw.cpReadable Hw.memKept Hw.bankKept; decide +kernel) met _ _ _ _ rfl rfl rfl rfl _
    (.tail _ (.head _)) rfl

/-- ArithmeticMicroOps: MUL rounded down. -/
theorem test_wit_alu_mul1 (H : Obligations.ArithmeticMicroOps) :
    type_of% (H 0 0 ⟨.mul, 2, 7, 0, 1, 1⟩ (st (prog ⟨.mul, 2, 7, 0, 1, 1⟩ {} { w := [(0, -3), (1, 1)] }))
    (by unfold Hw.issues Hw.present Hw.cpReadable Hw.memKept Hw.bankKept; decide +kernel) met _ _ _ _ rfl rfl rfl rfl _
    (.tail _ (.tail _ (.head _))) rfl) :=
    H 0 0 ⟨.mul, 2, 7, 0, 1, 1⟩ (st (prog ⟨.mul, 2, 7, 0, 1, 1⟩ {} { w := [(0, -3), (1, 1)] }))
    (by unfold Hw.issues Hw.present Hw.cpReadable Hw.memKept Hw.bankKept; decide +kernel) met _ _ _ _ rfl rfl rfl rfl _
    (.tail _ (.tail _ (.head _))) rfl

/-- ArithmeticMicroOps: MUL rounded toward zero. -/
theorem test_wit_alu_mul2 (H : Obligations.ArithmeticMicroOps) :
    type_of% (H 0 0 ⟨.mul, 2, 7, 0, 1, 0x21⟩ (st (prog ⟨.mul, 2, 7, 0, 1, 0x21⟩ {} { w := [(0, -3), (1, 1)] }))
    (by unfold Hw.issues Hw.present Hw.cpReadable Hw.memKept Hw.bankKept; decide +kernel) met _ _ _ _ rfl rfl rfl rfl _
    (.tail _ (.tail _ (.head _))) rfl) :=
    H 0 0 ⟨.mul, 2, 7, 0, 1, 0x21⟩ (st (prog ⟨.mul, 2, 7, 0, 1, 0x21⟩ {} { w := [(0, -3), (1, 1)] }))
    (by unfold Hw.issues Hw.present Hw.cpReadable Hw.memKept Hw.bankKept; decide +kernel) met _ _ _ _ rfl rfl rfl rfl _
    (.tail _ (.tail _ (.head _))) rfl

/-- ArithmeticMicroOps: SHR of a negative value by 31. -/
theorem test_wit_alu_shr (H : Obligations.ArithmeticMicroOps) :
    type_of% (H 0 0 ⟨.shr, 0, 7, 0, 0, 31⟩ (st (prog ⟨.shr, 0, 7, 0, 0, 31⟩ {} { w := [(0, -3)] }))
    (by unfold Hw.issues Hw.present Hw.cpReadable Hw.memKept Hw.bankKept; decide +kernel) met _ _ _ _ rfl rfl rfl rfl _
    (.tail _ (.tail _ (.tail _ (.head _)))) rfl) :=
    H 0 0 ⟨.shr, 0, 7, 0, 0, 31⟩ (st (prog ⟨.shr, 0, 7, 0, 0, 31⟩ {} { w := [(0, -3)] }))
    (by unfold Hw.issues Hw.present Hw.cpReadable Hw.memKept Hw.bankKept; decide +kernel) met _ _ _ _ rfl rfl rfl rfl _
    (.tail _ (.tail _ (.tail _ (.head _)))) rfl

/-- ArithmeticMicroOps: SHL that saturates. -/
theorem test_wit_alu_shl (H : Obligations.ArithmeticMicroOps) :
    type_of% (H 0 0 ⟨.shl, 0, 7, 0, 0, 31⟩ (st (prog ⟨.shl, 0, 7, 0, 0, 31⟩ {} { w := [(0, -3)] }))
    (by unfold Hw.issues Hw.present Hw.cpReadable Hw.memKept Hw.bankKept; decide +kernel) met _ _ _ _ rfl rfl rfl rfl _
    (.tail _ (.tail _ (.tail _ (.tail _ (.head _))))) rfl) :=
    H 0 0 ⟨.shl, 0, 7, 0, 0, 31⟩ (st (prog ⟨.shl, 0, 7, 0, 0, 31⟩ {} { w := [(0, -3)] }))
    (by unfold Hw.issues Hw.present Hw.cpReadable Hw.memKept Hw.bankKept; decide +kernel) met _ _ _ _ rfl rfl rfl rfl _
    (.tail _ (.tail _ (.tail _ (.tail _ (.head _))))) rfl

/-- ArithmeticMicroOps: MIN with a constant. -/
theorem test_wit_alu_min (H : Obligations.ArithmeticMicroOps) :
    type_of% (H 0 0 ⟨.min, 0, 7, 0, 8, 0⟩ (st (prog ⟨.min, 0, 7, 0, 8, 0⟩ {} { w := [(0, 3)] }))
    (by unfold Hw.issues Hw.present Hw.cpReadable Hw.memKept Hw.bankKept; decide +kernel) met _ _ _ _ rfl rfl rfl rfl _
    (.tail _ (.tail _ (.tail _ (.tail _ (.tail _ (.head _)))))) rfl) :=
    H 0 0 ⟨.min, 0, 7, 0, 8, 0⟩ (st (prog ⟨.min, 0, 7, 0, 8, 0⟩ {} { w := [(0, 3)] }))
    (by unfold Hw.issues Hw.present Hw.cpReadable Hw.memKept Hw.bankKept; decide +kernel) met _ _ _ _ rfl rfl rfl rfl _
    (.tail _ (.tail _ (.tail _ (.tail _ (.tail _ (.head _)))))) rfl

/-- ArithmeticMicroOps: MAX with a constant. -/
theorem test_wit_alu_max (H : Obligations.ArithmeticMicroOps) :
    type_of% (H 0 0 ⟨.max, 0, 7, 0, 15, 0⟩ (st (prog ⟨.max, 0, 7, 0, 15, 0⟩ {} { w := [(0, 3)] }))
    (by unfold Hw.issues Hw.present Hw.cpReadable Hw.memKept Hw.bankKept; decide +kernel) met _ _ _ _ rfl rfl rfl rfl _
    (.tail _ (.tail _ (.tail _ (.tail _ (.tail _ (.tail _ (.head _))))))) rfl) :=
    H 0 0 ⟨.max, 0, 7, 0, 15, 0⟩ (st (prog ⟨.max, 0, 7, 0, 15, 0⟩ {} { w := [(0, 3)] }))
    (by unfold Hw.issues Hw.present Hw.cpReadable Hw.memKept Hw.bankKept; decide +kernel) met _ _ _ _ rfl rfl rfl rfl _
    (.tail _ (.tail _ (.tail _ (.tail _ (.tail _ (.tail _ (.head _))))))) rfl

/-- ArithmeticMicroOps: ABS of the most negative value. -/
theorem test_wit_alu_abs (H : Obligations.ArithmeticMicroOps) :
    type_of% (H 0 0 ⟨.abs, 0, 7, 0, 0, 0⟩ (st (prog ⟨.abs, 0, 7, 0, 0, 0⟩ {} { w := [(0, -8388608)] }))
    (by unfold Hw.issues Hw.present Hw.cpReadable Hw.memKept Hw.bankKept; decide +kernel) met _ _ _ _ rfl rfl rfl rfl _
    (.tail _ (.tail _ (.tail _ (.tail _ (.tail _ (.tail _ (.tail _ (.head _)))))))) rfl) :=
    H 0 0 ⟨.abs, 0, 7, 0, 0, 0⟩ (st (prog ⟨.abs, 0, 7, 0, 0, 0⟩ {} { w := [(0, -8388608)] }))
    (by unfold Hw.issues Hw.present Hw.cpReadable Hw.memKept Hw.bankKept; decide +kernel) met _ _ _ _ rfl rfl rfl rfl _
    (.tail _ (.tail _ (.tail _ (.tail _ (.tail _ (.tail _ (.tail _ (.head _)))))))) rfl

/-- ArithmeticMicroOps: NEG. -/
theorem test_wit_alu_neg (H : Obligations.ArithmeticMicroOps) :
    type_of% (H 0 0 ⟨.neg, 0, 7, 0, 0, 0⟩ (st (prog ⟨.neg, 0, 7, 0, 0, 0⟩ {} { w := [(0, 8388607)] }))
    (by unfold Hw.issues Hw.present Hw.cpReadable Hw.memKept Hw.bankKept; decide +kernel) met _ _ _ _ rfl rfl rfl rfl _
    (.tail _ (.tail _ (.tail _ (.tail _ (.tail _ (.tail _ (.tail _ (.tail _ (.head _))))))))) rfl) :=
    H 0 0 ⟨.neg, 0, 7, 0, 0, 0⟩ (st (prog ⟨.neg, 0, 7, 0, 0, 0⟩ {} { w := [(0, 8388607)] }))
    (by unfold Hw.issues Hw.present Hw.cpReadable Hw.memKept Hw.bankKept; decide +kernel) met _ _ _ _ rfl rfl rfl rfl _
    (.tail _ (.tail _ (.tail _ (.tail _ (.tail _ (.tail _ (.tail _ (.tail _ (.head _))))))))) rfl

/-- ArithmeticMicroOps: MOV. -/
theorem test_wit_alu_mov (H : Obligations.ArithmeticMicroOps) :
    type_of% (H 0 0 ⟨.mov, 0, 7, 0, 0, 0⟩ (st (prog ⟨.mov, 0, 7, 0, 0, 0⟩ {} { w := [(0, 3)] }))
    (by unfold Hw.issues Hw.present Hw.cpReadable Hw.memKept Hw.bankKept; decide +kernel) met _ _ _ _ rfl rfl rfl rfl _
    (.tail _ (.tail _ (.tail _ (.tail _ (.tail _ (.tail _ (.tail _ (.tail _ (.tail _ (.head _)))))))))) rfl) :=
    H 0 0 ⟨.mov, 0, 7, 0, 0, 0⟩ (st (prog ⟨.mov, 0, 7, 0, 0, 0⟩ {} { w := [(0, 3)] }))
    (by unfold Hw.issues Hw.present Hw.cpReadable Hw.memKept Hw.bankKept; decide +kernel) met _ _ _ _ rfl rfl rfl rfl _
    (.tail _ (.tail _ (.tail _ (.tail _ (.tail _ (.tail _ (.tail _ (.tail _ (.tail _ (.head _)))))))))) rfl

/-- ArithmeticMicroOps: LDI of −1. -/
theorem test_wit_alu_ldi (H : Obligations.ArithmeticMicroOps) :
    type_of% (H 0 0 ⟨.ldi, 0, 7, 0, 0, 0x1FFF⟩ (st (prog ⟨.ldi, 0, 7, 0, 0, 0x1FFF⟩))
    (by unfold Hw.issues Hw.present Hw.cpReadable Hw.memKept Hw.bankKept; decide +kernel) met _ _ _ _ rfl rfl rfl rfl _
    (.tail _ (.tail _ (.tail _ (.tail _ (.tail _ (.tail _ (.tail _ (.tail _ (.tail _ (.tail _ (.head _))))))))))) rfl) :=
    H 0 0 ⟨.ldi, 0, 7, 0, 0, 0x1FFF⟩ (st (prog ⟨.ldi, 0, 7, 0, 0, 0x1FFF⟩))
    (by unfold Hw.issues Hw.present Hw.cpReadable Hw.memKept Hw.bankKept; decide +kernel) met _ _ _ _ rfl rfl rfl rfl _
    (.tail _ (.tail _ (.tail _ (.tail _ (.tail _ (.tail _ (.tail _ (.tail _ (.tail _ (.tail _ (.head _))))))))))) rfl

/-- OtherMicroOps: NOP. -/
theorem test_wit_op_nop (H : Obligations.OtherMicroOps) :
    type_of% (((((H 0 0 (st (prog ⟨.nop, 0, 0, 0, 0, 0⟩))).2 ⟨.nop, 0, 0, 0, 0, 0⟩
    (by unfold Hw.present Hw.cpReadable Hw.memKept Hw.bankKept; decide +kernel)).2 met _ _ _ _ rfl rfl rfl rfl).1 met).1
    rfl) :=
    ((((H 0 0 (st (prog ⟨.nop, 0, 0, 0, 0, 0⟩))).2 ⟨.nop, 0, 0, 0, 0, 0⟩
    (by unfold Hw.present Hw.cpReadable Hw.memKept Hw.bankKept; decide +kernel)).2 met _ _ _ _ rfl rfl rfl rfl).1 met).1
    rfl

/-- OtherMicroOps: CMPGE of equal values. -/
theorem test_wit_op_cmpge (H : Obligations.OtherMicroOps) :
    type_of% (((((H 0 0 (st (prog ⟨.cmpge, 0, 0, 0, 1, 0⟩))).2 ⟨.cmpge, 0, 0, 0, 1, 0⟩
    (by unfold Hw.present Hw.cpReadable Hw.memKept Hw.bankKept; decide +kernel)).2 met _ _ _ _ rfl rfl rfl rfl).1 met).2.1
    _ (.head _) rfl) :=
    ((((H 0 0 (st (prog ⟨.cmpge, 0, 0, 0, 1, 0⟩))).2 ⟨.cmpge, 0, 0, 0, 1, 0⟩
    (by unfold Hw.present Hw.cpReadable Hw.memKept Hw.bankKept; decide +kernel)).2 met _ _ _ _ rfl rfl rfl rfl).1 met).2.1
    _ (.head _) rfl

/-- OtherMicroOps: CMPLT of equal values. -/
theorem test_wit_op_cmplt (H : Obligations.OtherMicroOps) :
    type_of% (((((H 0 0 (st (prog ⟨.cmplt, 0, 0, 0, 1, 0⟩ {} { f := true }))).2 ⟨.cmplt, 0, 0, 0, 1, 0⟩
    (by unfold Hw.present Hw.cpReadable Hw.memKept Hw.bankKept; decide +kernel)).2 met _ _ _ _ rfl rfl rfl rfl).1 met).2.1
    _ (.tail _ (.head _)) rfl) :=
    ((((H 0 0 (st (prog ⟨.cmplt, 0, 0, 0, 1, 0⟩ {} { f := true }))).2 ⟨.cmplt, 0, 0, 0, 1, 0⟩
    (by unfold Hw.present Hw.cpReadable Hw.memKept Hw.bankKept; decide +kernel)).2 met _ _ _ _ rfl rfl rfl rfl).1 met).2.1
    _ (.tail _ (.head _)) rfl

/-- OtherMicroOps: CMPEQ. -/
theorem test_wit_op_cmpeq (H : Obligations.OtherMicroOps) :
    type_of% (((((H 0 0 (st (prog ⟨.cmpeq, 0, 0, 0, 1, 0⟩))).2 ⟨.cmpeq, 0, 0, 0, 1, 0⟩
    (by unfold Hw.present Hw.cpReadable Hw.memKept Hw.bankKept; decide +kernel)).2 met _ _ _ _ rfl rfl rfl rfl).1 met).2.1
    _ (.tail _ (.tail _ (.head _))) rfl) :=
    ((((H 0 0 (st (prog ⟨.cmpeq, 0, 0, 0, 1, 0⟩))).2 ⟨.cmpeq, 0, 0, 0, 1, 0⟩
    (by unfold Hw.present Hw.cpReadable Hw.memKept Hw.bankKept; decide +kernel)).2 met _ _ _ _ rfl rfl rfl rfl).1 met).2.1
    _ (.tail _ (.tail _ (.head _))) rfl

/-- OtherMicroOps: CMPNZ. -/
theorem test_wit_op_cmpnz (H : Obligations.OtherMicroOps) :
    type_of% (((((H 0 0 (st (prog ⟨.cmpnz, 0, 0, 0, 0, 0⟩ {} { w := [(0, -1)] }))).2 ⟨.cmpnz, 0, 0, 0, 0, 0⟩
    (by unfold Hw.present Hw.cpReadable Hw.memKept Hw.bankKept; decide +kernel)).2 met _ _ _ _ rfl rfl rfl rfl).1 met).2.1
    _ (.tail _ (.tail _ (.tail _ (.head _)))) rfl) :=
    ((((H 0 0 (st (prog ⟨.cmpnz, 0, 0, 0, 0, 0⟩ {} { w := [(0, -1)] }))).2 ⟨.cmpnz, 0, 0, 0, 0, 0⟩
    (by unfold Hw.present Hw.cpReadable Hw.memKept Hw.bankKept; decide +kernel)).2 met _ _ _ _ rfl rfl rfl rfl).1 met).2.1
    _ (.tail _ (.tail _ (.tail _ (.head _)))) rfl

/-- OtherMicroOps: JMP to the last word. -/
theorem test_wit_op_jmp (H : Obligations.OtherMicroOps) :
    type_of% (((((H 0 0 (st (prog ⟨.jmp, 0, 0, 0, 0, 1⟩))).2 ⟨.jmp, 0, 0, 0, 0, 1⟩
    (by unfold Hw.present Hw.cpReadable Hw.memKept Hw.bankKept; decide +kernel)).2 met _ _ _ _ rfl rfl rfl rfl).1
    met).2.2.1 rfl) :=
    ((((H 0 0 (st (prog ⟨.jmp, 0, 0, 0, 0, 1⟩))).2 ⟨.jmp, 0, 0, 0, 0, 1⟩
    (by unfold Hw.present Hw.cpReadable Hw.memKept Hw.bankKept; decide +kernel)).2 met _ _ _ _ rfl rfl rfl rfl).1
    met).2.2.1 rfl

/-- OtherMicroOps: LDW of the last word of square memory. -/
theorem test_wit_op_ldw (H : Obligations.OtherMicroOps) :
    type_of% (((((H 0 0 (st (prog ⟨.ldw, 0, 5, 0, 0, 1⟩ {} { w := [(0, 0x1FFFF8)] }))).2 ⟨.ldw, 0, 5, 0, 0, 1⟩
    (by unfold Hw.present Hw.cpReadable Hw.memKept Hw.bankKept; decide +kernel)).2 met _ _ _ _ rfl rfl rfl rfl).1
    met).2.2.2.1 rfl 0x1FFFFC met met) :=
    ((((H 0 0 (st (prog ⟨.ldw, 0, 5, 0, 0, 1⟩ {} { w := [(0, 0x1FFFF8)] }))).2 ⟨.ldw, 0, 5, 0, 0, 1⟩
    (by unfold Hw.present Hw.cpReadable Hw.memKept Hw.bankKept; decide +kernel)).2 met _ _ _ _ rfl rfl rfl rfl).1
    met).2.2.2.1 rfl 0x1FFFFC met met

/-- OtherMicroOps: STW of −1. -/
theorem test_wit_op_stw (H : Obligations.OtherMicroOps) :
    type_of% (((((H 0 0 (st (prog ⟨.stw, 0, 0, 0, 1, 1⟩ {} { w := [(0, 0x1FFFF8), (1, -1)] }))).2 ⟨.stw, 0, 0, 0, 1, 1⟩
    (by unfold Hw.present Hw.cpReadable Hw.memKept Hw.bankKept; decide +kernel)).2 met _ _ _ _ rfl rfl rfl rfl).1
    met).2.2.2.2 rfl 0x1FFFFC met met met) :=
    ((((H 0 0 (st (prog ⟨.stw, 0, 0, 0, 1, 1⟩ {} { w := [(0, 0x1FFFF8), (1, -1)] }))).2 ⟨.stw, 0, 0, 0, 1, 1⟩
    (by unfold Hw.present Hw.cpReadable Hw.memKept Hw.bankKept; decide +kernel)).2 met _ _ _ _ rfl rfl rfl rfl).1
    met).2.2.2.2 rfl 0x1FFFFC met met met

/-- OtherMicroOps: END as the last word. -/
theorem test_wit_op_end (H : Obligations.OtherMicroOps) :
    type_of% (((H 0 0 (st { prog ⟨.fin, 0, 0, 0, 0, 0⟩ with core := [(0, { cp := { run := true, len := 1 } })] })).2 ⟨.fin, 0, 0, 0,
    0, 0⟩ (by unfold Hw.present Hw.cpReadable Hw.memKept Hw.bankKept; decide +kernel)).1 rfl) :=
    ((H 0 0 (st { prog ⟨.fin, 0, 0, 0, 0, 0⟩ with core := [(0, { cp := { run := true, len := 1 } })] })).2 ⟨.fin, 0, 0, 0,
    0, 0⟩ (by unfold Hw.present Hw.cpReadable Hw.memKept Hw.bankKept; decide +kernel)).1 rfl

/-- OtherMicroOps: NOP while square memory is OFF. -/
theorem test_wit_op_off (H : Obligations.OtherMicroOps) :
    type_of% ((H 0 0 (st { prog ⟨.nop, 0, 0, 0, 0, 0⟩ with sq := [(0, { banks := [(19, { state := .off })] })] })).1 met met _
    (.head _)) :=
    (H 0 0 (st { prog ⟨.nop, 0, 0, 0, 0, 0⟩ with sq := [(0, { banks := [(19, { state := .off })] })] })).1 met met _
    (.head _)

/-- OtherMicroOps: an ADD under F, which is false. -/
theorem test_wit_op_not (H : Obligations.OtherMicroOps) :
    type_of% ((((H 0 0 (st (prog ⟨.add, 1, 0, 0, 0, 0⟩))).2 ⟨.add, 1, 0, 0, 0, 0⟩
    (by unfold Hw.present Hw.cpReadable Hw.memKept Hw.bankKept; decide +kernel)).2 met _ _ _ _ rfl rfl rfl rfl).2 met _
    (.tail _ (.head _)) rfl) :=
    (((H 0 0 (st (prog ⟨.add, 1, 0, 0, 0, 0⟩))).2 ⟨.add, 1, 0, 0, 0, 0⟩
    (by unfold Hw.present Hw.cpReadable Hw.memKept Hw.bankKept; decide +kernel)).2 met _ _ _ _ rfl rfl rfl rfl).2 met _
    (.tail _ (.head _)) rfl

/-- LinkFramesRoundTrip: a frame of two packets with every field at its limit. -/
theorem test_wit_frame (H : Obligations.LinkFramesRoundTrip) :
    type_of% (H
    { nak := true, seq := 4095, ack := 4095, credit := 255, ctrl := 2 ^ 24 - 1, pkts := [{ hdr := 5, pay := 6, par := 7, age := 31 }, { hdr := 8, pay := 9, par := 1 }] }
    met met met met met met) :=
    H
    { nak := true, seq := 4095, ack := 4095, credit := 255, ctrl := 2 ^ 24 - 1, pkts := [{ hdr := 5, pay := 6, par := 7, age := 31 }, { hdr := 8, pay := 9, par := 1 }] }
    met met met met met met

/-- QueueEnds: a RECV waits on the queue for a slot. -/
theorem test_wit_rclose2 (H : Obligations.QueueEnds) :
    type_of% ((H .other 0 0 2 (st (prog ⟨.recv, 0, 5, 3, 0, 2⟩ { queue := [(2, { open_ := true, valid := [1] })] }
    { wait := some (.recv 2 5 0x40) })) (by unfold Hw.coreServes Hw.sqServes; decide +kernel)).2.2.2.1 5 0x40 met met met) :=
    (H .other 0 0 2 (st (prog ⟨.recv, 0, 5, 3, 0, 2⟩ { queue := [(2, { open_ := true, valid := [1] })] }
    { wait := some (.recv 2 5 0x40) })) (by unfold Hw.coreServes Hw.sqServes; decide +kernel)).2.2.2.1 5 0x40 met met met

/-- MessagesMove: no credit is left. -/
theorem test_wit_send3 (H : Obligations.MessagesMove) :
    type_of% ((((H 0 0 ⟨.send, 0, 2, 3, 0, 1⟩ 0x40 (st (prog ⟨.send, 0, 2, 3, 0, 1⟩
    { send := [(1, { open_ := true, credits := 0 })] } { w := [(3, 0x40)] })) met _ rfl).1
    (by unfold Hw.issues Hw.present Hw.cpReadable Hw.memKept Hw.bankKept; decide +kernel) met _ _ rfl rfl).1 rfl _
    rfl).2.1 met met met) :=
    (((H 0 0 ⟨.send, 0, 2, 3, 0, 1⟩ 0x40 (st (prog ⟨.send, 0, 2, 3, 0, 1⟩
    { send := [(1, { open_ := true, credits := 0 })] } { w := [(3, 0x40)] })) met _ rfl).1
    (by unfold Hw.issues Hw.present Hw.cpReadable Hw.memKept Hw.bankKept; decide +kernel) met _ _ rfl rfl).1 rfl _
    rfl).2.1 met met met

/-- MessagesMove: a channel that was rejected with STALE. -/
theorem test_wit_send4 (H : Obligations.MessagesMove) :
    type_of% ((((H 0 0 ⟨.send, 0, 2, 3, 0, 1⟩ 0x40 (st (prog ⟨.send, 0, 2, 3, 0, 1⟩
    { send := [(1, { open_ := true, credits := 5, rej := 0x12 })] } { w := [(3, 0x40)] })) met _ rfl).1
    (by unfold Hw.issues Hw.present Hw.cpReadable Hw.memKept Hw.bankKept; decide +kernel) met _ _ rfl rfl).1 rfl _
    rfl).2.2.1 met met) :=
    (((H 0 0 ⟨.send, 0, 2, 3, 0, 1⟩ 0x40 (st (prog ⟨.send, 0, 2, 3, 0, 1⟩
    { send := [(1, { open_ := true, credits := 5, rej := 0x12 })] } { w := [(3, 0x40)] })) met _ rfl).1
    (by unfold Hw.issues Hw.present Hw.cpReadable Hw.memKept Hw.bankKept; decide +kernel) met _ _ rfl rfl).1 rfl _
    rfl).2.2.1 met met

/-- MessagesMove: the last valid slot. -/
theorem test_wit_recv3 (H : Obligations.MessagesMove) :
    type_of% (((((H 0 0 ⟨.recv, 0, 2, 3, 0, 2⟩ 0x40 (st (prog ⟨.recv, 0, 2, 3, 0, 2⟩
    { queue := [(2, { open_ := true, valid := [255], rptr := 255, buf := 1, ssq := 7, score := 3 })] }
    { w := [(3, 0x40)] })) met _ rfl).1
    (by unfold Hw.issues Hw.present Hw.cpReadable Hw.memKept Hw.bankKept; decide +kernel) met _ _ rfl rfl).2 rfl _ rfl).1
    met met met _ rfl).2 (.inr (.inl met))) :=
    ((((H 0 0 ⟨.recv, 0, 2, 3, 0, 2⟩ 0x40 (st (prog ⟨.recv, 0, 2, 3, 0, 2⟩
    { queue := [(2, { open_ := true, valid := [255], rptr := 255, buf := 1, ssq := 7, score := 3 })] }
    { w := [(3, 0x40)] })) met _ rfl).1
    (by unfold Hw.issues Hw.present Hw.cpReadable Hw.memKept Hw.bankKept; decide +kernel) met _ _ rfl rfl).2 rfl _ rfl).1
    met met met _ rfl).2 (.inr (.inl met))

/-- MessagesMove: an open queue without a valid slot. -/
theorem test_wit_recv4 (H : Obligations.MessagesMove) :
    type_of% ((((H 0 0 ⟨.recv, 0, 2, 3, 0, 2⟩ 0x40 (st (prog ⟨.recv, 0, 2, 3, 0, 2⟩
    { queue := [(2, { open_ := true, valid := [254], rptr := 255 })] } { w := [(3, 0x40)] })) met _ rfl).1
    (by unfold Hw.issues Hw.present Hw.cpReadable Hw.memKept Hw.bankKept; decide +kernel) met _ _ rfl rfl).2 rfl _
    rfl).2.1 met met) :=
    (((H 0 0 ⟨.recv, 0, 2, 3, 0, 2⟩ 0x40 (st (prog ⟨.recv, 0, 2, 3, 0, 2⟩
    { queue := [(2, { open_ := true, valid := [254], rptr := 255 })] } { w := [(3, 0x40)] })) met _ rfl).1
    (by unfold Hw.issues Hw.present Hw.cpReadable Hw.memKept Hw.bankKept; decide +kernel) met _ _ rfl rfl).2 rfl _
    rfl).2.1 met met

/-- PacketsAreServed: a WRITE to square memory. -/
theorem test_wit_pwrite (H : Obligations.PacketsAreServed) :
    type_of% ((H 63 aWrite [] (st (inboxOf 63 aWrite)) met _ _ rfl rfl _ rfl).1 met met met met met met met) :=
    (H 63 aWrite [] (st (inboxOf 63 aWrite)) met _ _ rfl rfl _ rfl).1 met met met met met met met

/-- PacketsAreServed: a READ of square memory, with a word of correct path parity. -/
theorem test_wit_pread (H : Obligations.PacketsAreServed) :
    type_of% (((H 63 aRead [] (st (inboxOf 63 aRead)) met _ _ rfl rfl _ rfl).2.1 met met met met [.word 19 0 0 0 15]).1 met met) :=
    ((H 63 aRead [] (st (inboxOf 63 aRead)) met _ _ rfl rfl _ rfl).2.1 met met met met [.word 19 0 0 0 15]).1 met met

/-- PacketsAreServed: a FENCE whose count has been reached. -/
theorem test_wit_pfence (H : Obligations.PacketsAreServed) :
    type_of% (((H 63 aFence [] (st (inboxOf 63 aFence { wid := [(255, { count := 1, ecc := true })] })) met _ _ rfl rfl _ rfl).2.2
    met met met met met met _ rfl).1 met) :=
    ((H 63 aFence [] (st (inboxOf 63 aFence { wid := [(255, { count := 1, ecc := true })] })) met _ _ rfl rfl _ rfl).2.2
    met met met met met met _ rfl).1 met

/-- QueuePacketsArrive: a message for queue 1 of core 17. -/
theorem test_wit_pqueue (H : Obligations.QueuePacketsArrive) :
    type_of% ((H 0 aQueue [] (st
    { inboxOf 0 aQueue { lmap := [(17, 18)] } with core := [(17, { queue := [(1, { bound := true, open_ := true, score := 3, gen := 200 })] })] })
    met _ rfl).1 met met _ _ _ _ rfl rfl rfl rfl met met met met met met met met met (by intro d off h; cases h)) :=
    (H 0 aQueue [] (st
    { inboxOf 0 aQueue { lmap := [(17, 18)] } with core := [(17, { queue := [(1, { bound := true, open_ := true, score := 3, gen := 200 })] })] })
    met _ rfl).1 met met _ _ _ _ rfl rfl rfl rfl met met met met met met met met met (by intro d off h; cases h)

/-- QueuePacketsArrive: credit for channel 2 of core 5, up to the limit. -/
theorem test_wit_pqstat (H : Obligations.QueuePacketsArrive) :
    type_of% (((H 0 aQstat [] (st
    { inboxOf 0 aQstat with core := [(5, { send := [(2, { dcore := 2, dq := 1, gen := 4, credits := 4, open_ := true })] })] })
    met _ rfl).2.1 met met met _ rfl).2.1 met 2 _ met rfl met met met met (by intro d off h; cases h)) :=
    ((H 0 aQstat [] (st
    { inboxOf 0 aQstat with core := [(5, { send := [(2, { dcore := 2, dq := 1, gen := 4, credits := 4, open_ := true })] })] })
    met _ rfl).2.1 met met met _ rfl).2.1 met 2 _ met rfl met met met met (by intro d off h; cases h)

/-- QueuePacketsArrive: a QSTAT for core 18. -/
theorem test_wit_pqstat2 (H : Obligations.QueuePacketsArrive) :
    type_of% (((H 0 (mkQstat {} 0 0 18 2 0 9 4 255) [] (st (inboxOf 0 (mkQstat {} 0 0 18 2 0 9 4 255))) met _ rfl).2.1 met met met _
    rfl).1 met) :=
    ((H 0 (mkQstat {} 0 0 18 2 0 9 4 255) [] (st (inboxOf 0 (mkQstat {} 0 0 18 2 0 9 4 255))) met _ rfl).2.1 met met met _
    rfl).1 met

/-- QueuePacketsArrive: a data RESP for square 8, which has no I/O hub. -/
theorem test_wit_presp (H : Obligations.QueuePacketsArrive) :
    type_of% (((H 8 aResp [] (st (inboxOf 8 aResp)) met _ rfl).2.2.1 (by intro h; revert h; decide) met met).1 met met met met) :=
    ((H 8 aResp [] (st (inboxOf 8 aResp)) met _ rfl).2.2.1 (by intro h; revert h; decide) met met).1 met met met met

/-- QueuePacketsArrive: the inbox watchdog of square 8. -/
theorem test_wit_pwdog (H : Obligations.QueuePacketsArrive) :
    type_of% ((H 8 aResp [] (st (inboxOf 8 aResp { wdogCount := wdogLimit })) met _ rfl).2.2.2 met met) :=
    (H 8 aResp [] (st (inboxOf 8 aResp { wdogCount := wdogLimit })) met _ rfl).2.2.2 met met

/-- PacketsTravel: a WRITE for square 63 leaves square 0 to the north. -/
theorem test_wit_inject (H : Obligations.PacketsTravel) :
    type_of% (H.1 0 { aWrite with age := 9 } _ [] 0 8 (st { sq := [(0, { rt := { inject := [{ aWrite with age := 9 }] } })] }) met
    met met rfl met met met met met met) :=
    H.1 0 { aWrite with age := 9 } _ [] 0 8 (st { sq := [(0, { rt := { inject := [{ aWrite with age := 9 }] } })] }) met
    met met rfl met met met met met met

/-- PacketsTravel: an empty board. -/
theorem test_wit_cycle0 (H : Obligations.PacketsTravel) :
    type_of% ((H.2.1 (st { rt := { tie := 3 } }) met _ rfl).1 met) :=
    (H.2.1 (st { rt := { tie := 3 } }) met _ rfl).1 met

/-- PacketsTravel: a WRITE for square 63 alone at square 9. -/
theorem test_wit_cycle1 (H : Obligations.PacketsTravel) :
    type_of% ((H.2.1 (st { sq := [(9, { rt := { latch := [(3, aWrite)], occ := [(0, 6)] } })] }) met _ rfl).2 9 3 aWrite 1 10 met
    met met met met met met met met) :=
    (H.2.1 (st { sq := [(9, { rt := { latch := [(3, aWrite)], occ := [(0, 6)] } })] }) met _ rfl).2 9 3 aWrite 1 10 met
    met met met met met met met met

/-- PacketsTravel: a draining square. -/
theorem test_wit_absent (H : Obligations.PacketsTravel) :
    type_of% (H.2.2 5 (st { sq := [(5, { rt := { state := .draining } })] }) met met met) :=
    H.2.2 5 (st { sq := [(5, { rt := { state := .draining } })] }) met met met

/-- LinkPortsMoveFrames: an idle frame. -/
theorem test_wit_tx (H : Obligations.LinkPortsMoveFrames) :
    type_of% ((((H 5 .plain .plain (st { link := [(5, { up := true, nextSeq := 4095, creditOwed := 300, nakOwed := true })] }) _
    rfl).1 met).2.2 met met _ rfl).1 met) :=
    (((H 5 .plain .plain (st { link := [(5, { up := true, nextSeq := 4095, creditOwed := 300, nakOwed := true })] }) _
    rfl).1 met).2.2 met met _ rfl).1 met

/-- LinkPortsMoveFrames: a frame with a wrong CRC. -/
theorem test_wit_rxbad (H : Obligations.LinkPortsMoveFrames) :
    type_of% ((H 5 .plain .plain (st { link := [(5, { up := true, crcErr := 0xFFFFFFFF })] }) _ rfl).2.1 1 met met) :=
    (H 5 .plain .plain (st { link := [(5, { up := true, crcErr := 0xFFFFFFFF })] }) _ rfl).2.1 1 met met

/-- LinkPortsMoveFrames: a frame out of sequence. -/
theorem test_wit_rxseq (H : Obligations.LinkPortsMoveFrames) :
    type_of% ((H 5 .plain .plain (st { link := [(5, { up := true })] }) _ rfl).2.2.1 (BitVec.ofNat 512 (({ seq := 1 } :
    Frame).bits)) { seq := 1 } met met met) :=
    (H 5 .plain .plain (st { link := [(5, { up := true })] }) _ rfl).2.2.1 (BitVec.ofNat 512 (({ seq := 1 } :
    Frame).bits)) { seq := 1 } met met met

/-- LinkPortsMoveFrames: the first frame. -/
theorem test_wit_rxok (H : Obligations.LinkPortsMoveFrames) :
    type_of% (((H 5 .plain .plain (st { link := [(5, { up := true, credits := 400 })] }) _ rfl).2.2.2.1 (BitVec.ofNat 512
    (({ seq := 0, ack := 4095, credit := 255 } : Frame).bits)) { seq := 0, ack := 4095, credit := 255 } met met met met _
    rfl).1 met met met) :=
    ((H 5 .plain .plain (st { link := [(5, { up := true, credits := 400 })] }) _ rfl).2.2.2.1 (BitVec.ofNat 512
    (({ seq := 0, ack := 4095, credit := 255 } : Frame).bits)) { seq := 0, ack := 4095, credit := 255 } met met met met _
    rfl).1 met met met

/-- LinkPortsMoveFrames: training completes. -/
theorem test_wit_lup (H : Obligations.LinkPortsMoveFrames) :
    type_of% ((H 0 .plain .plain (st { link := [(0, { en := true, training := true })] }) _ rfl).2.2.2.2.2.1 met met met met met _
    rfl) :=
    (H 0 .plain .plain (st { link := [(0, { en := true, training := true })] }) _ rfl).2.2.2.2.2.1 met met met met met _
    rfl

/-- LinkPortsMoveFrames: two lanes have failed. -/
theorem test_wit_lup2 (H : Obligations.LinkPortsMoveFrames) :
    type_of% ((H 0 .plain .plain (st { link := [(0, { en := true, training := true, failed := [0, 1] })] }) _ rfl).2.2.2.2.1 met met
    met met met) :=
    (H 0 .plain .plain (st { link := [(0, { en := true, training := true, failed := [0, 1] })] }) _ rfl).2.2.2.2.1 met met
    met met met

/-- LinkPortsMoveFrames: eight resends of the second frame. -/
theorem test_wit_lresend (H : Obligations.LinkPortsMoveFrames) :
    type_of% ((H 0 .plain .plain (st { link := [(0, { up := true, resends := [0, 8], replay := [{}, {}] })] }) _ rfl).2.2.2.2.2.2.1
    met met met) :=
    (H 0 .plain .plain (st { link := [(0, { up := true, resends := [0, 8], replay := [{}, {}] })] }) _ rfl).2.2.2.2.2.2.1
    met met met

/-- LinkPortsMoveFrames: 2,001 ns of silence. -/
theorem test_wit_lsilent (H : Obligations.LinkPortsMoveFrames) :
    type_of% ((H 0 .plain .plain (st { elapsed := 2001, link := [(0, { up := true, replay := [{}] })] }) _ rfl).2.2.2.2.2.2.2.1 met
    met met) :=
    (H 0 .plain .plain (st { elapsed := 2001, link := [(0, { up := true, replay := [{}] })] }) _ rfl).2.2.2.2.2.2.2.1 met
    met met

/-- LinkPortsMoveFrames: a request for a port with one failed lane. -/
theorem test_wit_ltrain (H : Obligations.LinkPortsMoveFrames) :
    type_of% ((H 0 .plain .plain (st { link := [(0, { en := true, failed := [4] })] }) _ rfl).2.2.2.2.2.2.2.2.1 met met) :=
    (H 0 .plain .plain (st { link := [(0, { en := true, failed := [4] })] }) _ rfl).2.2.2.2.2.2.2.2.1 met met

/-- LanesMove: physical lane 3 fails, which carries logical lane 3. -/
theorem test_wit_lanef (H : Obligations.LanesMove) :
    type_of% (((H .other 5 0 3 (st { link := [(5, { up := true })] }) _ rfl).1 3 met).1 4 met) :=
    ((H .other 5 0 3 (st { link := [(5, { up := true })] }) _ rfl).1 3 met).1 4 met

/-- LanesMove: a retrain runs. -/
theorem test_wit_gobusy (H : Obligations.LanesMove) :
    type_of% ((H .other 5 0 3 (st { link := [(5, { up := true, rtRun := true })] }) _ rfl).2.1 (.inl met)) :=
    (H .other 5 0 3 (st { link := [(5, { up := true, rtRun := true })] }) _ rfl).2.1 (.inl met)

/-- LanesMove: logical lane 3 moves to the spare. -/
theorem test_wit_gook (H : Obligations.LanesMove) :
    type_of% (((H .other 5 3 3 (st { link := [(5, { up := true })] }) _ rfl).2.2.1 4 met met _ rfl).1) :=
    ((H .other 5 3 3 (st { link := [(5, { up := true })] }) _ rfl).2.2.1 4 met met _ rfl).1

/-- LanesMove: 64 errors in a window. -/
theorem test_wit_lanewin (H : Obligations.LanesMove) :
    type_of% (((H .other 5 3 3 (st { link := [(5, { up := true })] }) _ rfl).2.2.1 4 met met _ rfl).2 64 met) :=
    ((H .other 5 3 3 (st { link := [(5, { up := true })] }) _ rfl).2.2.1 4 met met _ rfl).2 64 met

/-- LanesMove: a retrain passes. -/
theorem test_wit_lanedone (H : Obligations.LanesMove) :
    type_of% ((H .other 5 3 3 (st { link := [(5, { up := true, rtRun := true, spareUsed := true })] }) _ rfl).2.2.2.1 met met) :=
    (H .other 5 3 3 (st { link := [(5, { up := true, rtRun := true, spareUsed := true })] }) _ rfl).2.2.2.1 met met

/-- LanesMove: a retrain fails. -/
theorem test_wit_lanebad (H : Obligations.LanesMove) :
    type_of% (((H .other 5 3 3 (st { link := [(5, { up := true, rtRun := true, rtPhys := 2, lane := [(2, 4)] })] }) _ rfl).2.2.2.2.1
    met met _ rfl).1) :=
    ((H .other 5 3 3 (st { link := [(5, { up := true, rtRun := true, rtPhys := 2, lane := [(2, 4)] })] }) _ rfl).2.2.2.2.1
    met met _ rfl).1

/-- LanesMove: a retrain that has run for 1 ns more than 2 ms. -/
theorem test_wit_laneto (H : Obligations.LanesMove) :
    type_of% (((H .other 5 3 3 (st { elapsed := 2000001, link := [(5, { up := true, rtRun := true })] }) _ rfl).2.2.2.2.1 met met _
    rfl).2 met) :=
    ((H .other 5 3 3 (st { elapsed := 2000001, link := [(5, { up := true, rtRun := true })] }) _ rfl).2.2.2.2.1 met met _
    rfl).2 met

/-- LanesMove: 1 ns more than 20 ms without an answer at S7. -/
theorem test_wit_trainto (H : Obligations.LanesMove) :
    type_of% ((H .other 5 3 3 (st
    { elapsed := 20000001, bring := { stage := 7, s0Done := true, last := 6 }, link := [(5, { en := true, training := true })] })
    _ rfl).2.2.2.2.2.2.2 met met met) :=
    (H .other 5 3 3 (st
    { elapsed := 20000001, bring := { stage := 7, s0Done := true, last := 6 }, link := [(5, { en := true, training := true })] })
    _ rfl).2.2.2.2.2.2.2 met met met

/-- LanesMove: a second lane fails while one retrains. -/
theorem test_wit_lanewait (H : Obligations.LanesMove) :
    type_of% ((H .other 5 3 3 (st { link := [(5, { up := true, rtRun := true, rtLane := 1 })] }) _ rfl).2.2.2.2.2.1 met met met 64
    met) :=
    (H .other 5 3 3 (st { link := [(5, { up := true, rtRun := true, rtLane := 1 })] }) _ rfl).2.2.2.2.2.1 met met met 64
    met

/-- LanesMove: a retrain passes while two triggers wait. -/
theorem test_wit_lanenext (H : Obligations.LanesMove) :
    type_of% ((H .other 5 3 3 (st
    { link := [(5, { up := true, rtRun := true, spareUsed := true, rtPhys := 1, lane := [(1, 4)], rtLane := 1, rtWait := [2, 0] })] })
    _ rfl).2.2.2.2.2.2.1 met met 2 [0] _ met rfl 1 met) :=
    (H .other 5 3 3 (st
    { link := [(5, { up := true, rtRun := true, spareUsed := true, rtPhys := 1, lane := [(1, 4)], rtLane := 1, rtWait := [2, 0] })] })
    _ rfl).2.2.2.2.2.2.1 met met 2 [0] _ met rfl 1 met

/-- PacketsAreServed: a READ that sees a word of wrong path parity. -/
theorem test_wit_pread2 (H : Obligations.PacketsAreServed) :
    type_of% (((H 63 aRead [] (st (inboxOf 63 aRead)) met _ _ rfl rfl _ rfl).2.1 met met met met [.word 19 0 0 0 0]).2
    { det := 0x04, status := stPARITY, bank := true, detail := repairDetail 63 19 0 0 } met met met) :=
    ((H 63 aRead [] (st (inboxOf 63 aRead)) met _ _ rfl rfl _ rfl).2.1 met met met met [.word 19 0 0 0 0]).2
    { det := 0x04, status := stPARITY, bank := true, detail := repairDetail 63 19 0 0 } met met met

/-- PacketsAreServed: a FENCE whose count has not been reached. -/
theorem test_wit_pfence2 (H : Obligations.PacketsAreServed) :
    type_of% (((H 63 aFence [] (st (inboxOf 63 aFence { wid := [(255, { count := 0 })] })) met _ _ rfl rfl _ rfl).2.2 met met met
    met met met _ rfl).2 met) :=
    ((H 63 aFence [] (st (inboxOf 63 aFence { wid := [(255, { count := 0 })] })) met _ _ rfl rfl _ rfl).2.2 met met met
    met met met _ rfl).2 met

/-- QueuePacketsArrive: a status RESP at a hub square whose queue to the hub is empty. -/
theorem test_wit_presp2 (H : Obligations.QueuePacketsArrive) :
    type_of% (((H 0 { mkRespStatus {} 0 0 5 9 stOK with age := 0 } [] (st (inboxOf 0 (mkRespStatus {} 0 0 5 9 stOK))) met _
    rfl).2.2.1 (by intro _; rfl) met met).2 met) :=
    ((H 0 { mkRespStatus {} 0 0 5 9 stOK with age := 0 } [] (st (inboxOf 0 (mkRespStatus {} 0 0 5 9 stOK))) met _
    rfl).2.2.1 (by intro _; rfl) met met).2 met

/-- LinkPortsMoveFrames: a resend of the second of two frames. -/
theorem test_wit_tx1 (H : Obligations.LinkPortsMoveFrames) :
    type_of% (((H 5 .plain .plain (st
    { link := [(5, { up := true, nakOwed := true, lastRx := 9, resendAt := some 1, replay := [{ seq := 3 }, { seq := 4 }] })] })
    _ rfl).1 met).1 1 { seq := 4 } met met) :=
    ((H 5 .plain .plain (st
    { link := [(5, { up := true, nakOwed := true, lastRx := 9, resendAt := some 1, replay := [{ seq := 3 }, { seq := 4 }] })] })
    _ rfl).1 met).1 1 { seq := 4 } met met

/-- LinkPortsMoveFrames: 256 frames await acknowledgement. -/
theorem test_wit_tx2 (H : Obligations.LinkPortsMoveFrames) :
    type_of% (((H 5 .plain .plain (st { link := [(5, { up := true, replay := List.replicate 256 {} })] }) _ rfl).1 met).2.1 met met) :=
    ((H 5 .plain .plain (st { link := [(5, { up := true, replay := List.replicate 256 {} })] }) _ rfl).1 met).2.1 met met

/-- LinkPortsMoveFrames: a packet waits at the last square of port 0. -/
theorem test_wit_tx3 (H : Obligations.LinkPortsMoveFrames) :
    type_of% ((((H 0 .plain .plain (st
    { link := [(0, { up := true, credits := 1, ctrlQ := [7] })], sq := [((portSquares 0).getLastD 0, { rt := { edgeOut := [aWrite] } })] })
    _ rfl).1 met).2.2 met met _ rfl).2 ((portSquares 0).getLastD 0) met aWrite met met met met) :=
    (((H 0 .plain .plain (st
    { link := [(0, { up := true, credits := 1, ctrlQ := [7] })], sq := [((portSquares 0).getLastD 0, { rt := { edgeOut := [aWrite] } })] })
    _ rfl).1 met).2.2 met met _ rfl).2 ((portSquares 0).getLastD 0) met aWrite met met met met

/-- LinkPortsMoveFrames: an acknowledgement of the first of two frames. -/
theorem test_wit_rxack (H : Obligations.LinkPortsMoveFrames) :
    type_of% (((H 5 .plain .plain (st
    { link := [(5, { up := true, credits := 5, resends := [3], replay := [{ seq := 3 }, { seq := 4 }] })] }) _
    rfl).2.2.2.1 (BitVec.ofNat 512 (({ seq := 0, ack := 3 } : Frame).bits)) { seq := 0, ack := 3 } met met met met _
    rfl).2.1 met met met [] { seq := 3 } [{ seq := 4 }] met met met) :=
    ((H 5 .plain .plain (st
    { link := [(5, { up := true, credits := 5, resends := [3], replay := [{ seq := 3 }, { seq := 4 }] })] }) _
    rfl).2.2.2.1 (BitVec.ofNat 512 (({ seq := 0, ack := 3 } : Frame).bits)) { seq := 0, ack := 3 } met met met met _
    rfl).2.1 met met met [] { seq := 3 } [{ seq := 4 }] met met met

/-- LinkPortsMoveFrames: a NAK. -/
theorem test_wit_rxnak (H : Obligations.LinkPortsMoveFrames) :
    type_of% (((H 5 .plain .plain (st { link := [(5, { up := true, replay := [{ seq := 3 }, { seq := 4 }] })] }) _ rfl).2.2.2.1
    (BitVec.ofNat 512 (({ nak := true, seq := 0, ack := 2 } : Frame).bits)) { nak := true, seq := 0, ack := 2 } met met
    met met _ rfl).2.2.1 met met met met) :=
    ((H 5 .plain .plain (st { link := [(5, { up := true, replay := [{ seq := 3 }, { seq := 4 }] })] }) _ rfl).2.2.2.1
    (BitVec.ofNat 512 (({ nak := true, seq := 0, ack := 2 } : Frame).bits)) { nak := true, seq := 0, ack := 2 } met met
    met met _ rfl).2.2.1 met met met met

/-- LinkPortsMoveFrames: a frame that carries a WRITE. -/
theorem test_wit_rxpkt (H : Obligations.LinkPortsMoveFrames) :
    type_of% (((H 5 .rowHead .plain (st { link := [(5, { up := true })] }) _ rfl).2.2.2.1 (BitVec.ofNat 512
    (({ seq := 0, pkts := [aWrite] } : Frame).bits)) { seq := 0, pkts := [aWrite] } met met met met _ rfl).2.2.2 aWrite
    met met met) :=
    ((H 5 .rowHead .plain (st { link := [(5, { up := true })] }) _ rfl).2.2.2.1 (BitVec.ofNat 512
    (({ seq := 0, pkts := [aWrite] } : Frame).bits)) { seq := 0, pkts := [aWrite] } met met met met _ rfl).2.2.2 aWrite
    met met met

/-- LinkPortsMoveFrames: a link that is up and marked for a slot where no job runs. -/
theorem test_wit_ldown (H : Obligations.LinkPortsMoveFrames) :
    type_of% ((H 0 .plain .plain (st { link := [(0, { up := true, jobs := 15, replay := [{}] })] }) _ rfl).2.2.2.2.2.2.2.2.2 2 met _
    rfl) :=
    (H 0 .plain .plain (st { link := [(0, { up := true, jobs := 15, replay := [{}] })] }) _ rfl).2.2.2.2.2.2.2.2.2 2 met _
    rfl

/-- LanesMove: physical lane 4 fails, which carries logical lane 1, with no spare left. -/
theorem test_wit_lanef2 (H : Obligations.LanesMove) :
    type_of% (((H .other 5 0 4 (st { link := [(5, { up := true, failed := [1], lane := [(1, 4)], spareUsed := true })] }) _ rfl).1 1
    met).2 met) :=
    ((H .other 5 0 4 (st { link := [(5, { up := true, failed := [1], lane := [(1, 4)], spareUsed := true })] }) _ rfl).1 1
    met).2 met

/-- QueuePacketsArrive: credit for channels 1 and 3 of core 5, which name the same queue. -/
theorem test_wit_pqstat3 (H : Obligations.QueuePacketsArrive) :
    type_of% (((H 0 aQstat [] (st
    { inboxOf 0 aQstat with core := [(5, { send := [(1, { dcore := 2, dq := 1, gen := 4, credits := 4, open_ := true }), (3, { dcore := 2, dq := 1, gen := 4, credits := 9, open_ := true })] })] })
    met _ rfl).2.1 met met met _ rfl).2.2 met met met (by intro c d off h; cases h)) :=
    ((H 0 aQstat [] (st
    { inboxOf 0 aQstat with core := [(5, { send := [(1, { dcore := 2, dq := 1, gen := 4, credits := 4, open_ := true }), (3, { dcore := 2, dq := 1, gen := 4, credits := 9, open_ := true })] })] })
    met _ rfl).2.1 met met met _ rfl).2.2 met met met (by intro c d off h; cases h)

/-- TemposBegin: the cutoff of tempo 7 has come. -/
theorem test_wit_cut1 (H : Obligations.TemposBegin) :
    type_of% (((H 0 (st { tb := { now := 350000 }, jobs := job0 { inTempo := 7, phase := 1, tempo := 8 } }) _ rfl met met).1 met
    met).1) :=
    ((H 0 (st { tb := { now := 350000 }, jobs := job0 { inTempo := 7, phase := 1, tempo := 8 } }) _ rfl met met).1 met
    met).1

/-- TemposBegin: the running tempo has started and has its input. -/
theorem test_wit_cut2 (H : Obligations.TemposBegin) :
    type_of% (((H 0 (st
    { tb := { now := 350000 }, jobs := job0 { inTempo := 7, phase := 1, tempo := 7, started := true, injected := true } })
    _ rfl met met).1 met met).2.1 met met) :=
    ((H 0 (st
    { tb := { now := 350000 }, jobs := job0 { inTempo := 7, phase := 1, tempo := 7, started := true, injected := true } })
    _ rfl met met).1 met met).2.1 met met

/-- TemposBegin: the cutoff starts the running tempo. -/
theorem test_wit_cut3 (H : Obligations.TemposBegin) :
    type_of% (((H 0 (st { tb := { now := 350000 }, jobs := job0 { inTempo := 7, phase := 1, tempo := 7, dPrev := 350001 } }) _ rfl
    met met).1 met met).2.2 met met met) :=
    ((H 0 (st { tb := { now := 350000 }, jobs := job0 { inTempo := 7, phase := 1, tempo := 7, dPrev := 350001 } }) _ rfl
    met met).1 met met).2.2 met met met

/-- TemposBegin: a job of slot 3 waits for its release, which is now. -/
theorem test_wit_release (H : Obligations.TemposBegin) :
    type_of% ((H 3 (st
    { tb := { now := 5000000 }, jobs := [(3, { active := true, mask := 2, startAt := 5000000, t0 := 4, tempo := 9 })] }) _
    rfl met met).2 met met met met (fun _ _ _ _ => rfl)) :=
    (H 3 (st
    { tb := { now := 5000000 }, jobs := [(3, { active := true, mask := 2, startAt := 5000000, t0 := 4, tempo := 9 })] }) _
    rfl met met).2 met met met met (fun _ _ _ _ => rfl)

/-- TemposClose: every square of the job has closed, with a table in force, and a sum passes its check. -/
theorem test_wit_close (H : Obligations.TemposClose) :
    type_of% ((H.1 0 (st closeHw) _ rfl).1 [(0, .result 3 5 (.add 1 2 3))] met met met close_quiet) :=
    (H.1 0 (st closeHw) _ rfl).1 [(0, .result 3 5 (.add 1 2 3))] met met met close_quiet

/-- TemposClose: every square of the job is done. -/
theorem test_wit_done (H : Obligations.TemposClose) :
    type_of% ((H.1 0 (st { tb := { now := 99 }, jobs := job0 { phase := 3, doneSq := [0], boundLatch := 7, tempo := 5 } }) _ rfl).2
    met met met (fun _ _ => rfl) met met) :=
    (H.1 0 (st { tb := { now := 99 }, jobs := job0 { phase := 3, doneSq := [0], boundLatch := 7, tempo := 5 } }) _ rfl).2
    met met met (fun _ _ => rfl) met met

/-- SquaresUpdate: one event whose binding reaches no core. -/
theorem test_wit_distribute (H : Obligations.SquaresUpdate) :
    type_of% (((H 0 0 (st distHw) met).1 0 ⟨anEvent, 0, true, false⟩ [] 0 anEvent _ (((st distHw).hw.modSq 0 fun k =>
    { k with inbox := [], wdogCount := 0 }).useBanks 0 [19, 20, 21, 22, 23]) [.result 0 7 (.slotClose 3 [1, 2])] met met
    met met met rfl met met met met rfl _ rfl).1 met met) :=
    ((H 0 0 (st distHw) met).1 0 ⟨anEvent, 0, true, false⟩ [] 0 anEvent _ (((st distHw).hw.modSq 0 fun k =>
    { k with inbox := [], wdogCount := 0 }).useBanks 0 [19, 20, 21, 22, 23]) [.result 0 7 (.slotClose 3 [1, 2])] met met
    met met met rfl met met met met rfl _ rfl).1 met met

/-- SquaresUpdate: the last core of the square. -/
theorem test_wit_updated (H : Obligations.SquaresUpdate) :
    type_of% ((H 0 15 (st { jobs := job0 { phase := 3 }, slot := [(15, { updating := true })] }) met).2.1 met) :=
    (H 0 15 (st { jobs := job0 { phase := 3 }, slot := [(15, { updating := true })] }) met).2.1 met

/-- SquaresUpdate: a core without rules. -/
theorem test_wit_phaseA (H : Obligations.SquaresUpdate) :
    type_of% (((H 0 15 (st { jobs := job0 { phase := 3 }, slot := [(15, { phaseA := true })] }) met).2.2.1 _ [] met met).1 met rfl) :=
    ((H 0 15 (st { jobs := job0 { phase := 3 }, slot := [(15, { phaseA := true })] }) met).2.2.1 _ [] met met).1 met rfl

/-- SquaresUpdate: the same core. -/
theorem test_wit_phaseB (H : Obligations.SquaresUpdate) :
    type_of% (((H 0 15 (st { jobs := job0 { phase := 3 }, slot := [(15, { phaseB := true })] }) met).2.2.2.1 [] met met met).1 met
    |>.1 (by intro img h; cases h)) :=
    ((H 0 15 (st { jobs := job0 { phase := 3 }, slot := [(15, { phaseB := true })] }) met).2.2.2.1 [] met met met).1 met
    |>.1 (by intro img h; cases h)

/-- SquaresUpdate: a core with one record to consolidate. -/
theorem test_wit_phaseB2 (H : Obligations.SquaresUpdate) :
    type_of% (((H 0 15 (st phaseBHw) met).2.2.2.1 [] met met met).1 met |>.2.2 consRule.bytes 0 7 2 2 rfl met rfl met met rfl met
    met (kept rfl _) (kept rfl _) (.inl met)) :=
    ((H 0 15 (st phaseBHw) met).2.2.2.1 [] met met met).1 met |>.2.2 consRule.bytes 0 7 2 2 rfl met rfl met met rfl met
    met (kept rfl _) (kept rfl _) (.inl met)

/-- SquaresUpdate: phase B sees two adders that differ. -/
theorem test_wit_phaseB3 (H : Obligations.SquaresUpdate) :
    type_of% (((H 0 15 (st phaseBHw) met).2.2.2.1 [.result 15 3 (.binary32 1 2)] met met met).2
    { det := 0x07, status := stRESIDUE, detail := 3, core := 15, slot := 15 } met) :=
    ((H 0 15 (st phaseBHw) met).2.2.2.1 [.result 15 3 (.binary32 1 2)] met met met).2
    { det := 0x07, status := stRESIDUE, detail := 3, core := 15, slot := 15 } met

/-- SquaresUpdate: a sample that agrees. -/
theorem test_wit_compare (H : Obligations.SquaresUpdate) :
    type_of% ((H 0 3 (st { jobs := job0 { phase := 3 }, sq := [(0, { flt := { waiting := [aSample] } })] }) met).2.2.2.2.1 0 16383
    aSample met met met [] |>.1 met) :=
    (H 0 3 (st { jobs := job0 { phase := 3 }, sq := [(0, { flt := { waiting := [aSample] } })] }) met).2.2.2.2.1 0 16383
    aSample met met met [] |>.1 met

/-- SquaresUpdate: a recomputation that fails its check. -/
theorem test_wit_compare2 (H : Obligations.SquaresUpdate) :
    type_of% (((H 0 3 (st { jobs := job0 { phase := 3 }, sq := [(0, { flt := { waiting := [aSample] } })] }) met).2.2.2.2.1 0 16383
    aSample met met met [.result 3 5 (.binary32 1 2)]).2
    { det := 0x07, status := stRESIDUE, detail := 5, core := 3, slot := 3 } .allDiffer met) :=
    ((H 0 3 (st { jobs := job0 { phase := 3 }, sq := [(0, { flt := { waiting := [aSample] } })] }) met).2.2.2.2.1 0 16383
    aSample met met met [.result 3 5 (.binary32 1 2)]).2
    { det := 0x07, status := stRESIDUE, detail := 5, core := 3, slot := 3 } .allDiffer met

/-- SquaresUpdate: the first of two pending units. -/
theorem test_wit_copy (H : Obligations.SquaresUpdate) :
    type_of% ((H 0 0 (st
    { banks := { mem := memWriteN [] 0x2000000 [1, 2, 3] }, sq := [(0, { flt := { pend := [.row 0 0, .control] } })] })
    met).2.2.2.2.2 (.row 0 0) .control [] met met _ rfl) :=
    (H 0 0 (st
    { banks := { mem := memWriteN [] 0x2000000 [1, 2, 3] }, sq := [(0, { flt := { pend := [.row 0 0, .control] } })] })
    met).2.2.2.2.2 (.row 0 0) .control [] met met _ rfl

/-- LateTempos: a tempo that is later than four bounds. -/
theorem test_wit_stall (H : Obligations.LateTempos) :
    type_of% (((H 0 (st { tb := { now := 10000000 }, jobs := job0 { phase := 1, snapV := true } }) _ rfl).1 met).1 met met met) :=
    ((H 0 (st { tb := { now := 10000000 }, jobs := job0 { phase := 1, snapV := true } }) _ rfl).1 met).1 met met met

/-- LateTempos: the same with journal entries lost. -/
theorem test_wit_stall2 (H : Obligations.LateTempos) :
    type_of% (((H 0 (st
    { tb := { now := 10000000 }, jobs := job0 { phase := 1, jfull := true, tid := 9 }, seq := { tasks := [(9, { desc := descOf 1 0 9 [], state := .running })] } })
    _ rfl).1 met).2 { desc := descOf 1 0 9 [], state := .running } met met met met met) :=
    ((H 0 (st
    { tb := { now := 10000000 }, jobs := job0 { phase := 1, jfull := true, tid := 9 }, seq := { tasks := [(9, { desc := descOf 1 0 9 [], state := .running })] } })
    _ rfl).1 met).2 { desc := descOf 1 0 9 [], state := .running } met met met met met

/-- LateTempos: a tempo whose lateness passes the bound. -/
theorem test_wit_late (H : Obligations.LateTempos) :
    type_of% ((H 3 (st { tb := { now := 10000000 }, jobs := [(3, { active := true, released := true })] }) _ rfl).2 met met met met) :=
    (H 3 (st { tb := { now := 10000000 }, jobs := [(3, { active := true, released := true })] }) _ rfl).2 met met met met

/-- SlotAccumulates: a sum at the upper limit. -/
theorem test_wit_acc1 (H : Obligations.SlotAccumulates) :
    type_of% ((H { banks := { mem := memWriteN [] (0x2000000 + 32 * 5 + 8 + 21) [0xFE, 0xFF, 0x7F] } } 0 0 5 7 1 met met met _ _ rfl
    rfl (kept rfl _)).1 met met met) :=
    (H { banks := { mem := memWriteN [] (0x2000000 + 32 * 5 + 8 + 21) [0xFE, 0xFF, 0x7F] } } 0 0 5 7 1 met met met _ _ rfl
    rfl (kept rfl _)).1 met met met

/-- SlotAccumulates: a sum past the lower limit. -/
theorem test_wit_acc2 (H : Obligations.SlotAccumulates) :
    type_of% ((H { banks := { mem := memWriteN [] (0x2000000 + 32 * 5 + 8) [0, 0, 0x80] } } 0 0 5 0 (-1) met met met _ _ rfl rfl
    (kept rfl _)).2.1 met met) :=
    (H { banks := { mem := memWriteN [] (0x2000000 + 32 * 5 + 8) [0, 0, 0x80] } } 0 0 5 0 (-1) met met met _ _ rfl rfl
    (kept rfl _)).2.1 met met

/-- SquaresUpdate: a slot close that fails its residue check. -/
theorem test_wit_distribute2 (H : Obligations.SquaresUpdate) :
    type_of% (((H 0 0 (st distHw) met).1 0 ⟨anEvent, 0, true, false⟩ [] 0 anEvent _ (((st distHw).hw.modSq 0 fun k =>
    { k with inbox := [], wdogCount := 0 }).useBanks 0 [19, 20, 21, 22, 23]) [.result 0 7 (.slotClose 4 [1, 2])] met met
    met met met rfl met met met met rfl _ rfl).2 { det := 0x07, status := stRESIDUE, detail := 7, core := 0, slot := 0 }
    met) :=
    ((H 0 0 (st distHw) met).1 0 ⟨anEvent, 0, true, false⟩ [] 0 anEvent _ (((st distHw).hw.modSq 0 fun k =>
    { k with inbox := [], wdogCount := 0 }).useBanks 0 [19, 20, 21, 22, 23]) [.result 0 7 (.slotClose 4 [1, 2])] met met
    met met met rfl met met met met rfl _ rfl).2 { det := 0x07, status := stRESIDUE, detail := 7, core := 0, slot := 0 }
    met

/-- SquaresUpdate: phase A sees two binary32 units that differ. -/
theorem test_wit_phaseA2 (H : Obligations.SquaresUpdate) :
    type_of% (((H 0 15 (st { jobs := job0 { phase := 3 }, slot := [(15, { phaseA := true })] }) met).2.2.1 {} [.result 15 3
    (.binary32 1 2)] met met).2 { det := 0x07, status := stRESIDUE, detail := 3, core := 15, slot := 15 } met) :=
    ((H 0 15 (st { jobs := job0 { phase := 3 }, slot := [(15, { phaseA := true })] }) met).2.2.1 {} [.result 15 3
    (.binary32 1 2)] met met).2 { det := 0x07, status := stRESIDUE, detail := 3, core := 15, slot := 15 } met

/-- SlotAccumulates: a slot in an uncorrectable word. -/
theorem test_wit_acc3 (H : Obligations.SlotAccumulates) :
    type_of% ((H { banks := { poison := [(0x2000000 + 32 * 5 + 8) / 8] } } 0 0 5 0 1 met met met _ _ rfl rfl (kept rfl _)).2.2 met) :=
    (H { banks := { poison := [(0x2000000 + 32 * 5 + 8) / 8] } } 0 0 5 0 1 met met met _ _ rfl rfl (kept rfl _)).2.2 met

/-- SlotAccumulates: a slot in a word whose path parity fails. -/
theorem test_wit_acc4 (H : Obligations.SlotAccumulates) :
    type_of% ((H { banks := { path := [(0x2000000 + 32 * 5 + 8) / 8] } } 0 0 5 0 1 met met met _ _ rfl rfl (kept rfl _)).2.2 met) :=
    (H { banks := { path := [(0x2000000 + 32 * 5 + 8) / 8] } } 0 0 5 0 1 met met met _ _ rfl rfl (kept rfl _)).2.2 met

/-- TemposClose: a due neuron with a sum of −2 at gain 3, two tempos after its last update. -/
theorem test_wit_update (H : Obligations.TemposClose) :
    type_of% ((H.2 updHw 0 0 5 3 updTables met met met met met (kept rfl _) _ _ _ _ _ _ rfl rfl rfl rfl rfl rfl).1 _ rfl _ _ rfl rfl) :=
    (H.2 updHw 0 0 5 3 updTables met met met met met (kept rfl _) _ _ _ _ _ _ rfl rfl rfl rfl rfl rfl).1 _ rfl _ _ rfl rfl

/-- TemposClose: the same neuron at the sweep of tempo 5. -/
theorem test_wit_touch (H : Obligations.TemposClose) :
    type_of% ((H.2 updHw 0 0 5 5 updTables met met met met met (kept rfl _) _ _ _ _ _ _ rfl rfl rfl rfl rfl rfl).2 met met [] _ _
    met rfl rfl) :=
    (H.2 updHw 0 0 5 5 updTables met met met met met (kept rfl _) _ _ _ _ _ _ rfl rfl rfl rfl rfl rfl).2 met met [] _ _
    met rfl rfl

/-- KezilSessionsAndOwnership: no port owns. -/
theorem test_wit_kopen (H : Obligations.KezilSessionsAndOwnership) :
    type_of% (((H true 0 [] (st (kzHw none)) (by unfold Hw.kzQuiet; decide +kernel) met _ rfl).1 met).1) :=
    ((H true 0 [] (st (kzHw none)) (by unfold Hw.kzQuiet; decide +kernel) met _ rfl).1 met).1

/-- KezilSessionsAndOwnership: no port owns. -/
theorem test_wit_kclose0 (H : Obligations.KezilSessionsAndOwnership) :
    type_of% (((H true 0 [] (st (kzHw none)) (by unfold Hw.kzQuiet; decide +kernel) met _ rfl).2.2.1 met).1) :=
    ((H true 0 [] (st (kzHw none)) (by unfold Hw.kzQuiet; decide +kernel) met _ rfl).2.2.1 met).1

/-- KezilSessionsAndOwnership: no port owns. -/
theorem test_wit_ktake0 (H : Obligations.KezilSessionsAndOwnership) :
    type_of% (((H false 0xFFFE [] (st (kzHw none)) (by unfold Hw.kzQuiet; decide +kernel) met _ rfl).1 met).2 1) :=
    ((H false 0xFFFE [] (st (kzHw none)) (by unfold Hw.kzQuiet; decide +kernel) met _ rfl).1 met).2 1

/-- KezilSessionsAndOwnership: port A owns, port B opens. -/
theorem test_wit_kopen1 (H : Obligations.KezilSessionsAndOwnership) :
    type_of% ((H true 0 [] (st (kzHw)) (by unfold Hw.kzQuiet; decide +kernel) met _ rfl).2.1 met) :=
    (H true 0 [] (st (kzHw)) (by unfold Hw.kzQuiet; decide +kernel) met _ rfl).2.1 met

/-- KezilSessionsAndOwnership: the owner closes. -/
theorem test_wit_kclose (H : Obligations.KezilSessionsAndOwnership) :
    type_of% (((H false 0 [] (st (kzHw)) (by unfold Hw.kzQuiet; decide +kernel) met _ rfl).2.2.2.1 met).1) :=
    ((H false 0 [] (st (kzHw)) (by unfold Hw.kzQuiet; decide +kernel) met _ rfl).2.2.2.1 met).1

/-- KezilSessionsAndOwnership: port B against the owner A. -/
theorem test_wit_ktake1 (H : Obligations.KezilSessionsAndOwnership) :
    type_of% (((H true 0 [] (st (kzHw)) (by unfold Hw.kzQuiet; decide +kernel) met _ rfl).2.2.2.2.1 met met).1) :=
    ((H true 0 [] (st (kzHw)) (by unfold Hw.kzQuiet; decide +kernel) met _ rfl).2.2.2.2.1 met met).1

/-- KezilSessionsAndOwnership: port B by force. -/
theorem test_wit_ktake2 (H : Obligations.KezilSessionsAndOwnership) :
    type_of% (((H true 0 [] (st (kzHw)) (by unfold Hw.kzQuiet; decide +kernel) met _ rfl).2.2.2.2.1 met met).2) :=
    ((H true 0 [] (st (kzHw)) (by unfold Hw.kzQuiet; decide +kernel) met _ rfl).2.2.2.2.1 met met).2

/-- KezilSessionsAndOwnership: 64 bytes. -/
theorem test_wit_kecho (H : Obligations.KezilSessionsAndOwnership) :
    type_of% ((H true 0 (List.replicate 64 7) (st (kzHw)) (by unfold Hw.kzQuiet; decide +kernel) met _ rfl).2.2.2.2.2.2.1 met) :=
    (H true 0 (List.replicate 64 7) (st (kzHw)) (by unfold Hw.kzQuiet; decide +kernel) met _ rfl).2.2.2.2.2.2.1 met

/-- KezilSessionsAndOwnership: port A. -/
theorem test_wit_kstat (H : Obligations.KezilSessionsAndOwnership) :
    type_of% ((H false 0 [] (st (kzHw)) (by unfold Hw.kzQuiet; decide +kernel) met _ rfl).2.2.2.2.2.2.2.1) :=
    (H false 0 [] (st (kzHw)) (by unfold Hw.kzQuiet; decide +kernel) met _ rfl).2.2.2.2.2.2.2.1

/-- OwnershipChanges: the owner's lease has run out 1 ns ago. -/
theorem test_wit_owner (H : Obligations.OwnershipChanges) :
    type_of% ((H { kzHw with elapsed := 1000001, kz := { (kzHw).kz with leaseMs := 1 } } none 4 _ rfl).2.2.2.2.2.2.2.2.2 (st
    { kzHw with elapsed := 1000001, kz := { (kzHw).kz with leaseMs := 1 } }) rfl met met met met met) :=
    (H { kzHw with elapsed := 1000001, kz := { (kzHw).kz with leaseMs := 1 } } none 4 _ rfl).2.2.2.2.2.2.2.2.2 (st
    { kzHw with elapsed := 1000001, kz := { (kzHw).kz with leaseMs := 1 } }) rfl met met met met met

/-- OwnershipChanges: the owner holds an owner-only command. -/
theorem test_wit_owner2 (H : Obligations.OwnershipChanges) :
    type_of% ((H { kzHw with kz := { (kzHw).kz with portA := { (kzHw).kz.portA with cmds := [cmdOf 0x0405 1 false [0]] } } } (some
    true) 3 _ rfl).2.2.1 false met) :=
    (H { kzHw with kz := { (kzHw).kz with portA := { (kzHw).kz.portA with cmds := [cmdOf 0x0405 1 false [0]] } } } (some
    true) 3 _ rfl).2.2.1 false met

/-- OwnershipChanges: a port with room for a notification. -/
theorem test_wit_owner3 (H : Obligations.OwnershipChanges) :
    type_of% ((H kzHw (some true) 3 _ rfl).2.2.2.1 true met) :=
    (H kzHw (some true) 3 _ rfl).2.2.2.1 true met

/-- KezilReportsAndStatus: port B. -/
theorem test_wit_kreports (H : Obligations.KezilReportsAndStatus) :
    type_of% ((H true 5 (st (kzHw)) (by unfold Hw.kzQuiet; decide +kernel) met _ rfl).1) :=
    (H true 5 (st (kzHw)) (by unfold Hw.kzQuiet; decide +kernel) met _ rfl).1

/-- KezilReportsAndStatus: 2 records from SEQ 0xFFFF_FFFF. -/
theorem test_wit_kreports2 (H : Obligations.KezilReportsAndStatus) :
    type_of% ((H true 5 (st { kzHw with flt := { ring := [leBytes 32 0xFFFFFFFF, leBytes 32 0, leBytes 32 1] } })
    (by unfold Hw.kzQuiet; decide +kernel) met _ rfl).2.2.2.2.2.2.1 0xFFFFFFFF 2 met met) :=
    (H true 5 (st { kzHw with flt := { ring := [leBytes 32 0xFFFFFFFF, leBytes 32 0, leBytes 32 1] } })
    (by unfold Hw.kzQuiet; decide +kernel) met _ rfl).2.2.2.2.2.2.1 0xFFFFFFFF 2 met met

/-- KezilReportsAndStatus: the rest of the reports. -/
theorem test_wit_kreports3 (H : Obligations.KezilReportsAndStatus) :
    type_of% ((H true 5 (st (kzHw)) (by unfold Hw.kzQuiet; decide +kernel) met _ rfl).2.2.2.2.2.2.2.1) :=
    (H true 5 (st (kzHw)) (by unfold Hw.kzQuiet; decide +kernel) met _ rfl).2.2.2.2.2.2.2.1

/-- KezilReportsAndStatus: the authority certificate. -/
theorem test_wit_kreports4 (H : Obligations.KezilReportsAndStatus) :
    type_of% ((H true 5 (st { kzHw with sec := { certs := some ([1], [2]) } }) (by unfold Hw.kzQuiet; decide +kernel) met _
    rfl).2.2.2.2.2.2.2.2.2.2.2.2.2.2.2 met 1) :=
    (H true 5 (st { kzHw with sec := { certs := some ([1], [2]) } }) (by unfold Hw.kzQuiet; decide +kernel) met _
    rfl).2.2.2.2.2.2.2.2.2.2.2.2.2.2.2 met 1

/-- KezilReportsAndStatus: all of them. -/
theorem test_wit_kreports5 (H : Obligations.KezilReportsAndStatus) :
    type_of% (H true 5 (st (kzHw)) (by unfold Hw.kzQuiet; decide +kernel) met _ rfl) :=
    H true 5 (st (kzHw)) (by unfold Hw.kzQuiet; decide +kernel) met _ rfl

/-- KezilQueries: a nonce of zeros. -/
theorem test_wit_kattest (H : Obligations.KezilQueries) :
    type_of% ((H false 5 (st (kzHw)) (by unfold Hw.kzQuiet; decide +kernel) (by unfold Hw.mayAll; decide +kernel) met _ rfl).1
    (List.replicate 64 0) met) :=
    (H false 5 (st (kzHw)) (by unfold Hw.kzQuiet; decide +kernel) (by unfold Hw.mayAll; decide +kernel) met _ rfl).1
    (List.replicate 64 0) met

/-- KezilQueries: the last task and square. -/
theorem test_wit_kqueries (H : Obligations.KezilQueries) :
    type_of% ((H false 5 (st (kzHw)) (by unfold Hw.kzQuiet; decide +kernel) (by unfold Hw.mayAll; decide +kernel) met _ rfl).2) :=
    (H false 5 (st (kzHw)) (by unfold Hw.kzQuiet; decide +kernel) (by unfold Hw.mayAll; decide +kernel) met _ rfl).2

/-- KezilSettings: the sequencer stops. -/
theorem test_wit_kseq (H : Obligations.KezilSettings) :
    type_of% ((H false 5 (st (kzHw)) (by unfold Hw.kzQuiet; decide +kernel) (by unfold Hw.mayAll; decide +kernel) met _ rfl).1 0) :=
    (H false 5 (st (kzHw)) (by unfold Hw.kzQuiet; decide +kernel) (by unfold Hw.mayAll; decide +kernel) met _ rfl).1 0

/-- KezilSettings: stream 5 with one group of square 63. -/
theorem test_wit_kstream (H : Obligations.KezilSettings) :
    type_of% ((H false 5 (st (kzHw)) (by unfold Hw.kzQuiet; decide +kernel) (by unfold Hw.mayAll; decide +kernel) met _ rfl).2.1
    ([5, 1, 1, 0] ++ leBytes 4 77 ++ leBytes 8 (63 * 2 ^ 22 + 9)) _ met rfl met) :=
    (H false 5 (st (kzHw)) (by unfold Hw.kzQuiet; decide +kernel) (by unfold Hw.mayAll; decide +kernel) met _ rfl).2.1
    ([5, 1, 1, 0] ++ leBytes 4 77 ++ leBytes 8 (63 * 2 ^ 22 + 9)) _ met rfl met

/-- KezilSettings: domain 90 ON. -/
theorem test_wit_kpwr0 (H : Obligations.KezilSettings) :
    type_of% (((H false 5 (st (kzHw)) (by unfold Hw.kzQuiet; decide +kernel) (by unfold Hw.mayAll; decide +kernel) met _
    rfl).2.2.2.1 90).1 (by intro h; revert h; decide)) :=
    ((H false 5 (st (kzHw)) (by unfold Hw.kzQuiet; decide +kernel) (by unfold Hw.mayAll; decide +kernel) met _
    rfl).2.2.2.1 90).1 (by intro h; revert h; decide)

/-- KezilSettings: square 63 to OFF. -/
theorem test_wit_kpwr1 (H : Obligations.KezilSettings) :
    type_of% (((H false 5 (st (kzHw)) (by unfold Hw.kzQuiet; decide +kernel) (by unfold Hw.mayAll; decide +kernel) met _
    rfl).2.2.2.2.1 63 1 _ rfl).1 met (by intro; decide +kernel) _ rfl) :=
    ((H false 5 (st (kzHw)) (by unfold Hw.kzQuiet; decide +kernel) (by unfold Hw.mayAll; decide +kernel) met _
    rfl).2.2.2.2.1 63 1 _ rfl).1 met (by intro; decide +kernel) _ rfl

/-- KezilSettings: every pin bit. -/
theorem test_wit_kpins (H : Obligations.KezilSettings) :
    type_of% ((H false 5 (st (kzHw)) (by unfold Hw.kzQuiet; decide +kernel) (by unfold Hw.mayAll; decide +kernel) met _
    rfl).2.2.2.2.2.1 0xFFFFFFFF 0xFFFFFFFF 0xFFFFFFFF) :=
    (H false 5 (st (kzHw)) (by unfold Hw.kzQuiet; decide +kernel) (by unfold Hw.mayAll; decide +kernel) met _
    rfl).2.2.2.2.2.1 0xFFFFFFFF 0xFFFFFFFF 0xFFFFFFFF

/-- KezilSettings: every value at its upper limit. -/
theorem test_wit_kbud (H : Obligations.KezilSettings) :
    type_of% ((H false 5 (st (kzHw)) (by unfold Hw.kzQuiet; decide +kernel) (by unfold Hw.mayAll; decide +kernel) met _
    rfl).2.2.2.2.2.2.1 60000 255 50 115 255 255 met met met met met met met met met met met) :=
    (H false 5 (st (kzHw)) (by unfold Hw.kzQuiet; decide +kernel) (by unfold Hw.mayAll; decide +kernel) met _
    rfl).2.2.2.2.2.2.1 60000 255 50 115 255 255 met met met met met met met met met met met

/-- KezilSettings: every value at its lower limit. -/
theorem test_wit_kbud2 (H : Obligations.KezilSettings) :
    type_of% ((H false 5 (st (kzHw)) (by unfold Hw.kzQuiet; decide +kernel) (by unfold Hw.mayAll; decide +kernel) met _
    rfl).2.2.2.2.2.2.1 1000 64 10 60 32 0 met met met met met met met met met met met) :=
    (H false 5 (st (kzHw)) (by unfold Hw.kzQuiet; decide +kernel) (by unfold Hw.mayAll; decide +kernel) met _
    rfl).2.2.2.2.2.2.1 1000 64 10 60 32 0 met met met met met met met met met met met

/-- KezilSettings: TRIP is set. -/
theorem test_wit_ktrip (H : Obligations.KezilSettings) :
    type_of% ((H false 5 (st ({ kzHw with bud := { trip := true } })) (by unfold Hw.kzQuiet; decide +kernel)
    (by unfold Hw.mayAll; decide +kernel) met _ rfl).2.2.2.2.2.2.2.1.1 met) :=
    (H false 5 (st ({ kzHw with bud := { trip := true } })) (by unfold Hw.kzQuiet; decide +kernel)
    (by unfold Hw.mayAll; decide +kernel) met _ rfl).2.2.2.2.2.2.2.1.1 met

/-- KezilSettings: every sticky bit. -/
theorem test_wit_kstick (H : Obligations.KezilSettings) :
    type_of% ((H false 5 (st ({ kzHw with flt := { sticky1 := 5, sticky2 := 9 }, sq := [(63, { flt := { sticky := 3 } })] }))
    (by unfold Hw.kzQuiet; decide +kernel) (by unfold Hw.mayAll; decide +kernel) met _ rfl).2.2.2.2.2.2.2.2.1
    (List.replicate 272 255) met) :=
    (H false 5 (st ({ kzHw with flt := { sticky1 := 5, sticky2 := 9 }, sq := [(63, { flt := { sticky := 3 } })] }))
    (by unfold Hw.kzQuiet; decide +kernel) (by unfold Hw.mayAll; decide +kernel) met _ rfl).2.2.2.2.2.2.2.2.1
    (List.replicate 272 255) met

/-- KezilSettings: the largest time. -/
theorem test_wit_ktime (H : Obligations.KezilSettings) :
    type_of% (((H false 5 (st (kzHw)) (by unfold Hw.kzQuiet; decide +kernel) (by unfold Hw.mayAll; decide +kernel) met _
    rfl).2.2.2.2.2.2.2.2.2.1 0xFFFFFFFFFFFFFFFF).1 met met) :=
    ((H false 5 (st (kzHw)) (by unfold Hw.kzQuiet; decide +kernel) (by unfold Hw.mayAll; decide +kernel) met _
    rfl).2.2.2.2.2.2.2.2.2.1 0xFFFFFFFFFFFFFFFF).1 met met

/-- KezilSettings: all doorbells. -/
theorem test_wit_kdoor (H : Obligations.KezilSettings) :
    type_of% (((H false 5 (st ({ kzHw with bud := { wakeDom := [(1, 0)] } })) (by unfold Hw.kzQuiet; decide +kernel)
    (by unfold Hw.mayAll; decide +kernel) met _ rfl).2.2.2.2.2.2.2.2.2.2 0xFFFFFFFF).1) :=
    ((H false 5 (st ({ kzHw with bud := { wakeDom := [(1, 0)] } })) (by unfold Hw.kzQuiet; decide +kernel)
    (by unfold Hw.mayAll; decide +kernel) met _ rfl).2.2.2.2.2.2.2.2.2.2 0xFFFFFFFF).1

/-- KezilGraphCommands: a batch of two tasks, the second after the first. -/
theorem test_wit_kgraph1 (H : Obligations.KezilGraphCommands) :
    type_of% ((H false 5 (st (kzHw)) (by unfold Hw.kzQuiet; decide +kernel) (by unfold Hw.mayAll; decide +kernel) met _ rfl).1
    (descOf 11 0 1 [] ++ (((descOf 11 0 2 []).set 13 0x80).set 12 1)) met met met _ rfl) :=
    (H false 5 (st (kzHw)) (by unfold Hw.kzQuiet; decide +kernel) (by unfold Hw.mayAll; decide +kernel) met _ rfl).1
    (descOf 11 0 1 [] ++ (((descOf 11 0 2 []).set 13 0x80).set 12 1)) met met met _ rfl

/-- KezilGraphCommands: one task without predecessors. -/
theorem test_wit_kgraph2 (H : Obligations.KezilGraphCommands) :
    type_of% ((H false 5 (st (kzHw)) (by unfold Hw.kzQuiet; decide +kernel) (by unfold Hw.mayAll; decide +kernel) met _ rfl).2.1
    (descOf 11 0 4095 []) _ met rfl met met met met) :=
    (H false 5 (st (kzHw)) (by unfold Hw.kzQuiet; decide +kernel) (by unfold Hw.mayAll; decide +kernel) met _ rfl).2.1
    (descOf 11 0 4095 []) _ met rfl met met met met

/-- KezilGraphCommands: an ended task. -/
theorem test_wit_kretire (H : Obligations.KezilGraphCommands) :
    type_of% ((H false 5 (st { kzHw with seq := { tasks := [(4095, { state := .failed })] } })
    (by unfold Hw.kzQuiet; decide +kernel) (by unfold Hw.mayAll; decide +kernel) met _ rfl).2.2.1 4095
    { state := .failed } met met (by intro x hx; simp [st] at hx; subst hx; simp)) :=
    (H false 5 (st { kzHw with seq := { tasks := [(4095, { state := .failed })] } })
    (by unfold Hw.kzQuiet; decide +kernel) (by unfold Hw.mayAll; decide +kernel) met _ rfl).2.2.1 4095
    { state := .failed } met met (by intro x hx; simp [st] at hx; subst hx; simp)

/-- KezilGraphCommands: a waiting task. -/
theorem test_wit_kcancel (H : Obligations.KezilGraphCommands) :
    type_of% ((H false 5 (st ({ kzHw with seq := { tasks := [(4095, { desc := descOf 11 0 4095 [] })] } }))
    (by unfold Hw.kzQuiet; decide +kernel) (by unfold Hw.mayAll; decide +kernel) met _ rfl).2.2.2.1 4095
    { desc := descOf 11 0 4095 [] } met (.inl met) _ rfl) :=
    (H false 5 (st ({ kzHw with seq := { tasks := [(4095, { desc := descOf 11 0 4095 [] })] } }))
    (by unfold Hw.kzQuiet; decide +kernel) (by unfold Hw.mayAll; decide +kernel) met _ rfl).2.2.2.1 4095
    { desc := descOf 11 0 4095 [] } met (.inl met) _ rfl

/-- KezilGraphCommands: an open-ended job. -/
theorem test_wit_kstop1 (H : Obligations.KezilGraphCommands) :
    type_of% (((H false 5 (st ({ kzHw with jobs := [(3, { active := true, tid := 9 })] })) (by unfold Hw.kzQuiet; decide +kernel)
    (by unfold Hw.mayAll; decide +kernel) met _ rfl).2.2.2.2.2 3 met met false _ _ rfl rfl).1 met) :=
    ((H false 5 (st ({ kzHw with jobs := [(3, { active := true, tid := 9 })] })) (by unfold Hw.kzQuiet; decide +kernel)
    (by unfold Hw.mayAll; decide +kernel) met _ rfl).2.2.2.2.2 3 met met false _ _ rfl rfl).1 met

/-- KezilGraphCommands: the same, asynchronously. -/
theorem test_wit_kstop2 (H : Obligations.KezilGraphCommands) :
    type_of% (((H false 5 (st ({ kzHw with jobs := [(3, { active := true, tid := 9 })] })) (by unfold Hw.kzQuiet; decide +kernel)
    (by unfold Hw.mayAll; decide +kernel) met _ rfl).2.2.2.2.2 3 met met true _ _ rfl rfl).2 met) :=
    ((H false 5 (st ({ kzHw with jobs := [(3, { active := true, tid := 9 })] })) (by unfold Hw.kzQuiet; decide +kernel)
    (by unfold Hw.mayAll; decide +kernel) met _ rfl).2.2.2.2.2 3 met met true _ _ rfl rfl).2 met

/-- KezilMemoryCommands: 1 MiB at the highest address, with channels 0 to 2 in use. -/
theorem test_wit_kmemr (H : Obligations.KezilMemoryCommands) :
    type_of% (((H false 5 (st { kzHw with dma := [(0, { run := true }), (1, { run := true }), (2, { run := true })] })
    (by unfold Hw.kzQuiet; decide +kernel) (by unfold Hw.mayAll; decide +kernel) met _ rfl).1 (2 ^ 44 - 1) 0x100000 1 3
    met met met met met).1 _ rfl) :=
    ((H false 5 (st { kzHw with dma := [(0, { run := true }), (1, { run := true }), (2, { run := true })] })
    (by unfold Hw.kzQuiet; decide +kernel) (by unfold Hw.mayAll; decide +kernel) met _ rfl).1 (2 ^ 44 - 1) 0x100000 1 3
    met met met met met).1 _ rfl

/-- KezilMemoryCommands: two bytes. -/
theorem test_wit_kmemw (H : Obligations.KezilMemoryCommands) :
    type_of% (((H false 5 (st (kzHw)) (by unfold Hw.kzQuiet; decide +kernel) (by unfold Hw.mayAll; decide +kernel) met _ rfl).1
    0x100000000 2 0 0 met met met met met).2 [1, 2] _ met rfl) :=
    ((H false 5 (st (kzHw)) (by unfold Hw.kzQuiet; decide +kernel) (by unfold Hw.mayAll; decide +kernel) met _ rfl).1
    0x100000000 2 0 0 met met met met met).2 [1, 2] _ met rfl

/-- KezilMemoryCommands: a channel of the envelope trains. -/
theorem test_wit_kimg (H : Obligations.KezilMemoryCommands) :
    type_of% (((H false 5 (st { kzHw with psc := { chan := [(0, { state := 1 })] } }) (by unfold Hw.kzQuiet; decide +kernel)
    (by unfold Hw.mayAll; decide +kernel) met _ rfl).2.2 0x100000000 8000 1 _ _ met met met rfl rfl).2 met) :=
    ((H false 5 (st { kzHw with psc := { chan := [(0, { state := 1 })] } }) (by unfold Hw.kzQuiet; decide +kernel)
    (by unfold Hw.mayAll; decide +kernel) met _ rfl).2.2 0x100000000 8000 1 _ _ met met met rfl rfl).2 met

/-- KezilMemoryCommands: channel 11. -/
theorem test_wit_kdma (H : Obligations.KezilMemoryCommands) :
    type_of% ((H false 5 (st (kzHw)) (by unfold Hw.kzQuiet; decide +kernel) (by unfold Hw.mayAll; decide +kernel) met _ rfl).2.1 11
    (2 ^ 40 - 1) _ met met met met rfl) :=
    (H false 5 (st (kzHw)) (by unfold Hw.kzQuiet; decide +kernel) (by unfold Hw.mayAll; decide +kernel) met _ rfl).2.1 11
    (2 ^ 40 - 1) _ met met met met rfl

/-- KezilFirmware: the longest image at S8. -/
theorem test_wit_kfw0 (H : Obligations.KezilFirmware) :
    type_of% (((H false 5 (st (kzHw)) _ rfl).1 (by unfold Hw.kzQuiet; decide +kernel) met met 1 (.inl ⟨rfl,
    (by unfold Hw.mayAll; decide +kernel)⟩)).1 16777216 met met) :=
    ((H false 5 (st (kzHw)) _ rfl).1 (by unfold Hw.kzQuiet; decide +kernel) met met 1 (.inl ⟨rfl,
    (by unfold Hw.mayAll; decide +kernel)⟩)).1 16777216 met met

/-- KezilFirmware: MODE 0 at S4. -/
theorem test_wit_kfw0b (H : Obligations.KezilFirmware) :
    type_of% (((H false 5 (st { kzHw with bring := { stage := 4, last := 3, s0Done := true } }) _ rfl).1
    (by unfold Hw.kzQuiet; decide +kernel) met met 0 (.inr ⟨rfl, met⟩)).1 1 met met) :=
    ((H false 5 (st { kzHw with bring := { stage := 4, last := 3, s0Done := true } }) _ rfl).1
    (by unfold Hw.kzQuiet; decide +kernel) met met 0 (.inr ⟨rfl, met⟩)).1 1 met met

/-- KezilFirmware: the last bytes of a transfer. -/
theorem test_wit_kfw1 (H : Obligations.KezilFirmware) :
    type_of% ((((((H false 5 (st { kzHw with fw := { xfer := 1, mode := 1, length := 16777216, received := 16777214 } }) _ rfl).1
    (by unfold Hw.kzQuiet; decide +kernel) met met 1 (.inl ⟨rfl, (by unfold Hw.mayAll; decide +kernel)⟩)).2.1 met met).1
    [1, 2] met met met met _ _ rfl rfl).2 (fun _ => met))) :=
    (((((H false 5 (st { kzHw with fw := { xfer := 1, mode := 1, length := 16777216, received := 16777214 } }) _ rfl).1
    (by unfold Hw.kzQuiet; decide +kernel) met met 1 (.inl ⟨rfl, (by unfold Hw.mayAll; decide +kernel)⟩)).2.1 met met).1
    [1, 2] met met met met _ _ rfl rfl).2 (fun _ => met))

/-- KezilFirmware: the channel of the next bytes retrains. -/
theorem test_wit_kfw1c (H : Obligations.KezilFirmware) :
    type_of% (((((H false 5 (st
    { kzHw with fw := { xfer := 1, mode := 1, length := 16777216, received := 16777214 }, psc := { chan := [(15, { state := 2 })] } })
    _ rfl).1 (by unfold Hw.kzQuiet; decide +kernel) met met 1 (.inl ⟨rfl, (by unfold Hw.mayAll; decide +kernel)⟩)).2.1 met
    met).1 [1, 2] met met met met _ _ rfl rfl).1 met met) :=
    ((((H false 5 (st
    { kzHw with fw := { xfer := 1, mode := 1, length := 16777216, received := 16777214 }, psc := { chan := [(15, { state := 2 })] } })
    _ rfl).1 (by unfold Hw.kzQuiet; decide +kernel) met met 1 (.inl ⟨rfl, (by unfold Hw.mayAll; decide +kernel)⟩)).2.1 met
    met).1 [1, 2] met met met met _ _ rfl rfl).1 met met

/-- KezilFirmware: the last byte of a MODE 0 transfer. -/
theorem test_wit_kfw1b (H : Obligations.KezilFirmware) :
    type_of% ((((((H false 5 (st
    { kzHw with bring := { stage := 4, last := 3, s0Done := true }, fw := { xfer := 1, mode := 0, length := 3, received := 2, bootImage := [7, 8] } })
    _ rfl).1 (by unfold Hw.kzQuiet; decide +kernel) met met 0 (.inr ⟨rfl, met⟩)).2.1 met met).1 [1] met met met met _ _
    rfl rfl).2 (fun x => absurd x (by decide)))) :=
    (((((H false 5 (st
    { kzHw with bring := { stage := 4, last := 3, s0Done := true }, fw := { xfer := 1, mode := 0, length := 3, received := 2, bootImage := [7, 8] } })
    _ rfl).1 (by unfold Hw.kzQuiet; decide +kernel) met met 0 (.inr ⟨rfl, met⟩)).2.1 met met).1 [1] met met met met _ _
    rfl rfl).2 (fun x => absurd x (by decide)))

/-- KezilFirmware: core 1 reports. -/
theorem test_wit_kfw2 (H : Obligations.KezilFirmware) :
    type_of% ((H false 5 (st { kzHw with fw := { xfer := 3, actCore := some (1, 9), coresUp := [2, 3] } }) _ rfl).2.1 0 9 met
    (by intro x c h; cases x <;> exact absurd (show none = some (c, KWait.grant) from h) nofun)) :=
    (H false 5 (st { kzHw with fw := { xfer := 3, actCore := some (1, 9), coresUp := [2, 3] } }) _ rfl).2.1 0 9 met
    (by intro x c h; cases x <;> exact absurd (show none = some (c, KWait.grant) from h) nofun)

/-- KezilFirmware: core 0 has not reported. -/
theorem test_wit_kfw3 (H : Obligations.KezilFirmware) :
    type_of% ((H false 5 (st { kzHw with elapsed := 10, fw := { xfer := 3, actCore := some (0, 9), coresUp := [2, 3] } }) _
    rfl).2.2.2 0 9 met met) :=
    (H false 5 (st { kzHw with elapsed := 10, fw := { xfer := 3, actCore := some (0, 9), coresUp := [2, 3] } }) _
    rfl).2.2.2 0 9 met met

/-- KezilSessionsAndOwnership: a lease of a port that does not own. -/
theorem test_wit_klease0 (H : Obligations.KezilSessionsAndOwnership) :
    type_of% (((H true 0 [] (st (kzHw)) (by unfold Hw.kzQuiet; decide +kernel) met _ rfl).2.2.1 met).2 60000 met) :=
    ((H true 0 [] (st (kzHw)) (by unfold Hw.kzQuiet; decide +kernel) met _ rfl).2.2.1 met).2 60000 met

/-- KezilSessionsAndOwnership: the owner takes over and sets its lease. -/
theorem test_wit_ktake3 (H : Obligations.KezilSessionsAndOwnership) :
    type_of% (((H false 0 [] (st (kzHw)) (by unfold Hw.kzQuiet; decide +kernel) met _ rfl).2.2.2.1 met).2) :=
    ((H false 0 [] (st (kzHw)) (by unfold Hw.kzQuiet; decide +kernel) met _ rfl).2.2.2.1 met).2

/-- KezilSessionsAndOwnership: the lease of the owner A has run out. -/
theorem test_wit_ktake5 (H : Obligations.KezilSessionsAndOwnership) :
    type_of% ((H true 0 [] (st { kzHw with elapsed := 1000000, kz := { (kzHw).kz with leaseMs := 1 } })
    (by unfold Hw.kzQuiet; decide +kernel) met _ rfl).2.2.2.2.2.1 met met _ rfl 0) :=
    (H true 0 [] (st { kzHw with elapsed := 1000000, kz := { (kzHw).kz with leaseMs := 1 } })
    (by unfold Hw.kzQuiet; decide +kernel) met _ rfl).2.2.2.2.2.1 met met _ rfl 0

/-- KezilSessionsAndOwnership: each of the six with ASYNC. -/
theorem test_wit_kasync (H : Obligations.KezilSessionsAndOwnership) :
    type_of% ((H false 0 [1] (st (kzHw)) (by unfold Hw.kzQuiet; decide +kernel) met _ rfl).2.2.2.2.2.2.2.2 met) :=
    (H false 0 [1] (st (kzHw)) (by unfold Hw.kzQuiet; decide +kernel) met _ rfl).2.2.2.2.2.2.2.2 met

/-- KezilSettings: the job of the stream runs. -/
theorem test_wit_kstream2 (H : Obligations.KezilSettings) :
    type_of% ((H false 5 (st
    ({ kzHw with kz := { (kzHw).kz with streams := [(5, { jobId := 77 })] }, jobs := [(2, { active := true, jobId := 77 })] }))
    (by unfold Hw.kzQuiet; decide +kernel) (by unfold Hw.mayAll; decide +kernel) met _ rfl).2.2.1 ([5, 0, 0, 0] ++ leBytes
    4 77) _ { jobId := 77 } 2 met rfl met met) :=
    (H false 5 (st
    ({ kzHw with kz := { (kzHw).kz with streams := [(5, { jobId := 77 })] }, jobs := [(2, { active := true, jobId := 77 })] }))
    (by unfold Hw.kzQuiet; decide +kernel) (by unfold Hw.mayAll; decide +kernel) met _ rfl).2.2.1 ([5, 0, 0, 0] ++ leBytes
    4 77) _ { jobId := 77 } 2 met rfl met met

/-- KezilSettings: a fused-off square ON. -/
theorem test_wit_kpwr2 (H : Obligations.KezilSettings) :
    type_of% (((H false 5 (st ({ kzHw with sq := [(63, { fused := true })] })) (by unfold Hw.kzQuiet; decide +kernel)
    (by unfold Hw.mayAll; decide +kernel) met _ rfl).2.2.2.1 63).2 met met) :=
    ((H false 5 (st ({ kzHw with sq := [(63, { fused := true })] })) (by unfold Hw.kzQuiet; decide +kernel)
    (by unfold Hw.mayAll; decide +kernel) met _ rfl).2.2.2.1 63).2 met met

/-- KezilSettings: a pinned square to RETAIN. -/
theorem test_wit_kpwr3 (H : Obligations.KezilSettings) :
    type_of% (((H false 5 (st ({ kzHw with power := { pin := [(1, 2 ^ 31)] } })) (by unfold Hw.kzQuiet; decide +kernel)
    (by unfold Hw.mayAll; decide +kernel) met _ rfl).2.2.2.2.1 63 0 _ rfl).2 (.inl met)) :=
    ((H false 5 (st ({ kzHw with power := { pin := [(1, 2 ^ 31)] } })) (by unfold Hw.kzQuiet; decide +kernel)
    (by unfold Hw.mayAll; decide +kernel) met _ rfl).2.2.2.2.1 63 0 _ rfl).2 (.inl met)

/-- KezilSettings: a square is hot. -/
theorem test_wit_ktrip2 (H : Obligations.KezilSettings) :
    type_of% ((H false 5 (st ({ kzHw with bud := { trip := true, hot := [63] } })) (by unfold Hw.kzQuiet; decide +kernel)
    (by unfold Hw.mayAll; decide +kernel) met _ rfl).2.2.2.2.2.2.2.1.2 met) :=
    (H false 5 (st ({ kzHw with bud := { trip := true, hot := [63] } })) (by unfold Hw.kzQuiet; decide +kernel)
    (by unfold Hw.mayAll; decide +kernel) met _ rfl).2.2.2.2.2.2.2.1.2 met

/-- KezilSettings: a job runs. -/
theorem test_wit_ktime2 (H : Obligations.KezilSettings) :
    type_of% (((H false 5 (st ({ kzHw with jobs := jobOn0 })) (by unfold Hw.kzQuiet; decide +kernel)
    (by unfold Hw.mayAll; decide +kernel) met _ rfl).2.2.2.2.2.2.2.2.2.1 1).2 (.inl met)) :=
    ((H false 5 (st ({ kzHw with jobs := jobOn0 })) (by unfold Hw.kzQuiet; decide +kernel)
    (by unfold Hw.mayAll; decide +kernel) met _ rfl).2.2.2.2.2.2.2.2.2.1 1).2 (.inl met)

/-- KezilSettings: all doorbells, with no task. -/
theorem test_wit_kdoor2 (H : Obligations.KezilSettings) :
    type_of% (((H false 5 (st ({ kzHw with bud := { wakeDom := [(1, 0)] } })) (by unfold Hw.kzQuiet; decide +kernel)
    (by unfold Hw.mayAll; decide +kernel) met _ rfl).2.2.2.2.2.2.2.2.2.2 0xFFFFFFFF).2 met) :=
    ((H false 5 (st ({ kzHw with bud := { wakeDom := [(1, 0)] } })) (by unfold Hw.kzQuiet; decide +kernel)
    (by unfold Hw.mayAll; decide +kernel) met _ rfl).2.2.2.2.2.2.2.2.2.2 0xFFFFFFFF).2 met

/-- KezilGraphCommands: a running WAIT_TIME. -/
theorem test_wit_kcancel2 (H : Obligations.KezilGraphCommands) :
    type_of% ((H false 5 (st ({ kzHw with seq := { tasks := [(9, { desc := descOf 11 0 9 [], state := .running })] } }))
    (by unfold Hw.kzQuiet; decide +kernel) (by unfold Hw.mayAll; decide +kernel) met _ rfl).2.2.2.1 9
    { desc := descOf 11 0 9 [], state := .running } met (.inr (.inr ⟨rfl, .inl met⟩)) _ rfl) :=
    (H false 5 (st ({ kzHw with seq := { tasks := [(9, { desc := descOf 11 0 9 [], state := .running })] } }))
    (by unfold Hw.kzQuiet; decide +kernel) (by unfold Hw.mayAll; decide +kernel) met _ rfl).2.2.2.1 9
    { desc := descOf 11 0 9 [], state := .running } met (.inr (.inr ⟨rfl, .inl met⟩)) _ rfl

/-- KezilGraphCommands: the open-ended job of slot 2, whose task is cancelled. -/
theorem test_wit_kcancel3 (H : Obligations.KezilGraphCommands) :
    type_of% ((H false 5 (st
    ({ kzHw with jobs := [(2, { active := true, tid := 9, tempo := 7 })], seq := { tasks := [(9, { desc := descOf 1 0 9 [], state := .running, jslot := 2 })] } }))
    (by unfold Hw.kzQuiet; decide +kernel) (by unfold Hw.mayAll; decide +kernel) met _ rfl).2.2.2.2.1 9
    { desc := descOf 1 0 9 [], state := .running, jslot := 2 } met met met met) :=
    (H false 5 (st
    ({ kzHw with jobs := [(2, { active := true, tid := 9, tempo := 7 })], seq := { tasks := [(9, { desc := descOf 1 0 9 [], state := .running, jslot := 2 })] } }))
    (by unfold Hw.kzQuiet; decide +kernel) (by unfold Hw.mayAll; decide +kernel) met _ rfl).2.2.2.2.1 9
    { desc := descOf 1 0 9 [], state := .running, jslot := 2 } met met met met

/-- KezilFirmware: core 0 reports while port A waits for the activation. -/
theorem test_wit_kfw4 (H : Obligations.KezilFirmware) :
    type_of% ((H false 5 (st
    { kzHw with kz := { (kzHw).kz with portA := { up := true, current := some ({ opcode := 0x804, tag := 5, async := false, params := [], arrived := 0, time := 0 }, .activation) } }, fw := { xfer := 3, actCore := some (0, 9), coresUp := [1, 2, 3] } })
    _ rfl).2.2.1 9 met (by intro x; cases x <;> rfl) (by intro x c w h; cases x <;> cases h; rfl) _ rfl) :=
    (H false 5 (st
    { kzHw with kz := { (kzHw).kz with portA := { up := true, current := some ({ opcode := 0x804, tag := 5, async := false, params := [], arrived := 0, time := 0 }, .activation) } }, fw := { xfer := 3, actCore := some (0, 9), coresUp := [1, 2, 3] } })
    _ rfl).2.2.1 9 met (by intro x; cases x <;> rfl) (by intro x c w h; cases x <;> cases h; rfl) _ rfl

/-- KezilFirmware: FW_END of an image on a channel that has failed. -/
theorem test_wit_kfw5 (H : Obligations.KezilFirmware) :
    type_of% ((((H false 5 (st
    { kzHw with fw := { xfer := 1, mode := 1, length := 16777216, received := 16777216 }, psc := { chan := [(15, { state := 3 })] } })
    _ rfl).1 (by unfold Hw.kzQuiet; decide +kernel) met met 1 (.inl ⟨rfl, (by unfold Hw.mayAll; decide +kernel)⟩)).2.1 met
    met).2.2 met met met met) :=
    (((H false 5 (st
    { kzHw with fw := { xfer := 1, mode := 1, length := 16777216, received := 16777216 }, psc := { chan := [(15, { state := 3 })] } })
    _ rfl).1 (by unfold Hw.kzQuiet; decide +kernel) met met 1 (.inl ⟨rfl, (by unfold Hw.mayAll; decide +kernel)⟩)).2.1 met
    met).2.2 met met met met

/-- KezilFirmware: FW_ACTIVATE of an image on a channel that has failed. -/
theorem test_wit_kfw6 (H : Obligations.KezilFirmware) :
    type_of% (((((H false 5 (st
    { kzHw with fw := { xfer := 2, stagedLength := 16777216 }, psc := { chan := [(15, { state := 3 })] } }) _ rfl).1
    (by unfold Hw.kzQuiet; decide +kernel) met met 1 (.inl ⟨rfl, (by unfold Hw.mayAll; decide +kernel)⟩)).2.2 met met
    met).1 met)) :=
    ((((H false 5 (st
    { kzHw with fw := { xfer := 2, stagedLength := 16777216 }, psc := { chan := [(15, { state := 3 })] } }) _ rfl).1
    (by unfold Hw.kzQuiet; decide +kernel) met met 1 (.inl ⟨rfl, (by unfold Hw.mayAll; decide +kernel)⟩)).2.2 met met
    met).1 met)

/-- KezilCommandsAreChecked: tag 0xFFFF. -/
theorem test_wit_chk1 (H : Obligations.KezilCommandsAreChecked) :
    type_of% ((H true true 0xFFFF [] 0x0101 (.sessionOpen true true 0xFFFF []) ⟨0x0101, false, true, 31, false⟩ (st (kzHw))
    (by unfold Hw.kzQuiet; decide +kernel) rfl met met).1 rfl) :=
    (H true true 0xFFFF [] 0x0101 (.sessionOpen true true 0xFFFF []) ⟨0x0101, false, true, 31, false⟩ (st (kzHw))
    (by unfold Hw.kzQuiet; decide +kernel) rfl met met).1 rfl

/-- KezilCommandsAreChecked: ASYNC of ECHO. -/
theorem test_wit_chk2 (H : Obligations.KezilCommandsAreChecked) :
    type_of% ((H true true 1 [] 0x0105 (.echo true true 1 []) ⟨0x0105, false, true, 31, false⟩ (st (kzHw))
    (by unfold Hw.kzQuiet; decide +kernel) rfl met met).2.1 met met met) :=
    (H true true 1 [] 0x0105 (.echo true true 1 []) ⟨0x0105, false, true, 31, false⟩ (st (kzHw))
    (by unfold Hw.kzQuiet; decide +kernel) rfl met met).2.1 met met met

/-- KezilCommandsAreChecked: ATTEST at stage 5. -/
theorem test_wit_chk3 (H : Obligations.KezilCommandsAreChecked) :
    type_of% (((H true false 1 [] 0x0204 (.attest true false 1 []) ⟨0x0204, false, false, 14, false⟩ (st
    { kzHw with bring := { stage := 5, last := 4, s0Done := true } }) (by unfold Hw.kzQuiet; decide +kernel) rfl met
    met).2.2 met (by intro h; cases h)).1 met met) :=
    ((H true false 1 [] 0x0204 (.attest true false 1 []) ⟨0x0204, false, false, 14, false⟩ (st
    { kzHw with bring := { stage := 5, last := 4, s0Done := true } }) (by unfold Hw.kzQuiet; decide +kernel) rfl met
    met).2.2 met (by intro h; cases h)).1 met met

/-- KezilCommandsAreChecked: TIME_SET from port B. -/
theorem test_wit_chk4 (H : Obligations.KezilCommandsAreChecked) :
    type_of% (((H true false 1 [] 0x0A02 (.timeSet true false 1 []) ⟨0x0A02, true, false, 14, false⟩ (st (kzHw))
    (by unfold Hw.kzQuiet; decide +kernel) rfl met met).2.2 met (by intro h; cases h)).2 (.inr met) |>.1 met met) :=
    ((H true false 1 [] 0x0A02 (.timeSet true false 1 []) ⟨0x0A02, true, false, 14, false⟩ (st (kzHw))
    (by unfold Hw.kzQuiet; decide +kernel) rfl met met).2.2 met (by intro h; cases h)).2 (.inr met) |>.1 met met

/-- KezilCommandsAreChecked: KEY_ENROL in BLANK. -/
theorem test_wit_chk5 (H : Obligations.KezilCommandsAreChecked) :
    type_of% (((H false false 1 [] 0x0903 (.keyEnrol false false 1 []) ⟨0x0903, true, false, 10, false⟩ (st blankHw)
    (by unfold Hw.kzQuiet; decide +kernel) rfl met met).2.2 met (by intro h; cases h)).2 (.inr met) |>.2
    (by intro; decide +kernel) met) :=
    ((H false false 1 [] 0x0903 (.keyEnrol false false 1 []) ⟨0x0903, true, false, 10, false⟩ (st blankHw)
    (by unfold Hw.kzQuiet; decide +kernel) rfl met met).2.2 met (by intro h; cases h)).2 (.inr met) |>.2
    (by intro; decide +kernel) met

/-- FramingFailures: 15 bytes. -/
theorem test_wit_frm1 (H : Obligations.FramingFailures) :
    type_of% ((H true (List.replicate 15 0x5A) (st (kzHw)) (by unfold Hw.kzQuiet; decide +kernel) _ rfl).1 (.inl met)) :=
    (H true (List.replicate 15 0x5A) (st (kzHw)) (by unfold Hw.kzQuiet; decide +kernel) _ rfl).1 (.inl met)

/-- FramingFailures: a length that does not match. -/
theorem test_wit_frm2 (H : Obligations.FramingFailures) :
    type_of% ((H true (transfer 0x0105 1 4 [1, 2, 3, 4]) (st (kzHw)) (by unfold Hw.kzQuiet; decide +kernel) _ rfl).2.1 4 met met) :=
    (H true (transfer 0x0105 1 4 [1, 2, 3, 4]) (st (kzHw)) (by unfold Hw.kzQuiet; decide +kernel) _ rfl).2.1 4 met met

/-- FramingFailures: an opcode of no table. -/
theorem test_wit_frm3 (H : Obligations.FramingFailures) :
    type_of% ((H true (transfer 0x0A03 1 0 []) (st (kzHw)) (by unfold Hw.kzQuiet; decide +kernel) _ rfl).2.2 met met) :=
    (H true (transfer 0x0A03 1 0 []) (st (kzHw)) (by unfold Hw.kzQuiet; decide +kernel) _ rfl).2.2 met met

/-- KezilSecurity: RESET with MODE 0. -/
theorem test_wit_krst (H : Obligations.KezilSecurity) :
    type_of% ((H false 1 [] (st (kzHw)) (by unfold Hw.kzQuiet; decide +kernel) met met).2.2) :=
    (H false 1 [] (st (kzHw)) (by unfold Hw.kzQuiet; decide +kernel) met met).2.2

/-- KezilPortEvents: two replies wait. -/
theorem test_wit_krep (H : Obligations.KezilPortEvents) :
    type_of% (((H false (st { kz := { portA := { up := true, replies := [[1], [2]] } } }) _ _ rfl rfl).1 met).1 [1] [[2]] met met
    met met met) :=
    ((H false (st { kz := { portA := { up := true, replies := [[1], [2]] } } }) _ _ rfl rfl).1 met).1 [1] [[2]] met met
    met met met

/-- KezilPortEvents: a notification waits, and one was lost. -/
theorem test_wit_knote (H : Obligations.KezilPortEvents) :
    type_of% (((H false (st { kz := { portA := { up := true, lost := 1, notes := [⟨7, 0, 1, 5, 2, []⟩] } } }) _ _ rfl rfl).1 met).2
    ⟨7, 0, 1, 5, 2, []⟩ [] met) :=
    ((H false (st { kz := { portA := { up := true, lost := 1, notes := [⟨7, 0, 1, 5, 2, []⟩] } } }) _ _ rfl rfl).1 met).2
    ⟨7, 0, 1, 5, 2, []⟩ [] met

/-- KezilPortEvents: the owner's link is lost. -/
theorem test_wit_kloss (H : Obligations.KezilPortEvents) :
    type_of% (((H false (st (kzHw)) _ _ rfl rfl).2.1 met met met met).1 met |>.1) :=
    ((H false (st (kzHw)) _ _ rfl rfl).2.1 met met met met).1 met |>.1

/-- KezilPortEvents: VBUS goes. -/
theorem test_wit_kvbus0 (H : Obligations.KezilPortEvents) :
    type_of% (((H false (st (kzHw)) _ _ rfl rfl).2.1 met met met met).1 met |>.2.1) :=
    ((H false (st (kzHw)) _ _ rfl rfl).2.1 met met met met).1 met |>.2.1

/-- KezilPortEvents: u3 with remote wake. -/
theorem test_wit_ksus (H : Obligations.KezilPortEvents) :
    type_of% (((H false (st (kzHw)) _ _ rfl rfl).2.1 met met met met).1 met |>.2.2 true true met) :=
    ((H false (st (kzHw)) _ _ rfl rfl).2.1 met met met met).1 met |>.2.2 true true met

/-- KezilPortEvents: leaving U3. -/
theorem test_wit_kres (H : Obligations.KezilPortEvents) :
    type_of% (((H true (st ({ kzHw with kz := { (kzHw).kz with portB := { up := true, suspended := true, waking := true } } })) _ _
    rfl rfl).2.1 met met met met).1 met |>.2.2 false true met) :=
    ((H true (st ({ kzHw with kz := { (kzHw).kz with portB := { up := true, suspended := true, waking := true } } })) _ _
    rfl rfl).2.1 met met met met).1 met |>.2.2 false true met

/-- KezilPortEvents: VBUS comes after S2. -/
theorem test_wit_kvbus1 (H : Obligations.KezilPortEvents) :
    type_of% (((H true (st ({ bring := { last := 2, stage := 3, s0Done := true } })) _ _ rfl rfl).2.1 met met met met).2 met met met) :=
    ((H true (st ({ bring := { last := 2, stage := 3, s0Done := true } })) _ _ rfl rfl).2.1 met met met met).2 met met met

/-- KezilPortEvents: the first of two records. -/
theorem test_wit_kack (H : Obligations.KezilPortEvents) :
    type_of% ((((H false (st { kzHw with results := [⟨3, 9, leBytes 44 0, 0⟩, ⟨2, 9, [], 0⟩] }) _ _ rfl rfl).2.2.2.1 met met).1 ⟨3,
    9, leBytes 44 0, 0⟩ [⟨2, 9, [], 0⟩] met met).1 met) :=
    (((H false (st { kzHw with results := [⟨3, 9, leBytes 44 0, 0⟩, ⟨2, 9, [], 0⟩] }) _ _ rfl rfl).2.2.2.1 met met).1 ⟨3,
    9, leBytes 44 0, 0⟩ [⟨2, 9, [], 0⟩] met met).1 met

/-- KezilPortEvents: a record of one event for stream 0. -/
theorem test_wit_kin1 (H : Obligations.KezilPortEvents) :
    type_of% (((H false (st
    { kzHw with kz := { (kzHw).kz with streams := [(0, { enable := true, jobId := 7, groups := [⟨9, 0, 0⟩], joined := some 2 })] }, jobs := [(2, { active := true, t0 := 4 })] })
    _ _ rfl rfl).2.2.2.1 met met).2 inRec 2 4 false met met _ rfl met) :=
    ((H false (st
    { kzHw with kz := { (kzHw).kz with streams := [(0, { enable := true, jobId := 7, groups := [⟨9, 0, 0⟩], joined := some 2 })] }, jobs := [(2, { active := true, t0 := 4 })] })
    _ _ rfl rfl).2.2.2.1 met met).2 inRec 2 4 false met met _ rfl met

/-- KezilPortEvents: a transfer on the observer's port. -/
theorem test_wit_kin2 (H : Obligations.KezilPortEvents) :
    type_of% ((H true (st (kzHw)) _ _ rfl rfl).2.2.2.2 met met [1, 2]) :=
    (H true (st (kzHw)) _ _ rfl rfl).2.2.2.2 met met [1, 2]

/-- CameraPackets: a header beyond its ECC. -/
theorem test_wit_cam1 (H : Obligations.CameraPackets) :
    type_of% ((H 7 0 true false true .frameStart (st { csi := [(7, { en := true, errEcc := 255 })] }) _ _ rfl rfl met met).1 rfl) :=
    (H 7 0 true false true .frameStart (st { csi := [(7, { en := true, errEcc := 255 })] }) _ _ rfl rfl met met).1 rfl

/-- CameraPackets: another virtual channel. -/
theorem test_wit_cam2 (H : Obligations.CameraPackets) :
    type_of% ((H 7 3 false false true .frameStart (st { csi := [(7, { en := true })] }) _ _ rfl rfl met met).2.1 rfl met) :=
    (H 7 3 false false true .frameStart (st { csi := [(7, { en := true })] }) _ _ rfl rfl met met).2.1 rfl met

/-- CameraPackets: a frame start. -/
theorem test_wit_cam3 (H : Obligations.CameraPackets) :
    type_of% (((H 7 3 false false true .frameStart (st { csi := [(7, { en := true, vc := 3, inFrame := true })] }) _ _ rfl rfl met
    met).2.2.1 rfl met met).1) :=
    ((H 7 3 false false true .frameStart (st { csi := [(7, { en := true, vc := 3, inFrame := true })] }) _ _ rfl rfl met
    met).2.2.1 rfl met met).1

/-- CameraPackets: the end of a whole frame. -/
theorem test_wit_cam4 (H : Obligations.CameraPackets) :
    type_of% (((H 7 3 false false true .frameStart (st
    { csi := [(7, { en := true, vc := 3, inFrame := true, whole := true, fresh := true, line := 1, joined := some 0 })] })
    _ _ rfl rfl met met).2.2.1 rfl met met).2 met) :=
    ((H 7 3 false false true .frameStart (st
    { csi := [(7, { en := true, vc := 3, inFrame := true, whole := true, fresh := true, line := 1, joined := some 0 })] })
    _ _ rfl rfl met met).2.2.1 rfl met met).2 met

/-- CameraPackets: a vendor packet with a wrong CRC. -/
theorem test_wit_cam5 (H : Obligations.CameraPackets) :
    type_of% (((H 7 3 false false true .frameStart (st { csi := [(7, { en := true, vc := 3, mode := true })] }) _ _ rfl rfl met
    met).2.2.2.1 rfl met met [1]).1) :=
    ((H 7 3 false false true .frameStart (st { csi := [(7, { en := true, vc := 3, mode := true })] }) _ _ rfl rfl met
    met).2.2.2.1 rfl met met [1]).1

/-- CameraPackets: two words of a vendor packet. -/
theorem test_wit_cam6 (H : Obligations.CameraPackets) :
    type_of% (((H 7 3 false false true .frameStart (st
    { csi := [(7, { en := true, vc := 3, mode := true, joined := some 1 })], jobs := [(1, { active := true })] }) _ _ rfl
    rfl met met).2.2.2.1 rfl met met [1, 0, 0, 0, 2, 0, 0, 4]).2 1 met met) :=
    ((H 7 3 false false true .frameStart (st
    { csi := [(7, { en := true, vc := 3, mode := true, joined := some 1 })], jobs := [(1, { active := true })] }) _ _ rfl
    rfl met met).2.2.2.1 rfl met met [1, 0, 0, 0, 2, 0, 0, 4]).2 1 met met

/-- KezilPortEvents: the observer's link is lost, with a reply that waits. -/
theorem test_wit_kloss2 (H : Obligations.KezilPortEvents) :
    type_of% (((H true (st ({ kzHw with kz := { (kzHw).kz with portB := { up := true, replies := [[1]] } } })) _ _ rfl rfl).2.1 met
    met met met).1 met |>.1) :=
    ((H true (st ({ kzHw with kz := { (kzHw).kz with portB := { up := true, replies := [[1]] } } })) _ _ rfl rfl).2.1 met
    met met met).1 met |>.1

/-- KezilPortEvents: a JOB_STOP that has not started. -/
theorem test_wit_kdisown (H : Obligations.KezilPortEvents) :
    type_of% ((H false (st
    { kzHw with kz := { (kzHw).kz with portA := { up := true, cmds := [{ cmdOf 0x0405 7 false [0] with arrived := 3 }] } } })
    _ _ rfl rfl).2.2.1 { cmdOf 0x0405 7 false [0] with arrived := 3 } met met met met met met met met met met) :=
    (H false (st
    { kzHw with kz := { (kzHw).kz with portA := { up := true, cmds := [{ cmdOf 0x0405 7 false [0] with arrived := 3 }] } } })
    _ _ rfl rfl).2.2.1 { cmdOf 0x0405 7 false [0] with arrived := 3 } met met met met met met met met met met

/-- KezilPortEvents: a record of an earlier run of the slot. -/
theorem test_wit_kack2 (H : Obligations.KezilPortEvents) :
    type_of% ((((H false (st { kzHw with results := [⟨3, 9, leBytes 44 0, 0⟩], jobs := [(3, { run := 1 })] }) _ _ rfl rfl).2.2.2.1
    met met).1 ⟨3, 9, leBytes 44 0, 0⟩ [] met met).2 met) :=
    (((H false (st { kzHw with results := [⟨3, 9, leBytes 44 0, 0⟩], jobs := [(3, { run := 1 })] }) _ _ rfl rfl).2.2.2.1
    met met).1 ⟨3, 9, leBytes 44 0, 0⟩ [] met met).2 met

/-- CameraPackets: a line before the reference frame. -/
theorem test_wit_cam7 (H : Obligations.CameraPackets) :
    type_of% (((H 7 3 false false true .frameStart (st (camHw false)) _ _ rfl rfl met met).2.2.2.2 rfl met met met met 1 [7, 1023]
    met _ _ camDiff (fun _ => rfl) (fun _ => rfl) cam_diff _ rfl).1 met) :=
    ((H 7 3 false false true .frameStart (st (camHw false)) _ _ rfl rfl met met).2.2.2.2 rfl met met met met 1 [7, 1023]
    met _ _ camDiff (fun _ => rfl) (fun _ => rfl) cam_diff _ rfl).1 met

/-- CameraPackets: a line whose pixels differ by less than TH. -/
theorem test_wit_cam8 (H : Obligations.CameraPackets) :
    type_of% (((H 7 3 false false true .frameStart (st (camHw true)) _ _ rfl rfl met met).2.2.2.2 rfl met met met met 1 [7] met _ _
    (fun _ => 3) (fun _ => rfl) (fun _ => rfl) cam_same _ rfl).2.1 met cam_small) :=
    ((H 7 3 false false true .frameStart (st (camHw true)) _ _ rfl rfl met met).2.2.2.2 rfl met met met met 1 [7] met _ _
    (fun _ => 3) (fun _ => rfl) (fun _ => rfl) cam_same _ rfl).2.1 met cam_small

/-- CameraPackets: a line whose second pixel is much brighter. -/
theorem test_wit_cam9 (H : Obligations.CameraPackets) :
    type_of% (((H 7 3 false false true .frameStart (st (camHw true)) _ _ rfl rfl met met).2.2.2.2 rfl met met met met 1 [7, 1023]
    met _ _ camDiff (fun _ => rfl) (fun _ => rfl) cam_diff _ rfl).2.2 met 1 1023 camTile met met met cam_other met) :=
    ((H 7 3 false false true .frameStart (st (camHw true)) _ _ rfl rfl met met).2.2.2.2 rfl met met met met 1 [7, 1023]
    met _ _ camDiff (fun _ => rfl) (fun _ => rfl) cam_diff _ rfl).2.2 met 1 1023 camTile met met met cam_other met

/-- DmaChains: channel 11. -/
theorem test_wit_dstart (H : Obligations.DmaChains) :
    type_of% (((H .other 11 (st { dma := [(11, { desc := 0x40, done := true })] }) _ rfl).1 met met).1 met) :=
    ((H .other 11 (st { dma := [(11, { desc := 0x40, done := true })] }) _ rfl).1 met met).1 met

/-- DmaChains: a chain that runs. -/
theorem test_wit_dbusy (H : Obligations.DmaChains) :
    type_of% (((H .other 0 (st { dma := [(0, { run := true })] }) _ rfl).1 met met).2.1 met) :=
    ((H .other 0 (st { dma := [(0, { run := true })] }) _ rfl).1 met met).2.1 met

/-- DmaChains: a chain that runs. -/
theorem test_wit_dstop (H : Obligations.DmaChains) :
    type_of% (((H .other 0 (st { dma := [(0, { run := true })] }) _ rfl).1 met met).2.2) :=
    ((H .other 0 (st { dma := [(0, { run := true })] }) _ rfl).1 met met).2.2

/-- DmaChains: 16 bytes within PSRAM. -/
theorem test_wit_ddesc (H : Obligations.DmaChains) :
    type_of% ((H .other 15 (st descHw) _ rfl).2.2.1 _ met met met met met met met met rfl met met met met met met met met met met
    met met) :=
    (H .other 15 (st descHw) _ rfl).2.2.1 _ met met met met met met met met rfl met met met met met met met met met met
    met met

/-- DmaChains: a descriptor with NEXT. -/
theorem test_wit_ddone (H : Obligations.DmaChains) :
    type_of% ((H .other 15 (st { dma := [(15, { run := true, d := some doneDesc, cur := 0x100000040 })] }) _ rfl).2.2.2.1 doneDesc
    met met met met met met met met met met met met met met met) :=
    (H .other 15 (st { dma := [(15, { run := true, d := some doneDesc, cur := 0x100000040 })] }) _ rfl).2.2.2.1 doneDesc
    met met met met met met met met met met met met met met met

/-- DmaChains: the last descriptor. -/
theorem test_wit_ddone2 (H : Obligations.DmaChains) :
    type_of% ((H .other 15 (st { dma := [(15, { run := true, d := some { doneDesc with nextV := false } })] }) _ rfl).2.2.2.1
    { doneDesc with nextV := false } met met met met met met met met met met met met met met met) :=
    (H .other 15 (st { dma := [(15, { run := true, d := some { doneDesc with nextV := false } })] }) _ rfl).2.2.2.1
    { doneDesc with nextV := false } met met met met met met met met met met met met met met met

/-- DmaChains: a READ sent 100,001 ns ago. -/
theorem test_wit_dtmo (H : Obligations.DmaChains) :
    type_of% ((H .other 15 (st
    { elapsed := 100001, dma := [(15, { run := true, d := some doneDesc, reads := [⟨1, 2, 3, 4, none, 0⟩] })] }) _
    rfl).2.2.2.2 doneDesc met met (.inl ⟨⟨1, 2, 3, 4, none, 0⟩, by decide +kernel⟩)) :=
    (H .other 15 (st
    { elapsed := 100001, dma := [(15, { run := true, d := some doneDesc, reads := [⟨1, 2, 3, 4, none, 0⟩] })] }) _
    rfl).2.2.2.2 doneDesc met met (.inl ⟨⟨1, 2, 3, 4, none, 0⟩, by decide +kernel⟩)

/-- TasksStartAndEnd: two ready tasks. -/
theorem test_wit_tstart (H : Obligations.TasksStartAndEnd) :
    type_of% (((H (st
    { seq := { tasks := [(2, { desc := descOf 12 0 2 [], state := .ready, readyAt := 4 }), (1, { desc := descOf 11 0 1 [], state := .ready, readyAt := 5 })] } })).1
    met).1 1 { desc := descOf 11 0 1 [], state := .ready, readyAt := 5 } [(2,
    { desc := descOf 12 0 2 [], state := .ready, readyAt := 4 })] met met) :=
    ((H (st
    { seq := { tasks := [(2, { desc := descOf 12 0 2 [], state := .ready, readyAt := 4 }), (1, { desc := descOf 11 0 1 [], state := .ready, readyAt := 5 })] } })).1
    met).1 1 { desc := descOf 11 0 1 [], state := .ready, readyAt := 5 } [(2,
    { desc := descOf 12 0 2 [], state := .ready, readyAt := 4 })] met met

/-- TasksStartAndEnd: a class-2 task that needs more energy than is left. -/
theorem test_wit_tdefer (H : Obligations.TasksStartAndEnd) :
    type_of% (((H (st { seq := { tasks := [(1, { desc := (descOf 8 2 1 []).set 21 0xFF, state := .ready })] } })).1 met).2.1 1
    { desc := (descOf 8 2 1 []).set 21 0xFF, state := .ready } met met met met met) :=
    ((H (st { seq := { tasks := [(1, { desc := (descOf 8 2 1 []).set 21 0xFF, state := .ready })] } })).1 met).2.1 1
    { desc := (descOf 8 2 1 []).set 21 0xFF, state := .ready } met met met met met

/-- TasksStartAndEnd: a SWEEP for JOB_ID 7. -/
theorem test_wit_tsweep (H : Obligations.TasksStartAndEnd) :
    type_of% (((H (st { seq := { tasks := [(1, { desc := descOf 9 0 1 [7], state := .ready })] } })).1 met).2.2.1 1
    { desc := descOf 9 0 1 [7], state := .ready } met met met met met met met met met met met met) :=
    ((H (st { seq := { tasks := [(1, { desc := descOf 9 0 1 [7], state := .ready })] } })).1 met).2.2.1 1
    { desc := descOf 9 0 1 [7], state := .ready } met met met met met met met met met met met met

/-- TasksStartAndEnd: a CHECK. -/
theorem test_wit_tcheck (H : Obligations.TasksStartAndEnd) :
    type_of% (((H (st { seq := { tasks := [(4095, { desc := descOf 8 1 4095 [], state := .running })] } })).2.1 4095
    { desc := descOf 8 1 4095 [], state := .running } met met met met met met met _ rfl).1 met (by decide +kernel)) :=
    ((H (st { seq := { tasks := [(4095, { desc := descOf 8 1 4095 [], state := .running })] } })).2.1 4095
    { desc := descOf 8 1 4095 [], state := .running } met met met met met met met _ rfl).1 met (by decide +kernel)

/-- TasksStartAndEnd: a WAIT_TIME whose time is now. -/
theorem test_wit_twait (H : Obligations.TasksStartAndEnd) :
    type_of% (((H (st
    { tb := { now := 7 }, seq := { tasks := [(4095, { desc := descOf 11 0 4095 [7], state := .running })] } })).2.1 4095
    { desc := descOf 11 0 4095 [7], state := .running } met met met met met met met _ rfl).2 met met) :=
    ((H (st
    { tb := { now := 7 }, seq := { tasks := [(4095, { desc := descOf 11 0 4095 [7], state := .running })] } })).2.1 4095
    { desc := descOf 11 0 4095 [7], state := .running } met met met met met met met _ rfl).2 met met

/-- TasksStartAndEnd: a running task 1 ns past its deadline. -/
theorem test_wit_tlate (H : Obligations.TasksStartAndEnd) :
    type_of% (((H (st
    { tb := { now := 5000001 }, seq := { tasks := [(9, { desc := (descOf 11 0 9 []).set 24 5, state := .running })] } })).2.2
    9 { desc := (descOf 11 0 9 []).set 24 5, state := .running } 5000 met).1 met met met met) :=
    ((H (st
    { tb := { now := 5000001 }, seq := { tasks := [(9, { desc := (descOf 11 0 9 []).set 24 5, state := .running })] } })).2.2
    9 { desc := (descOf 11 0 9 []).set 24 5, state := .running } 5000 met).1 met met met met

/-- TasksStartAndEnd: a WAIT_TIME in 200 µs. -/
theorem test_wit_tlead (H : Obligations.TasksStartAndEnd) :
    type_of% (((H (st { seq := { tasks := [(9, { desc := descOf 11 0 9 [0x40, 0x0D, 0x03], state := .running })] } })).2.2 9
    { desc := descOf 11 0 9 [0x40, 0x0D, 0x03], state := .running } 0 met).2 met met met) :=
    ((H (st { seq := { tasks := [(9, { desc := descOf 11 0 9 [0x40, 0x0D, 0x03], state := .running })] } })).2.2 9
    { desc := descOf 11 0 9 [0x40, 0x0D, 0x03], state := .running } 0 met).2 met met met

/-- PowerAccounting: a window that was full. -/
theorem test_wit_bwin (H : Obligations.PowerAccounting) :
    type_of% (((H (st { tb := { now := 7999999 }, bud := { emNow := 60000, hist := [60000, 1100000] } })).1 met).1 (List.replicate
    64 25)) :=
    ((H (st { tb := { now := 7999999 }, bud := { emNow := 60000, hist := [60000, 1100000] } })).1 met).1 (List.replicate
    64 25)

/-- PowerAccounting: a sample of 721 µJ that passes the limit of class 0. -/
theorem test_wit_bsamp (H : Obligations.PowerAccounting) :
    type_of% (((H (st { bud := { c0Now := 60000 } })).1 met).2 721 [] 1) :=
    ((H (st { bud := { c0Now := 60000 } })).1 met).2 721 [] 1

/-- PowerAccounting: 125 °C without a job. -/
theorem test_wit_btemp (H : Obligations.PowerAccounting) :
    type_of% ((H (st {})).2.1 63 125 (.inr met)) :=
    (H (st {})).2.1 63 125 (.inr met)

/-- PowerAccounting: a raise to P0. -/
theorem test_wit_bdvfs (H : Obligations.PowerAccounting) :
    type_of% (((H (st { sq := [(63, { raising := some 0 })] })).2.2 63 0 met (by intro n; simp [st])).1 met met) :=
    ((H (st { sq := [(63, { raising := some 0 })] })).2.2 63 0 met (by intro n; simp [st])).1 met met

/-- PowerDomains: a loaded square that has been idle for 500 µs. -/
theorem test_wit_didle (H : Obligations.PowerDomains) :
    type_of% ((H (st { elapsed := 500000, sq := [(63, { loaded := true })] })).1 63 met met met met _ rfl met met met met met met) :=
    (H (st { elapsed := 500000, sq := [(63, { loaded := true })] })).1 63 met met met met _ rfl met met met met met met

/-- PowerDomains: a transition whose slope fits. -/
theorem test_wit_dbegin1 (H : Obligations.PowerDomains) :
    type_of% ((((H (st ({ power := { waiting := [.domain 64 .retain] } }))).2.1 64 .retain [] _ _ met met met met rfl rfl).1 met).1
    met met) :=
    (((H (st ({ power := { waiting := [.domain 64 .retain] } }))).2.1 64 .retain [] _ _ met met met met rfl rfl).1 met).1
    met met

/-- PowerDomains: a transition whose slope does not fit. -/
theorem test_wit_dbegin2 (H : Obligations.PowerDomains) :
    type_of% (((H (st ({ power := { waiting := [.domain 0 .retain], ramps := [⟨500, 9⟩] } }))).2.1 0 .retain [] _ _ met met met met
    rfl rfl).2 met) :=
    ((H (st ({ power := { waiting := [.domain 0 .retain], ramps := [⟨500, 9⟩] } }))).2.1 0 .retain [] _ _ met met met met
    rfl rfl).2 met

/-- PowerDomains: a PSRAM pair arrives in RETAIN. -/
theorem test_wit_dtrans (H : Obligations.PowerDomains) :
    type_of% (((H (st ({ power := { dom := [(71, { moving := some .retain })] } }))).2.2.2.2.1 71 .retain _ rfl met met met met met
    met met met met (by unfold Hw.noTaskWaits; decide +kernel) _ rfl).1 ⟨by decide, by decide, by decide, nofun⟩) :=
    ((H (st ({ power := { dom := [(71, { moving := some .retain })] } }))).2.2.2.2.1 71 .retain _ rfl met met met met met
    met met met met (by unfold Hw.noTaskWaits; decide +kernel) _ rfl).1 ⟨by decide, by decide, by decide, nofun⟩

/-- PowerDomains: square 63 arrives in ON. -/
theorem test_wit_dtrans2 (H : Obligations.PowerDomains) :
    type_of% (((H (st ({ power := { dom := [(63, { state := .retain, moving := some .on })] } }))).2.2.2.2.1 63 .on _ rfl met met
    met met met met met met met (by unfold Hw.noTaskWaits; decide +kernel) _ rfl).2 ⟨by decide, rfl, rfl⟩) :=
    ((H (st ({ power := { dom := [(63, { state := .retain, moving := some .on })] } }))).2.2.2.2.1 63 .on _ rfl met met
    met met met met met met met (by unfold Hw.noTaskWaits; decide +kernel) _ rfl).2 ⟨by decide, rfl, rfl⟩

/-- PowerDomains: domain 90 ON. -/
theorem test_wit_preq0 (H : Obligations.PowerDomains) :
    type_of% ((((H (st ({}))).2.2.2.2.2.1 .other 90 _ rfl met).1 met).2 (by intro h; revert h; decide)) :=
    (((H (st ({}))).2.2.2.2.2.1 .other 90 _ rfl met).1 met).2 (by intro h; revert h; decide)

/-- PowerDomains: a pinned square to RETAIN. -/
theorem test_wit_preq1 (H : Obligations.PowerDomains) :
    type_of% ((((H (st ({ power := { pin := [(0, 1)] } }))).2.2.2.2.2.1 .other 0x100 _ rfl met).2 .retain _ (.inl ⟨by decide, rfl⟩)
    rfl).1 (.inl met)) :=
    (((H (st ({ power := { pin := [(0, 1)] } }))).2.2.2.2.2.1 .other 0x100 _ rfl met).2 .retain _ (.inl ⟨by decide, rfl⟩)
    rfl).1 (.inl met)

/-- PowerDomains: square 63 to OFF. -/
theorem test_wit_preq2 (H : Obligations.PowerDomains) :
    type_of% (((((H (st ({}))).2.2.2.2.2.1 .other 0x23F _ rfl met).2 .off _ (.inr ⟨by decide, rfl⟩) rfl).2 met
    (by intro; decide +kernel)).2 met) :=
    ((((H (st ({}))).2.2.2.2.2.1 .other 0x23F _ rfl met).2 .off _ (.inr ⟨by decide, rfl⟩) rfl).2 met
    (by intro; decide +kernel)).2 met

/-- PowerDomains: a domain in OFF. -/
theorem test_wit_wake1 (H : Obligations.PowerDomains) :
    type_of% (((H (st ({ power := { dom := [(90, { state := .off, held := some .off })] } }))).2.2.2.2.2.2 90
    (by intro h; revert h; decide) _ _ rfl rfl).1 met met) :=
    ((H (st ({ power := { dom := [(90, { state := .off, held := some .off })] } }))).2.2.2.2.2.2 90
    (by intro h; revert h; decide) _ _ rfl rfl).1 met met

/-- PowerDomains: a domain that waits to enter RETAIN. -/
theorem test_wit_wake2 (H : Obligations.PowerDomains) :
    type_of% (((H (st ({ power := { waiting := [.domain 90 .retain] } }))).2.2.2.2.2.2 90 (by intro h; revert h; decide) _ _ rfl
    rfl).2.1 met met) :=
    ((H (st ({ power := { waiting := [.domain 90 .retain] } }))).2.2.2.2.2.2 90 (by intro h; revert h; decide) _ _ rfl
    rfl).2.1 met met

/-- PowerDomains: a domain that enters RETAIN. -/
theorem test_wit_wake3 (H : Obligations.PowerDomains) :
    type_of% (((H (st ({ power := { dom := [(90, { moving := some .retain })] } }))).2.2.2.2.2.2 90 (by intro h; revert h; decide) _
    _ rfl rfl).2.2.2 (.inl met)) :=
    ((H (st ({ power := { dom := [(90, { moving := some .retain })] } }))).2.2.2.2.2.2 90 (by intro h; revert h; decide) _
    _ rfl rfl).2.2.2 (.inl met)

/-- DmaChains: channel 12. -/
theorem test_wit_dbusy2 (H : Obligations.DmaChains) :
    type_of% ((H .other 12 (st {}) _ rfl).2.1 met met) :=
    (H .other 12 (st {}) _ rfl).2.1 met met

/-- DmaChains: a FENCE sent 100,001 ns ago. -/
theorem test_wit_dtmo2 (H : Obligations.DmaChains) :
    type_of% ((H .other 15 (st
    { elapsed := 100001, dma := [(15, { run := true, d := some { doneDesc with fencing := [(5, 0)] } })] }) _ rfl).2.2.2.2
    { doneDesc with fencing := [(5, 0)] } met met (.inr ⟨(5, 0), by decide +kernel⟩)) :=
    (H .other 15 (st
    { elapsed := 100001, dma := [(15, { run := true, d := some { doneDesc with fencing := [(5, 0)] } })] }) _ rfl).2.2.2.2
    { doneDesc with fencing := [(5, 0)] } met met (.inr ⟨(5, 0), by decide +kernel⟩)

/-- PowerAccounting: a raise that waits for a tempo start. -/
theorem test_wit_bdvfs2 (H : Obligations.PowerAccounting) :
    type_of% (((H (st { sq := [(0, { raising := some 0 })], jobs := job0 })).2.2 0 0 met (by intro n; simp [st])).2.2 met) :=
    ((H (st { sq := [(0, { raising := some 0 })], jobs := job0 })).2.2 0 0 met (by intro n; simp [st])).2.2 met

/-- PowerDomains: a square enters RETAIN. -/
theorem test_wit_dbegin3 (H : Obligations.PowerDomains) :
    type_of% (((((H (st ({ power := { waiting := [.domain 63 .retain] } }))).2.1 63 .retain [] _ _ met met met met rfl rfl).1 met).2
    met _ rfl).1 met) :=
    ((((H (st ({ power := { waiting := [.domain 63 .retain] } }))).2.1 63 .retain [] _ _ met met met met rfl rfl).1 met).2
    met _ rfl).1 met

/-- PowerDomains: a square enters OFF. -/
theorem test_wit_dbegin4 (H : Obligations.PowerDomains) :
    type_of% (((((H (st ({ power := { waiting := [.domain 63 .off] } }))).2.1 63 .off [] _ _ met met met met rfl rfl).1 met).2 met _
    rfl).2 met met) :=
    ((((H (st ({ power := { waiting := [.domain 63 .off] } }))).2.1 63 .off [] _ _ met met met met rfl rfl).1 met).2 met _
    rfl).2 met met

/-- PowerDomains: three steps of a DVFS change. -/
theorem test_wit_dbegin5 (H : Obligations.PowerDomains) :
    type_of% ((H (st { power := { waiting := [.dvfs 63 3 true] } })).2.2.1 63 3 true [] met _ rfl met) :=
    (H (st { power := { waiting := [.dvfs 63 3 true] } })).2.2.1 63 3 true [] met _ rfl met

/-- PowerDomains: a loaded square waits for OFF. -/
theorem test_wit_dbegin6 (H : Obligations.PowerDomains) :
    type_of% ((H (st { sq := [(63, { loaded := true })], power := { waiting := [.domain 63 .off] } })).2.2.2.1 63 [] met met met) :=
    (H (st { sq := [(63, { loaded := true })], power := { waiting := [.domain 63 .off] } })).2.2.2.1 63 [] met met met

/-- PowerDomains: a fused-off square ON. -/
theorem test_wit_preq3 (H : Obligations.PowerDomains) :
    type_of% ((((H (st ({ sq := [(63, { fused := true })] }))).2.2.2.2.2.1 .other 63 _ rfl met).1 met).1 ⟨by decide, rfl⟩) :=
    (((H (st ({ sq := [(63, { fused := true })] }))).2.2.2.2.2.1 .other 63 _ rfl met).1 met).1 ⟨by decide, rfl⟩

/-- PowerDomains: a square that is in RETAIN, to RETAIN. -/
theorem test_wit_preq4 (H : Obligations.PowerDomains) :
    type_of% (((((H (st ({ power := { dom := [(63, { state := .retain })] } }))).2.2.2.2.2.1 .other 0x13F _ rfl met).2 .retain _
    (.inl ⟨by decide, rfl⟩) rfl).2 met (by intro h; cases h)).1 met) :=
    ((((H (st ({ power := { dom := [(63, { state := .retain })] } }))).2.2.2.2.2.1 .other 0x13F _ rfl met).2 .retain _
    (.inl ⟨by decide, rfl⟩) rfl).2 met (by intro h; cases h)).1 met

/-- PowerDomains: a domain on its way to ON. -/
theorem test_wit_wake4 (H : Obligations.PowerDomains) :
    type_of% (((H (st ({ power := { dom := [(90, { state := .off, moving := some .on })] } }))).2.2.2.2.2.2 90
    (by intro h; revert h; decide) _ _ rfl rfl).2.2.1 met) :=
    ((H (st ({ power := { dom := [(90, { state := .off, moving := some .on })] } }))).2.2.2.2.2.2 90
    (by intro h; revert h; decide) _ _ rfl rfl).2.2.1 met

/-- TasksStartAndEnd: a DMA task on the lowest free channel, while 12 runs. -/
theorem test_wit_tdma (H : Obligations.TasksStartAndEnd) :
    type_of% ((((H (st
    { seq := { tasks := [(1, { desc := descOf 4 0 1 [0xFF, 0, 0, 0, 0, 0, 0, 0, 64, 0, 0, 0, 1], state := .ready })], sweeps := [7] }, dma := [(12, { run := true })] })).1
    met).2.2.2 1 { desc := descOf 4 0 1 [0xFF, 0, 0, 0, 0, 0, 0, 0, 64, 0, 0, 0, 1], state := .ready } met met met met met
    met met met met _ rfl _ rfl).1 13 met met) :=
    (((H (st
    { seq := { tasks := [(1, { desc := descOf 4 0 1 [0xFF, 0, 0, 0, 0, 0, 0, 0, 64, 0, 0, 0, 1], state := .ready })], sweeps := [7] }, dma := [(12, { run := true })] })).1
    met).2.2.2 1 { desc := descOf 4 0 1 [0xFF, 0, 0, 0, 0, 0, 0, 0, 64, 0, 0, 0, 1], state := .ready } met met met met met
    met met met met _ rfl _ rfl).1 13 met met

/-- TasksStartAndEnd: a TEMPO_RUN on the square of a running job. -/
theorem test_wit_trun1 (H : Obligations.TasksStartAndEnd) :
    type_of% (((((H (st
    { seq := { tasks := [(1, { desc := ((descOf 1 0 1 [7]).set 4 1), state := .ready })], sweeps := [7] }, jobs := jobOn0 })).1
    met).2.2.2 1 { desc := ((descOf 1 0 1 [7]).set 4 1), state := .ready } met met met met met met met met met _ rfl _
    rfl).2.1 met).1 met) :=
    ((((H (st
    { seq := { tasks := [(1, { desc := ((descOf 1 0 1 [7]).set 4 1), state := .ready })], sweeps := [7] }, jobs := jobOn0 })).1
    met).2.2.2 1 { desc := ((descOf 1 0 1 [7]).set 4 1), state := .ready } met met met met met met met met met _ rfl _
    rfl).2.1 met).1 met

/-- TasksStartAndEnd: a TEMPO_RUN without a sweep for its JOB_ID. -/
theorem test_wit_trun2 (H : Obligations.TasksStartAndEnd) :
    type_of% ((((((H (st { seq := { tasks := [(1, { desc := ((descOf 1 0 1 [8]).set 4 1), state := .ready })], sweeps := [7] } })).1
    met).2.2.2 1 { desc := ((descOf 1 0 1 [8]).set 4 1), state := .ready } met met met met met met met met met _ rfl _
    rfl).2.1 met).2 0 met met).1 met) :=
    (((((H (st { seq := { tasks := [(1, { desc := ((descOf 1 0 1 [8]).set 4 1), state := .ready })], sweeps := [7] } })).1
    met).2.2.2 1 { desc := ((descOf 1 0 1 [8]).set 4 1), state := .ready } met met met met met met met met met _ rfl _
    rfl).2.1 met).2 0 met met).1 met

/-- TasksStartAndEnd: a TEMPO_RUN of nine tempos on a loaded square. -/
theorem test_wit_trun3 (H : Obligations.TasksStartAndEnd) :
    type_of% ((((((H (st
    { seq := { tasks := [(1, { desc := ((descOf 1 0 1 [7, 0, 0, 0, 9]).set 4 1), state := .ready })], sweeps := [7] }, sq := [(0, { loaded := true })] })).1
    met).2.2.2 1 { desc := ((descOf 1 0 1 [7, 0, 0, 0, 9]).set 4 1), state := .ready } met met met met met met met met met
    _ rfl _ rfl).2.1 met).2 0 met met).2 met met
    (by intro q hq; cases hq with | head => intro e he; cases he | tail _ x => cases x)) :=
    (((((H (st
    { seq := { tasks := [(1, { desc := ((descOf 1 0 1 [7, 0, 0, 0, 9]).set 4 1), state := .ready })], sweeps := [7] }, sq := [(0, { loaded := true })] })).1
    met).2.2.2 1 { desc := ((descOf 1 0 1 [7, 0, 0, 0, 9]).set 4 1), state := .ready } met met met met met met met met met
    _ rfl _ rfl).2.1 met).2 0 met met).2 met met
    (by intro q hq; cases hq with | head => intro e he; cases he | tail _ x => cases x)

/-- TasksStartAndEnd: a LOAD_SQUARE of an image that does not lie in PSRAM. -/
theorem test_wit_tload1 (H : Obligations.TasksStartAndEnd) :
    type_of% (((((H (st { seq := { tasks := [(1, { desc := ((descOf 5 0 1 [0]).set 4 1), state := .ready })], sweeps := [7] } })).1
    met).2.2.2 1 { desc := ((descOf 5 0 1 [0]).set 4 1), state := .ready } met met met met met met met met met _ rfl _
    rfl).2.2.1 0 [] met met met met).1 met) :=
    ((((H (st { seq := { tasks := [(1, { desc := ((descOf 5 0 1 [0]).set 4 1), state := .ready })], sweeps := [7] } })).1
    met).2.2.2 1 { desc := ((descOf 5 0 1 [0]).set 4 1), state := .ready } met met met met met met met met met _ rfl _
    rfl).2.2.1 0 [] met met met met).1 met

/-- TasksStartAndEnd: a DRAIN_SQUARE on the square of a running job. -/
theorem test_wit_tdrain1 (H : Obligations.TasksStartAndEnd) :
    type_of% (((((H (st
    { seq := { tasks := [(1, { desc := ((descOf 6 0 1 []).set 4 1), state := .ready })], sweeps := [7] }, jobs := jobOn0 })).1
    met).2.2.2 1 { desc := ((descOf 6 0 1 []).set 4 1), state := .ready } met met met met met met met met met _ rfl _
    rfl).2.2.2 met).1 met) :=
    ((((H (st
    { seq := { tasks := [(1, { desc := ((descOf 6 0 1 []).set 4 1), state := .ready })], sweeps := [7] }, jobs := jobOn0 })).1
    met).2.2.2 1 { desc := ((descOf 6 0 1 []).set 4 1), state := .ready } met met met met met met met met met _ rfl _
    rfl).2.2.2 met).1 met

/-- TasksStartAndEnd: a DRAIN_SQUARE of a square with a packet to inject. -/
theorem test_wit_tdrain2 (H : Obligations.TasksStartAndEnd) :
    type_of% ((((((H (st
    { seq := { tasks := [(1, { desc := ((descOf 6 0 1 []).set 4 1), state := .ready })], sweeps := [7] }, sq := [(0, { loaded := true, rt := { inject := [aResp] } })] })).1
    met).2.2.2 1 { desc := ((descOf 6 0 1 []).set 4 1), state := .ready } met met met met met met met met met _ rfl _
    rfl).2.2.2 met).2 met met).1 met
    (by intro q hq; cases hq with | head => exact ⟨by decide +kernel, by decide +kernel⟩ | tail _ x => cases x)) :=
    (((((H (st
    { seq := { tasks := [(1, { desc := ((descOf 6 0 1 []).set 4 1), state := .ready })], sweeps := [7] }, sq := [(0, { loaded := true, rt := { inject := [aResp] } })] })).1
    met).2.2.2 1 { desc := ((descOf 6 0 1 []).set 4 1), state := .ready } met met met met met met met met met _ rfl _
    rfl).2.2.2 met).2 met met).1 met
    (by intro q hq; cases hq with | head => exact ⟨by decide +kernel, by decide +kernel⟩ | tail _ x => cases x)

/-- TasksStartAndEnd: a DRAIN_SQUARE of a square that owes nothing. -/
theorem test_wit_tdrain3 (H : Obligations.TasksStartAndEnd) :
    type_of% ((((((H (st
    { seq := { tasks := [(1, { desc := ((descOf 6 0 1 []).set 4 1), state := .ready })], sweeps := [7] }, sq := [(0, { loaded := true })] })).1
    met).2.2.2 1 { desc := ((descOf 6 0 1 []).set 4 1), state := .ready } met met met met met met met met met _ rfl _
    rfl).2.2.2 met).2 met met).2 0 met met met) :=
    (((((H (st
    { seq := { tasks := [(1, { desc := ((descOf 6 0 1 []).set 4 1), state := .ready })], sweeps := [7] }, sq := [(0, { loaded := true })] })).1
    met).2.2.2 1 { desc := ((descOf 6 0 1 []).set 4 1), state := .ready } met met met met met met met met met _ rfl _
    rfl).2.2.2 met).2 met met).2 0 met met met

/-- PowerAccounting: a square of a class-1 job that became hot during its raise. -/
theorem test_wit_bdvfs3 (H : Obligations.PowerAccounting) :
    type_of% (((H (st
    { sq := [(0, { raising := some 0 })], jobs := [(0, { active := true, mask := 1, released := true, started := true, tid := 9 })], seq := { tasks := [(9, { desc := descOf 1 1 9 [], state := .running })] }, bud := { hot := [0] } })).2.2
    0 0 met (by intro n; simp [st])).2.1 met met) :=
    ((H (st
    { sq := [(0, { raising := some 0 })], jobs := [(0, { active := true, mask := 1, released := true, started := true, tid := 9 })], seq := { tasks := [(9, { desc := descOf 1 1 9 [], state := .running })] }, bud := { hot := [0] } })).2.2
    0 0 met (by intro n; simp [st])).2.1 met met

/-- RestartSteps: an EVENT packet and a WRITE wait. -/
theorem test_wit_rst1 (H : Obligations.RestartSteps) :
    type_of% ((H 0 (st
    { jobs := job0 { restart := some {} }, sq := [(0, { inbox := [⟨anEvent, 0, true, false⟩, ⟨aWrite, 0, false, false⟩] })] })
    _ {} (Eq.refl _) met met).1 met met met met) :=
    (H 0 (st
    { jobs := job0 { restart := some {} }, sq := [(0, { inbox := [⟨anEvent, 0, true, false⟩, ⟨aWrite, 0, false, false⟩] })] })
    _ {} (Eq.refl _) met met).1 met met met met

/-- RestartSteps: 4 µs after step 1. -/
theorem test_wit_rst2 (H : Obligations.RestartSteps) :
    type_of% ((H 0 (st { elapsed := 4000, jobs := job0 { restart := some { step := 2 } } }) _ { step := 2 } (Eq.refl _) met met).2.1
    met met met met met) :=
    (H 0 (st { elapsed := 4000, jobs := job0 { restart := some { step := 2 } } }) _ { step := 2 } (Eq.refl _) met met).2.1
    met met met met met

/-- RestartSteps: row 5 of core 17 is dirty. -/
theorem test_wit_rst3 (H : Obligations.RestartSteps) :
    type_of% ((H 3 (st
    { banks := { mem := memWriteN [] (({} : Hw).mirRec 0 17 20) [9, 8] }, jobs := [(3, { active := true, mask := 1, restart := some { step := 3 } })], sq := [(0, { flt := { dirty := [.row 17 5] } })] })
    _ { step := 3 } (Eq.refl _) met met).2.2 0 17 5 [(0, .result 17 5 (.add 1 2 3)), (1, .result 0 0 (.add 1 1 3))] met
    met met met met met met met met met) :=
    (H 3 (st
    { banks := { mem := memWriteN [] (({} : Hw).mirRec 0 17 20) [9, 8] }, jobs := [(3, { active := true, mask := 1, restart := some { step := 3 } })], sq := [(0, { flt := { dirty := [.row 17 5] } })] })
    _ { step := 3 } (Eq.refl _) met met).2.2 0 17 5 [(0, .result 17 5 (.add 1 2 3)), (1, .result 0 0 (.add 1 1 3))] met
    met met met met met met met met met

/-- RowsAndBankGroups: the last row of the last bank. -/
theorem test_wit_ecc (H : Obligations.RowsAndBankGroups) :
    type_of% ((H 63 27 15 2047 (st { banks := { corr := [(rowKey 63 27 15 2047, [4, 5])] }, tb := { now := 10000000004 } }) _ rfl).1) :=
    (H 63 27 15 2047 (st { banks := { corr := [(rowKey 63 27 15 2047, [4, 5])] }, tb := { now := 10000000004 } }) _ rfl).1

/-- RowsAndBankGroups: three corrected reads. -/
theorem test_wit_row1 (H : Obligations.RowsAndBankGroups) :
    type_of% (((H 0 0 0 0 (st { banks := { corr := [(rowKey 0 0 0 0, [0, 0, 0])] } }) _ rfl).2.1 [] none _ rfl).1 met) :=
    ((H 0 0 0 0 (st { banks := { corr := [(rowKey 0 0 0 0, [0, 0, 0])] } }) _ rfl).2.1 [] none _ rfl).1 met

/-- RowsAndBankGroups: four corrected reads. -/
theorem test_wit_row2 (H : Obligations.RowsAndBankGroups) :
    type_of% ((((H 0 0 0 0 (st { banks := { corr := [(rowKey 0 0 0 0, [0, 0, 0, 0])] } }) _ rfl).2.1 [] none _ rfl).2 met met).1 met) :=
    (((H 0 0 0 0 (st { banks := { corr := [(rowKey 0 0 0 0, [0, 0, 0, 0])] } }) _ rfl).2.1 [] none _ rfl).2 met met).1 met

/-- RowsAndBankGroups: an uncorrectable word 3. -/
theorem test_wit_row3 (H : Obligations.RowsAndBankGroups) :
    type_of% ((((H 0 0 0 0 (st {}) _ rfl).2.1 [3] none _ rfl).2 met met).2 (.inl met) met) :=
    (((H 0 0 0 0 (st {}) _ rfl).2.1 [3] none _ rfl).2 met met).2 (.inl met) met

/-- RowsAndBankGroups: bank group 0 to RETAIN. -/
theorem test_wit_bank1 (H : Obligations.RowsAndBankGroups) :
    type_of% (((H 0 0 0 0 (st ({})) _ rfl).2.2.1 .other 0x20 .retain _ rfl (by unfold Hw.sqServes; decide +kernel) met (.inr (.inl
    ⟨by decide, rfl⟩))).2 (.inr (.inr ⟨rfl, nofun⟩)) _ rfl) :=
    ((H 0 0 0 0 (st ({})) _ rfl).2.2.1 .other 0x20 .retain _ rfl (by unfold Hw.sqServes; decide +kernel) met (.inr (.inl
    ⟨by decide, rfl⟩))).2 (.inr (.inr ⟨rfl, nofun⟩)) _ rfl

/-- RowsAndBankGroups: bank group 27 enters OFF. -/
theorem test_wit_bank2 (H : Obligations.RowsAndBankGroups) :
    type_of% ((H 63 27 0 0 (st { sq := [(63, { banks := [(27, { moving := some .off })] })] }) _ rfl).2.2.2 .off _ rfl met met met
    (by intro h; cases h) _ rfl) :=
    (H 63 27 0 0 (st { sq := [(63, { banks := [(27, { moving := some .off })] })] }) _ rfl).2.2.2 .off _ rfl met met met
    (by intro h; cases h) _ rfl

/-- PsramInService: the drift is above DRIFT. -/
theorem test_wit_drift1 (H : Obligations.PsramInService) :
    type_of% ((((H 3 (st { elapsed := 100000000 }) met met (by unfold Hw.noTaskWaits; decide +kernel) met met met met met).1 [(3,
    27)] met _ rfl).1 met).1 met) :=
    (((H 3 (st { elapsed := 100000000 }) met met (by unfold Hw.noTaskWaits; decide +kernel) met met met met met).1 [(3,
    27)] met _ rfl).1 met).1 met

/-- PsramInService: the drift is DRIFT. -/
theorem test_wit_drift2 (H : Obligations.PsramInService) :
    type_of% ((((H 3 (st { elapsed := 100000000 }) met met (by unfold Hw.noTaskWaits; decide +kernel) met met met met met).1 [(3,
    26)] met _ rfl).1 met).2 met) :=
    (((H 3 (st { elapsed := 100000000 }) met met (by unfold Hw.noTaskWaits; decide +kernel) met met met met met).1 [(3,
    26)] met _ rfl).1 met).2 met

/-- PsramInService: the drift is above DRIFT, 1 ns before PERIOD ms are over. -/
theorem test_wit_drift3 (H : Obligations.PsramInService) :
    type_of% (((H 3 (st { elapsed := 99999999 }) met met (by unfold Hw.noTaskWaits; decide +kernel) met met met met met).1 [(3, 27)]
    met _ rfl).2 met) :=
    ((H 3 (st { elapsed := 99999999 }) met met (by unfold Hw.noTaskWaits; decide +kernel) met met met met met).1 [(3, 27)]
    met _ rfl).2 met

/-- PsramInService: a retrain ends. -/
theorem test_wit_retr1 (H : Obligations.PsramInService) :
    type_of% (((H 15 (st { psc := { chan := [(15, { state := 2, retrains := 65535 })] } }) met met
    (by unfold Hw.noTaskWaits; decide +kernel) met met met met met).2.1 met).1 63) :=
    ((H 15 (st { psc := { chan := [(15, { state := 2, retrains := 65535 })] } }) met met
    (by unfold Hw.noTaskWaits; decide +kernel) met met met met met).2.1 met).1 63

/-- PsramInService: 400,001 ns at the highest frequency. -/
theorem test_wit_retr2 (H : Obligations.PsramInService) :
    type_of% ((((H 15 (st { elapsed := 400001, psc := { chan := [(15, { state := 2 })] } }) met met
    (by unfold Hw.noTaskWaits; decide +kernel) met met met met met).2.1 met).2 met).1 met) :=
    (((H 15 (st { elapsed := 400001, psc := { chan := [(15, { state := 2 })] } }) met met
    (by unfold Hw.noTaskWaits; decide +kernel) met met met met met).2.1 met).2 met).1 met

/-- PsramInService: 400,001 ns at the lowest frequency. -/
theorem test_wit_retr3 (H : Obligations.PsramInService) :
    type_of% ((((H 15 (st { elapsed := 400001, psc := { chan := [(15, { state := 2, freq := 2 })] } }) met met
    (by unfold Hw.noTaskWaits; decide +kernel) met met met met met).2.1 met).2 met).2 met) :=
    (((H 15 (st { elapsed := 400001, psc := { chan := [(15, { state := 2, freq := 2 })] } }) met met
    (by unfold Hw.noTaskWaits; decide +kernel) met met met met met).2.1 met).2 met).2 met

/-- PsramInService: a record of three bytes for the last page. -/
theorem test_wit_jpage1 (H : Obligations.PsramInService) :
    type_of% (((H 0 (st { psc := { outEn := true, size := 1, jpage := 1023, outWait := [[1, 2, 3]] } }) met met
    (by unfold Hw.noTaskWaits; decide +kernel) met met met met met).2.2 _ rfl met met met _ rfl).1 [1, 2, 3] met met met
    met) :=
    ((H 0 (st { psc := { outEn := true, size := 1, jpage := 1023, outWait := [[1, 2, 3]] } }) met met
    (by unfold Hw.noTaskWaits; decide +kernel) met met met met met).2.2 _ rfl met met met _ rfl).1 [1, 2, 3] met met met
    met

/-- PsramInService: an entry of slot 2. -/
theorem test_wit_jpage2 (H : Obligations.PsramInService) :
    type_of% (((H 0 (st { psc := { inEn := true, size := 1, inWait := [(2, [leBytes 8 77])] } }) met met
    (by unfold Hw.noTaskWaits; decide +kernel) met met met met met).2.2 _ rfl met met met _ rfl).2 2 [leBytes 8 77] met
    met met met) :=
    ((H 0 (st { psc := { inEn := true, size := 1, inWait := [(2, [leBytes 8 77])] } }) met met
    (by unfold Hw.noTaskWaits; decide +kernel) met met met met met).2.2 _ rfl met met met _ rfl).2 2 [leBytes 8 77] met
    met met met

/-- BringUpStages: a wrong factory CRC. -/
theorem test_wit_stg1 (H : Obligations.BringUpStages) :
    type_of% (((H (st { bring := { stage := 1, s0Done := true }, fuses := { crc := 5 } })).1 met _ rfl).2 met) :=
    ((H (st { bring := { stage := 1, s0Done := true }, fuses := { crc := 5 } })).1 met _ rfl).2 met

/-- BringUpStages: VBUS on port B. -/
theorem test_wit_stg2 (H : Obligations.BringUpStages) :
    type_of% (((H (st { bring := { stage := 2, last := 1, s0Done := true }, supply := { vbusB := true } })).2.1 met).1) :=
    ((H (st { bring := { stage := 2, last := 1, s0Done := true }, supply := { vbusB := true } })).2.1 met).1

/-- BringUpStages: the PLL of square 63 and the hub's do not lock. -/
theorem test_wit_stg2b (H : Obligations.BringUpStages) :
    type_of% (((H (st { bring := { stage := 2, last := 1, s0Done := true } })).2.1 met).2 63 7 met) :=
    ((H (st { bring := { stage := 2, last := 1, s0Done := true } })).2.1 met).2 63 7 met

/-- BringUpStages: memory holds a byte, and the staging region one. -/
theorem test_wit_stg3 (H : Obligations.BringUpStages) :
    type_of% (((H (st { bring := { stage := 3, last := 2, s0Done := true }, banks := { mem := [⟨5, 6⟩, ⟨0x17F000001, 3⟩] } })).2.2.1
    met).1) :=
    ((H (st { bring := { stage := 3, last := 2, s0Done := true }, banks := { mem := [⟨5, 6⟩, ⟨0x17F000001, 3⟩] } })).2.2.1
    met).1

/-- BringUpStages: device 1 of channel 15 fails. -/
theorem test_wit_stg3b (H : Obligations.BringUpStages) :
    type_of% (((H (st { bring := { stage := 3, last := 2, s0Done := true } })).2.2.1 met).2 15 1) :=
    ((H (st { bring := { stage := 3, last := 2, s0Done := true } })).2.2.1 met).2 15 1

/-- BringUpStages: the host has sent an image. -/
theorem test_wit_stg4 (H : Obligations.BringUpStages) :
    type_of% ((H (st
    { bring := { stage := 4, last := 3, s0Done := true }, fuses := { lcCount := 0 }, fw := { bootOk := true, bootImage := [0x46, 0x57, 1, 0, 7] } })).2.2.2.1
    met met met met met met [0x46, 0x57, 1, 0, 7] 0 met) :=
    (H (st
    { bring := { stage := 4, last := 3, s0Done := true }, fuses := { lcCount := 0 }, fw := { bootOk := true, bootImage := [0x46, 0x57, 1, 0, 7] } })).2.2.2.1
    met met met met met met [0x46, 0x57, 1, 0, 7] 0 met

/-- BringUpStages: no slot fails. -/
theorem test_wit_stg5 (H : Obligations.BringUpStages) :
    type_of% ((H (st { bring := { stage := 5, last := 4, s0Done := true } })).2.2.2.2.1 met) :=
    (H (st { bring := { stage := 5, last := 4, s0Done := true } })).2.2.2.2.1 met

/-- BringUpStages: every window is wide at the highest frequency. -/
theorem test_wit_stg6 (H : Obligations.BringUpStages) :
    type_of% ((H (st { bring := { stage := 6, last := 5, s0Done := true } })).2.2.2.2.2.1 met (List.replicate 16 [300, 300, 300])
    met) :=
    (H (st { bring := { stage := 6, last := 5, s0Done := true } })).2.2.2.2.2.1 met (List.replicate 16 [300, 300, 300])
    met

/-- BringUpStages: no port has a partner, and port 5 was enabled before. -/
theorem test_wit_stg7 (H : Obligations.BringUpStages) :
    type_of% ((H (st { bring := { stage := 7, last := 6, s0Done := true }, link := [(5, { en := true })] })).2.2.2.2.2.2.2.1 met) :=
    (H (st { bring := { stage := 7, last := 6, s0Done := true }, link := [(5, { en := true })] })).2.2.2.2.2.2.2.1 met

/-- BringUpStages: the last stage. -/
theorem test_wit_stg8 (H : Obligations.BringUpStages) :
    type_of% ((H (st { bring := { stage := 8, last := 7, s0Done := true } })).2.2.2.2.2.2.2.2 met met met met met) :=
    (H (st { bring := { stage := 8, last := 7, s0Done := true } })).2.2.2.2.2.2.2.2 met met met met met

/-- SuppliesAndResets: 9.0 V. -/
theorem test_wit_sup1 (H : Obligations.SuppliesAndResets) :
    type_of% ((H 9000 0 false (st {}) _ rfl).1 5 100 met (.inl met)) :=
    (H 9000 0 false (st {}) _ rfl).1 5 100 met (.inl met)

/-- SuppliesAndResets: VIN_A falls. -/
theorem test_wit_sup2 (H : Obligations.SuppliesAndResets) :
    type_of% (((H 8499 8500 false (st { supply := { busUp := true, vinA := 12000, vinB := 9000 } }) _ rfl).2.1 met).1 met met met
    met) :=
    ((H 8499 8500 false (st { supply := { busUp := true, vinA := 12000, vinB := 9000 } }) _ rfl).2.1 met).1 met met met
    met

/-- SuppliesAndResets: VIN_A is back. -/
theorem test_wit_sup3 (H : Obligations.SuppliesAndResets) :
    type_of% (((H 0 0 false (st { supply := { busUp := true, inUse := true, vinA := 9501, vinB := 9000 } }) _ rfl).2.1 met).2.1 met
    met met) :=
    ((H 0 0 false (st { supply := { busUp := true, inUse := true, vinA := 9501, vinB := 9000 } }) _ rfl).2.1 met).2.1 met
    met met

/-- SuppliesAndResets: VIN_A rises out of range. -/
theorem test_wit_sup4 (H : Obligations.SuppliesAndResets) :
    type_of% (((H 16501 0 false (st { supply := { busUp := true, vinA := 12000 } }) _ rfl).2.1 met).2.2) :=
    ((H 16501 0 false (st { supply := { busUp := true, vinA := 12000 } }) _ rfl).2.1 met).2.2

/-- SuppliesAndResets: VIN_B above 17.5 V. -/
theorem test_wit_sup5 (H : Obligations.SuppliesAndResets) :
    type_of% ((H 17501 0 true (st {}) _ rfl).2.2.1 met) :=
    (H 17501 0 true (st {}) _ rfl).2.2.1 met

/-- SuppliesAndResets: VIN_B below 16.5 V again. -/
theorem test_wit_sup6 (H : Obligations.SuppliesAndResets) :
    type_of% ((H 16499 0 true (st { supply := { bOv := true } }) _ rfl).2.2.2.1 met) :=
    (H 16499 0 true (st { supply := { bOv := true } }) _ rfl).2.2.2.1 met

/-- SuppliesAndResets: a short of VIN_A. -/
theorem test_wit_sup7 (H : Obligations.SuppliesAndResets) :
    type_of% ((H 0 0 false (st { supply := { busUp := true } }) _ rfl).2.2.2.2.1) :=
    (H 0 0 false (st { supply := { busUp := true } }) _ rfl).2.2.2.2.1

/-- SuppliesAndResets: a brown-out with a byte in staging and one elsewhere. -/
theorem test_wit_sup8 (H : Obligations.SuppliesAndResets) :
    type_of% ((H 0 0 false (st { supply := { busUp := true }, banks := { mem := [⟨5, 6⟩, ⟨0x17F000001, 3⟩] } }) _ rfl).2.2.2.2.2.1
    met) :=
    (H 0 0 false (st { supply := { busUp := true }, banks := { mem := [⟨5, 6⟩, ⟨0x17F000001, 3⟩] } }) _ rfl).2.2.2.2.2.1
    met

/-- SuppliesAndResets: both supplies below 4.0 V. -/
theorem test_wit_sup9 (H : Obligations.SuppliesAndResets) :
    type_of% ((H 3999 3999 false (st { supply := { busUp := true }, flt := { sticky1 := 3 } }) _ rfl).2.2.2.2.2.2.1 met met) :=
    (H 3999 3999 false (st { supply := { busUp := true }, flt := { sticky1 := 3 } }) _ rfl).2.2.2.2.2.2.1 met met

/-- SuppliesAndResets: RESET_N goes low. -/
theorem test_wit_rstn1 (H : Obligations.SuppliesAndResets) :
    type_of% (((H 0 0 false (st { bring := { s0Done := true, stage := 8, last := 8 }, jobs := job0 }) _ rfl).2.2.2.2.2.2.2.1 met).1) :=
    ((H 0 0 false (st { bring := { s0Done := true, stage := 8, last := 8 }, jobs := job0 }) _ rfl).2.2.2.2.2.2.2.1 met).1

/-- SuppliesAndResets: RESET_N goes high. -/
theorem test_wit_rstn2 (H : Obligations.SuppliesAndResets) :
    type_of% (((H 0 0 false (st { bring := { s0Done := true }, supply := { resetLow := true } }) _ rfl).2.2.2.2.2.2.2.1 met).2.1 met
    met) :=
    ((H 0 0 false (st { bring := { s0Done := true }, supply := { resetLow := true } }) _ rfl).2.2.2.2.2.2.2.1 met).2.1 met
    met

/-- SuppliesAndResets: three bytes across the end of the space. -/
theorem test_wit_mgt1 (H : Obligations.SuppliesAndResets) :
    type_of% ((((H 0 0 false (st { bring := { s0Done := true }, supply := { mgtPtr := 65534, addrSampled := 7 } }) _
    rfl).2.2.2.2.2.2.2.1 met).2.2 0x5F 3 true).1 met) :=
    (((H 0 0 false (st { bring := { s0Done := true }, supply := { mgtPtr := 65534, addrSampled := 7 } }) _
    rfl).2.2.2.2.2.2.2.1 met).2.2 0x5F 3 true).1 met

/-- SuppliesAndResets: a pointer of 0x0102. -/
theorem test_wit_mgt2 (H : Obligations.SuppliesAndResets) :
    type_of% ((((H 0 0 false (st { bring := { s0Done := true } }) _ rfl).2.2.2.2.2.2.2.1 met).2.2 0x58 3 false).2.1 2 1 [9] met) :=
    (((H 0 0 false (st { bring := { s0Done := true } }) _ rfl).2.2.2.2.2.2.2.1 met).2.2 0x58 3 false).2.1 2 1 [9] met

/-- SuppliesAndResets: a held clock. -/
theorem test_wit_mgt3 (H : Obligations.SuppliesAndResets) :
    type_of% ((H 0 0 false (st { supply := { mgtOpen := true } }) _ rfl).2.2.2.2.2.2.2.2) :=
    (H 0 0 false (st { supply := { mgtOpen := true } }) _ rfl).2.2.2.2.2.2.2.2

/-- LifeCycleFromFuses: every bit blown. -/
theorem test_wit_lc1 (H : Obligations.LifeCycleFromFuses) :
    type_of% ((H { lcCount := 0xFFFFFFFFFFFFFFFF } 64 met).1) :=
    (H { lcCount := 0xFFFFFFFFFFFFFFFF } 64 met).1

/-- LifeCycleFromFuses: retired. -/
theorem test_wit_lc2 (H : Obligations.LifeCycleFromFuses) :
    type_of% ((H { lcCount := 3, retired := 1 } 2 met).2.1 met) :=
    (H { lcCount := 3, retired := 1 } 2 met).2.1 met

/-- LifeCycleFromFuses: four bits blown. -/
theorem test_wit_lc3 (H : Obligations.LifeCycleFromFuses) :
    type_of% ((((H { lcCount := 15 } 4 met).2.2 met).2.2.1 met met)) :=
    (((H { lcCount := 15 } 4 met).2.2 met).2.2.1 met met)

/-- LifeCycleFromFuses: 63 bits blown. -/
theorem test_wit_lc4 (H : Obligations.LifeCycleFromFuses) :
    type_of% (((H { lcCount := 0x7FFFFFFFFFFFFFFF } 63 met).2.2 met).2.2.2.1 met met) :=
    ((H { lcCount := 0x7FFFFFFFFFFFFFFF } 63 met).2.2 met).2.2.2.1 met met

/-- LifeCycleFromFuses: 63 bits blown: one of 31 numbers. -/
theorem test_wit_lc5 (H : Obligations.LifeCycleFromFuses) :
    type_of% (((H { lcCount := 0x7FFFFFFFFFFFFFFF } 63 met).2.2 met).2.2.2.2 met) :=
    ((H { lcCount := 0x7FFFFFFFFFFFFFFF } 63 met).2.2 met).2.2.2.2 met

/-- RowsAndBankGroups: an uncorrectable word that a reload check reads, while a job runs. -/
theorem test_wit_row4 (H : Obligations.RowsAndBankGroups) :
    type_of% ((((H 0 19 0 0 (st { jobs := jobOn0, slot := [(5, { checking := true })] }) _ rfl).2.1 [3] (some 5) _ rfl).2 met met).2
    (.inr met) met) :=
    (((H 0 19 0 0 (st { jobs := jobOn0, slot := [(5, { checking := true })] }) _ rfl).2.1 [3] (some 5) _ rfl).2 met met).2
    (.inr met) met

/-- RowsAndBankGroups: bank group 0 of a loaded square to OFF. -/
theorem test_wit_bank3 (H : Obligations.RowsAndBankGroups) :
    type_of% (((H 0 0 0 0 (st ({ sq := [(0, { loaded := true })] })) _ rfl).2.2.1 .other 0x40 .off _ rfl
    (by unfold Hw.sqServes; decide +kernel) met (.inr (.inr ⟨by decide, rfl⟩))).1 met (.inl met)) :=
    ((H 0 0 0 0 (st ({ sq := [(0, { loaded := true })] })) _ rfl).2.2.1 .other 0x40 .off _ rfl
    (by unfold Hw.sqServes; decide +kernel) met (.inr (.inr ⟨by decide, rfl⟩))).1 met (.inl met)

/-- RowsAndBankGroups: bank group 0 to ON, where it is. -/
theorem test_wit_bank4 (H : Obligations.RowsAndBankGroups) :
    type_of% (((H 0 0 0 0 (st ({ jobs := jobOn0 })) _ rfl).2.2.1 .other 0 .on _ rfl (by unfold Hw.sqServes; decide +kernel) met
    (.inl ⟨by decide, rfl⟩)).2 (.inl rfl) _ rfl) :=
    ((H 0 0 0 0 (st ({ jobs := jobOn0 })) _ rfl).2.2.1 .other 0 .on _ rfl (by unfold Hw.sqServes; decide +kernel) met
    (.inl ⟨by decide, rfl⟩)).2 (.inl rfl) _ rfl

/-- RowsAndBankGroups: a bank group that was woken on its way to RETAIN. -/
theorem test_wit_bank5 (H : Obligations.RowsAndBankGroups) :
    type_of% ((H 63 27 0 0 (st { sq := [(63, { banks := [(27, { moving := some .retain, wake := true })] })] }) _ rfl).2.2.2 .retain
    _ rfl met met met (by intro h; cases h) _ rfl) :=
    (H 63 27 0 0 (st { sq := [(63, { banks := [(27, { moving := some .retain, wake := true })] })] }) _ rfl).2.2.2 .retain
    _ rfl met met met (by intro h; cases h) _ rfl

/-- SuppliesAndResets: another address. -/
theorem test_wit_mgt4 (H : Obligations.SuppliesAndResets) :
    type_of% ((((H 0 0 false (st { bring := { s0Done := true } }) _ rfl).2.2.2.2.2.2.2.1 met).2.2 0x59 3 false).2.2 true [] met) :=
    (((H 0 0 false (st { bring := { s0Done := true } }) _ rfl).2.2.2.2.2.2.2.1 met).2.2 0x59 3 false).2.2 true [] met

/-- BringUpStages: channel 4 trains at no frequency, and channel 5 at the second one. -/
theorem test_wit_stg6b (H : Obligations.BringUpStages) :
    type_of% ((H (st { bring := { stage := 6, last := 5, s0Done := true } })).2.2.2.2.2.2.1 met (((List.replicate 16 [300, 300,
    300]).set 4 [63, 63, 63]).set 5 [10, 64, 80]) 4 met) :=
    (H (st { bring := { stage := 6, last := 5, s0Done := true } })).2.2.2.2.2.2.1 met (((List.replicate 16 [300, 300,
    300]).set 4 [63, 63, 63]).set 5 [10, 64, 80]) 4 met

/-! ### Witnesses whose hypotheses name the free functions of Config

A digest or a signature is a free function, so these say: whenever the signatures verify, and, for a fixed key, its digest is the
one the module holds, the hypotheses of the statement are met. -/

theorem leBytes_length (n v : Nat) : (leBytes n v).length = n := by
  induction n generalizing v with
  | zero => rfl
  | succ n ih => simp [leBytes, ih]

theorem ofLe_leBytes (n v : Nat) (h : v < 256 ^ n) : ofLe (leBytes n v) = v := by
  induction n generalizing v with
  | zero => simp at h; simp [-List.reduceReplicate, leBytes, ofLe, h]
  | succ n ih =>
    have : v / 256 < 256 ^ n := Nat.div_lt_of_lt_mul (by rw [Nat.pow_succ] at h; omega)
    simp [leBytes, ofLe, ih _ this]; omega

theorem memReadN_take (m : List Host.Cell) (a k n : Nat) (h : k ≤ n) : memReadN m a k = (memReadN m a n).take k := by
  induction k generalizing a n with
  | zero => simp [memReadN]
  | succ k ih =>
    cases n with
    | zero => omega
    | succ n => simp [memReadN, ih (a + 1) n (by omega)]

/-- A firmware image of version 7 for every life-cycle state, with four bytes of program. -/
def fwBody : List Byte := [1, 2, 3, 4]
def fwRest : List Byte := List.replicate 4784 0
def fwTop : List Byte := [0x46, 0x57, 1, 0, 7, 0, 0, 0, 0, 31, 0, 0, 4, 0, 0, 0]
def fwImg : List Byte := (fwTop ++ (shaBytes fwBody ++ fwRest)) ++ fwBody

theorem shaBytes_length (b : List Byte) : (shaBytes b).length = 64 := leBytes_length ..

theorem fwImg_length : fwImg.length = 4868 := by
  simp [-List.reduceReplicate, fwImg, fwTop, fwRest, fwBody, shaBytes_length]

theorem fwImg_form : fwForm fwImg = true := by
  have a : (fwImg.drop 80).take 48 = List.replicate 48 0 := by
    have : fwImg = (fwTop ++ shaBytes fwBody) ++ (fwRest ++ fwBody) := by simp [-List.reduceReplicate, fwImg]
    rw [this, List.drop_left' (by simp [-List.reduceReplicate, fwTop, shaBytes_length]), List.take_append_of_le_length (by simp [-List.reduceReplicate, fwRest])]
    simp [fwRest]
  have b : (fwImg.drop 4755).take 109 = List.replicate 109 0 := by
    have : fwImg = (fwTop ++ shaBytes fwBody ++ List.replicate 4675 0) ++ (List.replicate 109 0 ++ fwBody) := by
      simp only [fwImg, fwRest, show (4784 : Nat) = 4675 + 109 from rfl, ← List.replicate_append_replicate, List.append_assoc]
    rw [this, List.drop_left' (by simp [-List.reduceReplicate, fwTop, shaBytes_length]), List.take_left' (by simp [-List.reduceReplicate])]
  unfold fwForm
  rw [fwImg_length, a, b]
  decide +kernel

theorem fwImg_check (v : ∀ k m c s, Config.mlDsaVerify k m c s = true) (h : Hw) (hs : h.fuses.svnCount = 0) (hl : h.fuses.lc < 5) :
    h.fwCheck fwImg = stOK := by
  have a : fwImg.drop fwHead = fwBody := by
    rw [fwImg, List.drop_left' (by simp [-List.reduceReplicate, fwTop, fwRest, shaBytes_length, fwHead])]
  have b : (fwImg.drop 16).take 64 = shaBytes fwBody := by
    have : fwImg = fwTop ++ (shaBytes fwBody ++ (fwRest ++ fwBody)) := by simp [-List.reduceReplicate, fwImg]
    rw [this, List.drop_left' (by simp [-List.reduceReplicate, fwTop]), List.take_left' (shaBytes_length _)]
  unfold Hw.fwCheck
  rw [fwImg_form, v, a, b, hs, show fwSvn fwImg = 0 by decide +kernel, show leAt fwImg 9 1 = 31 by decide +kernel]
  have : ∀ n, n < 5 → Nat.testBit 31 n = true := by decide
  simp [-List.reduceReplicate, this _ hl]

/-- FW_END of a boot image at S4. -/
def endHw : Hw :=
  { kzHw with bring := { stage := 4, last := 3, s0Done := true }, fw := { xfer := 1, mode := 0, length := 4868, received := 4868, bootImage := fwImg } }

theorem test_wit_fw_end (H : Obligations.KezilFirmware) (v : ∀ k m c s, Config.mlDsaVerify k m c s = true) :
    Completes (.fwEnd false false 5 []) 0x0803 false 5 (st endHw)
      { endHw.arrived false with fw := { (endHw.arrived false).fw with xfer := 0, bootOk := true } } (shaBytes fwImg) :=
  (((H false 5 (st endHw) _ rfl).1 (by unfold Hw.kzQuiet; decide +kernel) (by decide) met 0
    (.inr ⟨rfl, by decide +kernel⟩)).2.1 rfl rfl).2.1 rfl (fun x => absurd x (by decide)) fwImg rfl (fwImg_check v _ met met)

/-- FW_ACTIVATE of an image that is staged. -/
def actHw : Hw := { kzHw with banks := { mem := memWriteN [] 0x17F000000 fwImg }, fw := { xfer := 2 } }

theorem actHw_image : actHw.stagedImage = fwImg := by
  have r : ∀ k, k ≤ 4868 → actHw.rd stagingBase k = fwImg.take k := by
    intro k hk
    have := memReadN_memWriteN (m := []) (a := 0x17F000000) fwImg rfl
    rw [fwImg_length] at this
    show memReadN (memWriteN [] 0x17F000000 fwImg) 0x17F000000 k = _
    rw [memReadN_take _ _ k 4868 hk, this]
  have l : leAt (actHw.rd stagingBase fwHead) 12 4 = 4 := by
    rw [r _ (by decide)]
    have : (fwImg.take fwHead) = fwTop ++ (shaBytes fwBody ++ fwRest) := by
      rw [fwImg, List.take_left' (by simp [-List.reduceReplicate, fwTop, fwRest, shaBytes_length, fwHead])]
    rw [this]; decide +kernel
  unfold Hw.stagedImage
  simp only [l]
  rw [if_pos (by decide), r _ (by decide), show fwHead + 4 = fwImg.length from fwImg_length.symm, List.take_length]

theorem test_wit_fw_activate (H : Obligations.KezilFirmware) (v : ∀ k m c s, Config.mlDsaVerify k m c s = true) :
    ∃ t, exec (.fwActivate false false 5 []) (st actHw) = .next t ∧ t.hw.fw.actCore = some (3, 50000000) := by
  refine ⟨_, ((((H false 5 (st actHw) _ rfl).1 (by unfold Hw.kzQuiet; decide +kernel) (by decide) met 1
    (.inl ⟨rfl, by unfold Hw.mayAll; decide +kernel⟩)).2.2 rfl rfl met).2 met ?_), rfl⟩
  show actHw.fwCheck actHw.stagedImage = stOK
  rw [actHw_image]; exact fwImg_check v _ met met

/-- The first 32 bytes of an authorisation of the authority in PROVISIONED, without a customer key and without extra bytes. -/
def authTop (action target : Byte) : List Byte :=
  [0x41, 0x41, 1, action, target, 0, 0, 0, 0, 0, 0, 0, 0, 0, 0, 0, 0, 0, 0, 0, 0, 0, 0, 0, 1, 0, 0, 0, 0, 0, 0, 0]

/-- An authorisation to retire the module. -/
def retireAuth : List Byte := authTop 1 4 ++ List.replicate 7315 0

theorem test_wit_lc_transition (H : Obligations.KezilSecurity) (v : ∀ k m c s, Config.mlDsaVerify k m c s = true)
    (d : Config.sha3 (List.replicate 2592 0) = Config.authorityDigest) :
    ∃ t, exec (.lcTransition false false 5 (4 :: retireAuth)) (st (kzHw)) = .next t ∧ t.hw.bring.cause = 3 ∧ t.hw.kz.owner = none := by
  have len : retireAuth.length = 7347 := by simp [-List.reduceReplicate, retireAuth, authTop]
  have ok : (kzHw).authOk retireAuth 0 = true := by
    have k : (retireAuth.drop 128).take 2592 = List.replicate 2592 0 := by
      have : retireAuth = (authTop 1 4 ++ List.replicate 96 0) ++ (List.replicate 2592 0 ++ List.replicate 4627 0) := by
        simp only [retireAuth, show (7315 : Nat) = 96 + (2592 + 4627) from rfl, ← List.replicate_append_replicate, List.append_assoc]
      rw [this, List.drop_left' (by simp [-List.reduceReplicate, authTop]), List.take_left' (by simp [-List.reduceReplicate])]
    unfold Hw.authOk Hw.signerDigest
    simp only [show leAt retireAuth 6 2 = 0 by decide +kernel]
    rw [k, v, d]
    simp only [if_true, beq_self_eq_true, Bool.and_true]
    decide +kernel
  obtain ⟨t, h1, h2, h3, -⟩ := (H false 5 (4 :: retireAuth) (st (kzHw)) (by unfold Hw.kzQuiet; decide +kernel) (by decide) rfl).1
    4 retireAuth false met rfl met met (Nat.le_of_eq len.symm)
    (by rw [len, show leAt retireAuth 6 2 = 0 by decide +kernel]) met met met
    (by intro _; decide +kernel) (by rw [show (st (kzHw)).hw.lcSigner = 0 by decide +kernel]; exact ok) (by intro h; cases h)
  exact ⟨t, h1, h2, h3⟩

/-- A key of zeros, and an authorisation to enrol it. -/
def zeroKey : List Byte := List.replicate 2592 0
def enrolAuth : List Byte := authTop 2 0 ++ (leBytes 64 (Config.sha3 zeroKey).toNat ++ List.replicate 7251 0)

theorem test_wit_key_enrol (H : Obligations.KezilSecurity) (v : ∀ k m c s, Config.mlDsaVerify k m c s = true)
    (d : Config.sha3 (List.replicate 2592 0) = Config.authorityDigest) :
    Completes (.keyEnrol false false 5 (zeroKey ++ enrolAuth)) 0x0903 false 5 (st (kzHw))
      { (kzHw).arrived false with fuses := { (kzHw).fuses with key := mset (kzHw).fuses.key 0 (Config.sha3 zeroKey) } }
      (leBytes 64 (Config.sha3 zeroKey).toNat) := by
  have dr : (zeroKey ++ enrolAuth).drop 2592 = enrolAuth := List.drop_left' (by simp [-List.reduceReplicate, zeroKey])
  have tk : (zeroKey ++ enrolAuth).take 2592 = zeroKey := List.take_left' (by simp [-List.reduceReplicate, zeroKey])
  have len : enrolAuth.length = 7347 := by simp [-List.reduceReplicate, enrolAuth, authTop, leBytes_length]
  have z : (enrolAuth.drop 96).take 32 = List.replicate 32 0 := by
    have : enrolAuth = (authTop 2 0 ++ leBytes 64 (Config.sha3 zeroKey).toNat) ++ (List.replicate 32 0 ++ List.replicate 7219 0) := by
      simp only [enrolAuth, show (7251 : Nat) = 32 + 7219 from rfl, ← List.replicate_append_replicate, List.append_assoc]
    rw [this, List.drop_left' (by simp [-List.reduceReplicate, authTop, leBytes_length]), List.take_left' (by simp [-List.reduceReplicate])]
  have ok : (kzHw).authOk enrolAuth 0 = true := by
    have k : (enrolAuth.drop 128).take 2592 = List.replicate 2592 0 := by
      have : enrolAuth = (authTop 2 0 ++ leBytes 64 (Config.sha3 zeroKey).toNat ++ List.replicate 32 0)
          ++ (List.replicate 2592 0 ++ List.replicate 4627 0) := by
        simp only [enrolAuth, show (7251 : Nat) = 32 + (2592 + 4627) from rfl, ← List.replicate_append_replicate, List.append_assoc]
      rw [this, List.drop_left' (by simp [-List.reduceReplicate, authTop, leBytes_length]), List.take_left' (by simp [-List.reduceReplicate])]
    unfold Hw.authOk Hw.signerDigest
    simp only [show leAt enrolAuth 6 2 = 0 by decide +kernel]
    rw [k, v, d]
    simp only [if_true, beq_self_eq_true, Bool.and_true]
    decide +kernel
  have dg : leAt enrolAuth 32 64 = (Config.sha3 zeroKey).toNat := by
    unfold leAt
    rw [enrolAuth, List.drop_left' (by simp [-List.reduceReplicate, authTop]), List.take_left' (leBytes_length ..)]
    exact ofLe_leBytes _ _ (Nat.lt_of_lt_of_le (BitVec.isLt _) (Nat.le_of_eq (Nat.pow_mul 2 8 64)))
  refine (H false 5 (zeroKey ++ enrolAuth) (st (kzHw)) (by unfold Hw.kzQuiet; decide +kernel) (by decide) rfl).2.1
    enrolAuth 0 (Config.sha3 zeroKey) dr.symm (by rw [tk]) met (.inl met)
    (by rw [List.length_append, len]; simp [-List.reduceReplicate, zeroKey]) met met ?_ dg ?_
  · unfold authForm; rw [z]; decide +kernel
  · rw [if_pos met]; exact ok

/-- An image of the network key with an empty body, at the bottom of PSRAM. -/
def emptyEnv : List Byte := [0x45, 0x4E, 1, 0, 0, 0, 0, 0] ++ (shaBytes [] ++ List.replicate 7352 0)
def envHw : Hw := { kzHw with banks := { mem := memWriteN [] 0x100000000 emptyEnv } }

theorem emptyEnv_length : emptyEnv.length = 7424 := by simp [-List.reduceReplicate, emptyEnv, shaBytes_length]

theorem emptyEnv_form : envelopeOk 0x100000000 emptyEnv = true := by
  have z1 : (emptyEnv.drop 72).take 56 = List.replicate 56 0 := by
    have : emptyEnv = ([0x45, 0x4E, 1, 0, 0, 0, 0, 0] ++ shaBytes []) ++ (List.replicate 56 0 ++ List.replicate 7296 0) := by
      simp only [emptyEnv, show (7352 : Nat) = 56 + 7296 from rfl, ← List.replicate_append_replicate, List.append_assoc]
    rw [this, List.drop_left' (by simp [-List.reduceReplicate, shaBytes_length]), List.take_left' (by simp [-List.reduceReplicate])]
  have z2 : (emptyEnv.drop 7347).take 77 = List.replicate 77 0 := by
    have : emptyEnv = ([0x45, 0x4E, 1, 0, 0, 0, 0, 0] ++ shaBytes [] ++ List.replicate 7275 0) ++ List.replicate 77 0 := by
      simp only [emptyEnv, show (7352 : Nat) = 7275 + 77 from rfl, ← List.replicate_append_replicate, List.append_assoc]
    rw [this, List.drop_left' (by simp [-List.reduceReplicate, shaBytes_length])]; simp [-List.reduceReplicate]
  unfold envelopeOk; rw [z1, z2]; decide +kernel

theorem emptyEnv_key : (emptyEnv.drop 128).take 2592 = List.replicate 2592 0 := by
  have : emptyEnv = ([0x45, 0x4E, 1, 0, 0, 0, 0, 0] ++ shaBytes [] ++ List.replicate 56 0)
      ++ (List.replicate 2592 0 ++ List.replicate 4704 0) := by
    simp only [emptyEnv, show (7352 : Nat) = 56 + (2592 + 4704) from rfl, ← List.replicate_append_replicate, List.append_assoc]
  rw [this, List.drop_left' (by simp [-List.reduceReplicate, shaBytes_length]), List.take_left' (by simp [-List.reduceReplicate])]

theorem emptyEnv_digest : (emptyEnv.drop 8).take 64 = shaBytes [] := by
  rw [emptyEnv, List.drop_left' (by rfl), List.take_left' (shaBytes_length _)]

theorem emptyEnv_read (h : Hw) (m : h.banks.mem = memWriteN [] 0x100000000 emptyEnv) : h.rd 0x100000000 envLen = emptyEnv := by
  unfold Hw.rd
  rw [m, show envLen = emptyEnv.length from emptyEnv_length.symm]
  exact memReadN_memWriteN emptyEnv rfl

theorem emptyEnv_passes (v : ∀ k m c s, Config.mlDsaVerify k m c s = true)
    (d : Config.sha3 (List.replicate 2592 0) = Config.networkKeyDigest) (h : Hw) (r : h.rd 0x100000000 envLen = emptyEnv)
    (p : h.banks.poison = []) (t : h.banks.path = []) (a : h.psramAbsent 0x100000000 envLen = false) :
    h.envelope 0x100000000 (some 7424) (some 0) = (stOK, emptyEnv, []) := by
  have n : leAt emptyEnv 4 4 = 0 := by decide +kernel
  have k : leAt emptyEnv 3 1 = 0 := by decide +kernel
  have q : ∀ n, h.poisoned 0x100000000 n = false := by intro n; unfold Hw.poisoned Hw.hasPoison; rw [p, t]; rfl
  have i : inPsram 0x100000000 envLen = true := by decide +kernel
  unfold Hw.envelope
  rw [r, i, a, q]
  simp only [n, k, emptyEnv_form, emptyEnv_key, emptyEnv_digest, v, d, Nat.add_zero, a, q]
  simp [-List.reduceReplicate, Hw.keyDigest, Hw.rd, memReadN, envLen]

theorem test_wit_image_check (H : Obligations.KezilMemoryCommands) (v : ∀ k m c s, Config.mlDsaVerify k m c s = true)
    (d : Config.sha3 (List.replicate 2592 0) = Config.networkKeyDigest) :
    Completes (.imageCheck false false 5 (leBytes 8 0x100000000 ++ leBytes 4 7424 ++ leBytes 1 0)) 0x0501 false 5 (st envHw)
      (((psramPairs 0x100000000 7424).foldl (fun (h : Hw) k => h.wakeDom (domPsc k)) (envHw.arrived false)).touchPsram 0x100000000 7424)
      ((emptyEnv.drop 8).take 64) := by
  have m : ∀ m, (({ kzHw with banks := { mem := m } } : Hw).arrived false).banks.mem = m := fun m => rfl
  have c : ∀ m, (({ kzHw with banks := { mem := m } } : Hw).arrived false).banks.poison = [] := fun m => rfl
  have a : (envHw.arrived false).psramAbsent 0x100000000 envLen = false := by decide +kernel
  have e : ∀ m, (({ kzHw with banks := { mem := m } } : Hw).arrived false).banks.path = [] := fun m => rfl
  exact ((H false 5 (st envHw) (by unfold Hw.kzQuiet; decide +kernel) (by unfold Hw.mayAll; decide +kernel) (by decide) _ rfl).2.2
    0x100000000 7424 0 _ _ (by decide) (by decide) (by decide) rfl rfl).1 emptyEnv []
    (emptyEnv_passes v d (envHw.arrived false) (emptyEnv_read _ (m _)) (c _) (e _) a) met

/-- A square image of the network key whose body fills 16 bytes of square memory with zeros, under ROUTE_AROUND. -/
def loadTop : List Byte := [0x53, 0x49, 1, 1, 1, 0, 0, 0, 80] ++ List.replicate 51 0
def loadBody : List Byte := loadTop ++ leBytes 4 (crc32 loadTop) ++ leBytes 4 0x3000000 ++ leBytes 4 16 ++ [0, 0, 0, 0, 1, 0, 0, 0]
def loadHead : List Byte := [0x45, 0x4E, 1, 0, 80, 0, 0, 0]
def loadEnv : List Byte := loadHead ++ (shaBytes loadBody ++ List.replicate 7352 0)
def loadTask : Machine.Task := { desc := (descOf 5 0 1 [0, 0, 0, 0, 0, 0, 0, 0, 0, 0, 0, 0, 1]).set 4 1, state := .ready }
def loadIn (m : List Host.Cell) (q : Square) : Hw :=
  { banks := { mem := m }, seq := { tasks := [(1, loadTask)], sweeps := [7] }, sq := [(0, q)] }
def loadHw (q : Square) : Hw := loadIn (memWriteN [] 0x100000000 (loadEnv ++ loadBody)) q

theorem loadEnv_length : loadEnv.length = 7424 := by
  rw [loadEnv, List.length_append, List.length_append, shaBytes_length, List.length_replicate]; rfl

theorem loadHead_sha : (loadHead ++ shaBytes loadBody).length = 72 := by rw [List.length_append, shaBytes_length]; rfl

theorem loadEnv_split (a b : Nat) (h : 7352 = a + b) :
    loadEnv = (loadHead ++ shaBytes loadBody ++ List.replicate a 0) ++ List.replicate b 0 := by
  rw [loadEnv, h, ← List.replicate_append_replicate]; simp only [List.append_assoc]

theorem loadEnv_zeros (a n b : Nat) (h : 7352 = a + (n + b)) : (loadEnv.drop (72 + a)).take n = List.replicate n 0 := by
  rw [loadEnv_split a (n + b) h, List.drop_left' (by rw [List.length_append, loadHead_sha, List.length_replicate]),
    ← List.replicate_append_replicate, List.take_left' List.length_replicate]

theorem loadEnv_form : envelopeOk 0x100000000 loadEnv = true := by
  unfold envelopeOk
  rw [show (loadEnv.drop 72).take 56 = List.replicate 56 0 from loadEnv_zeros 0 56 7296 rfl,
    show (loadEnv.drop 7347).take 77 = List.replicate 77 0 from loadEnv_zeros 7275 77 0 rfl]
  decide +kernel

theorem loadEnv_key : (loadEnv.drop 128).take 2592 = List.replicate 2592 0 := loadEnv_zeros 56 2592 4704 rfl

theorem loadEnv_digest : (loadEnv.drop 8).take 64 = shaBytes loadBody := by
  rw [loadEnv, List.drop_left' (by rfl), List.take_left' (shaBytes_length _)]

theorem loadIn_rd (m : List Host.Cell) (q : Square) (a n : Nat) : (loadIn m q).rd a n = memReadN m a n := rfl

theorem loadHw_read (q : Square) : (loadHw q).rd 0x100000000 7504 = loadEnv ++ loadBody := by
  have h := memReadN_memWriteN (m := []) (a := 0x100000000) (loadEnv ++ loadBody) rfl
  rw [show (loadEnv ++ loadBody).length = 7504 by rw [List.length_append, loadEnv_length]; rfl] at h
  rw [loadHw, loadIn_rd]
  exact h

theorem loadHw_env (q : Square) : (loadHw q).rd 0x100000000 envLen = loadEnv := by
  have := loadHw_read q
  unfold Hw.rd at *
  rw [memReadN_take _ _ envLen 7504 (by decide), this, List.take_left' (show loadEnv.length = envLen from loadEnv_length)]

theorem memReadN_drop (m : List Host.Cell) (a k n : Nat) : memReadN m (a + k) n = (memReadN m a (k + n)).drop k := by
  induction k generalizing a with
  | zero => simp
  | succ k ih =>
    rw [show a + (k + 1) = (a + 1) + k by omega, ih (a + 1), show k + 1 + n = (k + n) + 1 by omega]
    rfl

theorem loadHw_body (q : Square) : (loadHw q).rd (0x100000000 + envLen) 80 = loadBody := by
  have := loadHw_read q
  unfold Hw.rd at *
  rw [memReadN_drop, show envLen + 80 = 7504 from rfl, this, List.drop_left' (show loadEnv.length = envLen from loadEnv_length)]

theorem load_passes (v : ∀ k m c s, Config.mlDsaVerify k m c s = true)
    (d : Config.sha3 (List.replicate 2592 0) = Config.networkKeyDigest) (h : Hw) (r1 : h.rd 0x100000000 envLen = loadEnv)
    (r2 : h.rd (0x100000000 + envLen) 80 = loadBody) (p : ∀ n, h.poisoned 0x100000000 n = false)
    (a : ∀ n, n = envLen ∨ n = envLen + 80 → h.psramAbsent 0x100000000 n = false) (m : (h.sqOf 0).slotFence = [])
    (l : lcAccepts h.fuses.lc 0 (h.fuses.keysUsed != 0) = true) :
    h.loadChecks 0 loadTask = (stOK, some ⟨BitVec.ofNat 512 (leAt loadEnv 8 64), loadBody, none⟩) := by
  have n : leAt loadEnv 4 4 = 80 := by decide +kernel
  have k : leAt loadEnv 3 1 = 0 := by decide +kernel
  have e : h.envelope 0x100000000 none none = (stOK, loadEnv, loadBody) := by
    unfold Hw.envelope
    rw [r1, show inPsram 0x100000000 envLen = true by decide +kernel]
    simp only [n, k, r2, loadEnv_form, loadEnv_key, loadEnv_digest, v, d, p, a _ (.inl rfl), a _ (.inr rfl)]
    simp [Hw.keyDigest]
  unfold Hw.loadChecks
  rw [show loadTask.param 8 5 = 0x100000000 by decide +kernel, e]
  simp only [m, k, l, show bodyPolicy loadBody = true by decide +kernel, show (mapFor true []).2 = true by decide +kernel, if_true,
    show bodyOk loadBody (mapFor true []).1 = true by decide +kernel,
    show (loadTask.param 13 1).testBit 0 = false by decide +kernel]
  simp [-List.reduceReplicate]

theorem loadIn_clean (m : List Host.Cell) (q : Square) (n : Nat) : (loadIn m q).poisoned 0x100000000 n = false := rfl
theorem loadIn_lc (m : List Host.Cell) (q : Square) : lcAccepts (loadIn m q).fuses.lc 0 ((loadIn m q).fuses.keysUsed != 0) = true := by
  show lcAccepts ({} : Fuses).lc 0 (({} : Fuses).keysUsed != 0) = true
  decide +kernel
theorem loadIn_absent (m : List Host.Cell) (q : Square) (n : Nat) (h : n = envLen ∨ n = envLen + 80) :
    (loadIn m q).psramAbsent 0x100000000 n = false := by
  rcases h with rfl | rfl <;> rfl
theorem loadIn_held (m : List Host.Cell) (q : Square) : (loadIn m q).psramHeld 0x100000000 7504 = false := rfl

theorem loadHw_passes (v : ∀ k m c s, Config.mlDsaVerify k m c s = true)
    (d : Config.sha3 (List.replicate 2592 0) = Config.networkKeyDigest) (q : Square) (f : q.slotFence = []) :
    (loadHw q).loadChecks 0 loadTask = (stOK, some ⟨BitVec.ofNat 512 (leAt loadEnv 8 64), loadBody, none⟩) :=
  load_passes v d _ (loadHw_env q) (loadHw_body q) (loadIn_clean _ q) (loadIn_absent _ q) f (loadIn_lc _ q)

theorem load_range (h : Hw) (r : h.rd 0x100000000 envLen = loadEnv) : h.envRange 0x100000000 none = 7504 := by
  have n : leAt loadEnv 4 4 = 80 := by decide +kernel
  unfold Hw.envRange
  rw [r]
  simp only [loadEnv_form, n]
  rfl

theorem load_held (h : Hw) (r : h.envRange 0x100000000 none = 7504) (p : h.psramHeld 0x100000000 7504 = false) :
    h.loadHeld loadTask = false := by
  unfold Hw.loadHeld Hw.envHeld Hw.loadReads
  rw [show loadTask.param 8 5 = 0x100000000 by decide +kernel, r, p, show (loadTask.param 13 1).testBit 0 = false by decide +kernel]
  simp [-List.reduceReplicate]

theorem load_domains (h : Hw) (r : h.envRange 0x100000000 none = 7504) (f : (h.sqOf 0).fused = false) :
    h.taskDomains loadTask = 0 :: (psramPairs 0x100000000 7504).map domPsc := by
  have n : h.needs loadTask = (psramPairs 0x100000000 7504).map domPsc := by
    unfold Hw.needs Hw.imageDomains
    rw [show loadTask.param 8 5 = 0x100000000 by decide +kernel, r]
    rw [if_neg (by decide +kernel), if_pos (by decide +kernel)]
    decide +kernel
  unfold Hw.taskDomains
  rw [n, show loadTask.sqs = [0] by decide +kernel]
  simp [f]

theorem loadHw_domains (q : Square) (f : q.fused = false) : (loadHw q).taskDomains loadTask = 0 :: (psramPairs 0x100000000 7504).map domPsc :=
  load_domains _ (load_range _ (loadHw_env q)) f

theorem loadHw_held (q : Square) : (loadHw q).loadHeld loadTask = false :=
  load_held _ (load_range _ (loadHw_env q)) (loadIn_held _ q)

/-- A loaded square with a packet to inject. -/
def busySq : Square := { loaded := true, rt := { inject := [aResp] } }

theorem test_wit_load_drains (H : Obligations.TasksStartAndEnd) (v : ∀ k m c s, Config.mlDsaVerify k m c s = true)
    (d : Config.sha3 (List.replicate 2592 0) = Config.networkKeyDigest) :
    ∃ t, exec .taskStart (st (loadHw busySq)) = .next t ∧ (t.hw.rtOf 0).state = .draining := by
  obtain ⟨u, h1, h2, -⟩ := ((((H (st (loadHw busySq))).1 met).2.2.2 1 loadTask
    met met met (by rw [show (st (loadHw busySq)).hw.taskDomains loadTask = _ from loadHw_domains _ rfl]; decide +kernel) met met met met met
    _ rfl _ rfl).2.2.1 0 [] met met met (loadHw_held _)).2.1
    (congrArg Prod.fst (loadHw_passes v d _ rfl)) met met met
  exact ⟨u, h1, h2⟩

theorem test_wit_load_now (H : Obligations.TasksStartAndEnd) (v : ∀ k m c s, Config.mlDsaVerify k m c s = true)
    (d : Config.sha3 (List.replicate 2592 0) = Config.networkKeyDigest) :
    ∃ t, exec .taskStart (st (loadHw {})) = .next t := by
  obtain ⟨u, h, -⟩ := ((((H (st (loadHw {}))).1 met).2.2.2 1 loadTask
    met met met (by rw [show (st (loadHw {})).hw.taskDomains loadTask = _ from loadHw_domains _ rfl]; decide +kernel) met met met met met
    _ rfl _ rfl).2.2.1 0 [] met met met (loadHw_held _)).2.2 _ _
    (loadHw_passes v d _ rfl) (.inr met) rfl
  exact ⟨u, h⟩

/-- Fuses whose CRC and whose digest of the public key are right. -/
def goodFuses : Fuses :=
  let f : Fuses := { pkDigest := Config.sha3 (Config.mlDsaPublicKey 0) }
  { f with crc := f.crcOf }

theorem crcOf_crc (f : Fuses) (c : Nat) : ({ f with crc := c } : Fuses).complete.crcOf = f.crcOf := by
  have w : ∀ o, o < 0xE40 → ({ f with crc := c } : Fuses).complete.word o = f.word o := by
    intro o h
    unfold Fuses.word Fuses.complete
    simp only [show ¬ o = 0xE40 by omega, show ¬(0x1000 ≤ o ∧ o < 0x1008) by omega, show ¬ o = 0x1008 by omega,
      show ¬(0x1010 ≤ o ∧ o < 0x1018) by omega, show ¬(0x1040 ≤ o ∧ o < 0x1140) by omega, if_false]
  have l : ∀ l : List Nat, (∀ i, i ∈ l → i < 912) →
      (l.flatMap fun i => leBytes 4 (({ f with crc := c } : Fuses).complete.word (4 * i))) = l.flatMap fun i => leBytes 4 (f.word (4 * i)) := by
    intro l
    induction l with
    | nil => intro _; rfl
    | cons x r ih =>
      intro h
      simp only [List.flatMap_cons]
      rw [ih (fun i hi => h i (List.mem_cons_of_mem _ hi)), w (4 * x) (by have := h x (List.mem_cons_self ..); omega)]
  unfold Fuses.crcOf
  rw [l _ (fun i h => List.mem_range.mp h)]

theorem test_wit_stage_s1 (H : Obligations.BringUpStages) :
    ∃ t, exec .stageS1 (st { bring := { stage := 1, s0Done := true }, fuses := goodFuses }) = .next t ∧ t.hw.bring.stage = 2 := by
  obtain ⟨t, h1, -, h2, -⟩ := ((H (st { bring := { stage := 1, s0Done := true }, fuses := goodFuses })).1 met
    goodFuses.complete rfl).1 (crcOf_crc { pkDigest := Config.sha3 (Config.mlDsaPublicKey 0) } _) met rfl
  exact ⟨t, h1, h2⟩

/-! ### The worked examples of the spec -/

/-- 00, worked example: m3/e4, core state of core 7 and square memory. -/
theorem test_addresses : winBase 28 = 0x70000000 ∧ winBase 28 + 0x2000000 + 7 * 0x80000 = 0x72380000 ∧ sqMem 28 = 0x73000000 := by
  decide

/-- 10/R346: the CRC-16 of "123456789". -/
theorem test_crc16 : crc16 [0x31, 0x32, 0x33, 0x34, 0x35, 0x36, 0x37, 0x38, 0x39] = 0x29B1 := by decide +kernel

/-- 02/R81: the CRC-32 of one zero byte, from hand evaluation of the stated polynomial, initial value and final
exclusive-or. -/
theorem test_crc32 : crc32 [0] = 0xD202EF8D := by decide +kernel

/-- 02, worked example: the decay over n = 11 and the rescale of −3,201. -/
theorem test_decay : decay (-1000000) (fun k => [62259, 59146, 53379, 43477].getD k 0) 11 = -568782 := by decide +kernel

theorem test_rescale :
    rescale (List.replicate 0x1030 0 ++ leBytes 4 (12 * 2 ^ 16 + 40000)) 12 (-3201) = -31260 := by decide +kernel

/-- 02, Table 2-3: tempo 101 done at 5,230 µs is 130 µs late, tempo 105 at 5,310 µs 10 µs. -/
theorem test_lateness : ({ active := true } : Job).lateAt 101 5230000 = 130000 ∧ ({ active := true } : Job).lateAt 105 5310000 = 10000
    ∧ ({ active := true } : Job).lateAt 106 5330000 = 0 := by decide +kernel

/-- 03, Table 3-11: the words of the example program, and what they decode to. -/
theorem test_words :
    uopDecode 0x04016000 = some ⟨.add, 0, 0, 0, 11, 0⟩ ∧ uopDecode 0x50010000 = some ⟨.thr, 0, 0, 0, 8, 0⟩
    ∧ uopDecode 0x09810000 = some ⟨.sub, 1, 4, 0, 8, 0⟩ ∧ uopDecode 0x1188000A = some ⟨.shr, 1, 4, 4, 0, 10⟩
    ∧ uopDecode 0x81080001 = some ⟨.fire, 1, 0, 4, 0, 1⟩ := by decide +kernel

/-- 03, Tables 3-11 and 3-12: the table image of model 2 and channel 5, and the neuron's record in tempo 70,000. -/
def exImage : List Byte :=
  List.replicate 0x100 0 ++ leBytes 4 0x709 ++ List.replicate 4 0 ++ leBytes 4 0x61A80 ++ leBytes 4 0 ++ leBytes 4 0xFFF0BDC0
    ++ leBytes 4 0x5DC ++ List.replicate 16 0 ++ leBytes 2 58982 ++ List.replicate (0x900 - 0x12A) 0
    ++ ([0x04016000, 0x1C014000, 0x50010000, 0x09810000, 0x1188000A, 0x81080001, 0x85010013, 0xC1000040, 0xFC000000].flatMap (leBytes 4))
    ++ List.replicate (0x1014 - 0x924) 0 ++ leBytes 4 0xAC000

def exRecord : List Byte :=
  leBytes 1 5 ++ leBytes 2 4463 ++ leBytes 1 20 ++ leBytes 1 0x20 ++ leBytes 3 395000 ++ List.replicate 3 0 ++ leBytes 3 9000
    ++ List.replicate 18 0

theorem test_neuron : (updateSingle ⟨exImage, none⟩ 70000 exRecord).2 = some 255
    ∧ leAt (updateSingle ⟨exImage, none⟩ 70000 exRecord).1 0 8 = 0x05EF852354117005 := by decide +kernel

/-- 03, Table 3-12: in tempo 70,001 the neuron is refractory. -/
theorem test_neuron_refractory :
    let r := leBytes 8 0x05EF852354117005 ++ List.replicate 6 0 ++ leBytes 3 1200 ++ List.replicate 15 0
    (updateSingle ⟨exImage, none⟩ 70001 r).2 = none ∧ recMembrane (updateSingle ⟨exImage, none⟩ 70001 r).1 = 409194
    ∧ recRefr (updateSingle ⟨exImage, none⟩ 70001 r).1 = 2 ∧ recLast (updateSingle ⟨exImage, none⟩ 70001 r).1 = 4465 := by decide +kernel

/-- 04, Table 4-13: the fields of header 0. -/
theorem test_segment_header : let h := 0x1200048004000505
    hdrCore h = 5 ∧ hdrCount h = 40 ∧ hdrSptr h = 0x200 ∧ hdrFmt h = 0 ∧ hdrTag h = 9 ∧ hdrEpoch h = 0 ∧ hdrBlk h = 0x12000 := by
  decide +kernel

/-- 04, Table 4-14: an entry, and contributions. -/
theorem test_synapse_entry : entryFields false 0xBA01F400 = (-70, 0, 1000) ∧ entryFields false 0x7FFD4C00 = (127, 7, 15000)
    ∧ contribution (-70) 3 128 = -420 ∧ contribution 100 3 125 = 75 ∧ contribution (-3) 3 125 = -3 ∧ contribution (-3) 0 125 = -1 := by
  decide +kernel

/-- 05, Table 5-8: decays, the draws of tempos 10,003 and 10,007, and the two roundings. -/
theorem test_plastic_decay : decayS8 20 (fun k => [57344, 50176].getD k 0) 2 = 15 ∧ decayU8 80 (fun k => [49152, 36864].getD k 0) 2 = 45
    ∧ decayU8 150 (fun k => [58982, 53084].getD k 0) 3 = 108 := by decide +kernel

theorem test_draws : rnd 0x12345678 1 256 4 = 16435 ∧ rnd 0x81034564 2 256 4 = 2576
    ∧ lfsrStep (lfsrStep (lfsrStep (lfsrStep 0x12345678))) = 0x81034564 := by decide +kernel

theorem test_rounding : sround (1050 * 2 ^ 14) 18 16435 = 66
    ∧ newWeight 100 (F32.ofBits 0x3F000000) (F32.ofBits 0x3F840000) 2576 = (101, false) := by decide +kernel

/-- 06, worked example: the header of the event packets, of the close packet and of the unicast form, and an event word. -/
theorem test_packet_header : mkHdr 0 1 1 0 0 27 0x14123 0 3 = 0x06028246D830 ∧ mkHdr 0 1 1 1 0 27 0x14123 0 3 = 0x06028246D870
    ∧ ((mkPacket 0x06028246D830 0).toUnicast 17).hdr = 0x06000022D810 ∧ evWord (4100, 3) = 0x031004 := by decide +kernel

/-- 12, worked example: page 1,000 of the ring, and its channel. -/
theorem test_journal_page : ({} : Hw).journalBase + 1000 * 1024 = 0x16F0FA000 ∧ fld 0x6F0FA000 13 10 = 8 := by decide +kernel

/-- 13, worked example: the S1 report of a module with eight squares fused off and one slot fenced. -/
theorem test_stage_report : stageReport 1 stOK 1 1850 0x0000660000660000
    = [0x01, 0x00, 0x01, 0x00, 0x3A, 0x07, 0x00, 0x00, 0x00, 0x00, 0x66, 0x00, 0x00, 0x66, 0x00, 0x00] := by decide +kernel

/-- 14/R488, worked example: the neuron of an event. -/
theorem test_tile : tileNeuron (128 + 64 * 2 ^ 11 + 63 * 2 ^ 22 + 127 * 2 ^ 29) 130 70 true = 773 := by decide +kernel

/-- 11, Table 11-2 at 260 ns: ACK of 224 while 179 is active and 161 is pending. -/
def nestIrc : Irc :=
  { src := [(161, { pri := 7, en := true, pend := true }), (179, { pri := 6, en := true, pend := true, act := true }),
      (224, { pri := 2, en := true, pend := true })], accepts := [(0, [(179, 6)])] }

theorem test_irc_nesting : ∃ t, exec (.ircAck (.core 0) 0) (st { irc := nestIrc }) = .next t ∧ t.hw.bus.value = 224 + 2 * 2 ^ 10
    ∧ t.hw.irc.stack 0 = [(224, 2), (179, 6)] := ⟨_, rfl, by decide +kernel⟩

/-- 11, Table 11-5 at 1,400: the low-word read of TC5. -/
theorem test_tc_capture : ∃ t, exec (.tcCapRead (.core 0) 5 false) (st { tc := [(5, { pair := some (1000, 1250), unread := true })] }) = .next t
    ∧ t.hw.bus.value = 1000 ∧ (t.hw.tcOf 5).infoNew = true ∧ (t.hw.tcOf 5).infoOverrun = false ∧ (t.hw.tcOf 5).unread = false :=
  ⟨_, rfl, by decide +kernel⟩

/-! ### Well-formed commands: one ill-formed term for each check -/

theorem test_wf_address : (Instr.registerWrite .other 2 0 false).wellFormed = false ∧ (Instr.registerWrite .other 4 0 true).wellFormed = false
    ∧ (Instr.registerWrite .other 4 (2 ^ 32) false).wellFormed = false ∧ (Instr.reg64LowRead (.core 0) 4).wellFormed = false
    ∧ (Instr.reg64HighRead (.core 0) 8).wellFormed = false ∧ (Instr.reg64LowWrite (.core 0) 4 0).wellFormed = false
    ∧ (Instr.reg64HighWrite (.core 0) 8 0).wellFormed = false := by decide

theorem test_wf_halves : (Instr.reg64LowRead .other 8).wellFormed = false ∧ (Instr.reg64HighRead .other 12).wellFormed = false
    ∧ (Instr.reg64LowWrite .other 8 0).wellFormed = false ∧ (Instr.reg64HighWrite .other 12 0).wellFormed = false := by decide

theorem test_wf_slots : (Instr.taskEnd 0 [(64, 0)]).wellFormed = false ∧ (Instr.taskEnd 0 [(0, 19)]).wellFormed = false
    ∧ (Instr.stageS5 [(0, 19)]).wellFormed = false ∧ (Instr.stageS2 [64] none).wellFormed = false := by decide

theorem test_wf_samples : (Instr.windowStart [25]).wellFormed = false ∧ (Instr.powerSample 0 [(64, 1)] 0).wellFormed = false
    ∧ (Instr.psramDriftCheck [(16, 1)]).wellFormed = false ∧ (Instr.psramRetrainDone 0 257).wellFormed = false := by decide

theorem test_wf_rows : (Instr.rowRepair 0 0 0 0 [8] true none).wellFormed = false ∧ (Instr.rowRepair 64 0 0 0 [15] true none).wellFormed = true
    ∧ (Instr.stageS3 [⟨67, 0, 0, [], 0⟩] none).wellFormed = false ∧ (Instr.stageS3 [⟨0, 0, 0, [2048], 0⟩] none).wellFormed = false
    ∧ (Instr.stageS3 [] (some (16, 0))).wellFormed = false := by decide

theorem test_wf_training : (Instr.stageS6 [[1, 2, 3]]).wellFormed = false ∧ (Instr.stageS6 (List.replicate 16 [1, 2])).wellFormed = false
    ∧ (Instr.stageS7 [[0]]).wellFormed = false ∧ (Instr.stageS7 (List.replicate 6 [5])).wellFormed = false := by decide

theorem test_wf_volts : (Instr.supplyStart 65536 0 0 0).wellFormed = false ∧ (Instr.supplySwitch 0 65536).wellFormed = false
    ∧ (Instr.supplyOvervoltage false 65536).wellFormed = false ∧ (Instr.supplyReconnect false 65536).wellFormed = false
    ∧ (Instr.lossOfBothSupplies 65536 0).wellFormed = false ∧ (Instr.supplyRangeChange 0 65536).wellFormed = false := by decide

theorem test_wf_bytes : (Instr.inputRecord false []).wellFormed = false ∧ (Instr.malformedCommand false []).wellFormed = false
    ∧ (Instr.mgtTransfer 88 true 1 [0] true).wellFormed = false ∧ (Instr.mgtTransfer 88 false 1 [0] true).wellFormed = false
    ∧ (Instr.tbSetWrite .other 1 false).wellFormed = false := by decide

theorem test_wf_plen : plenOk [] = true ∧ ∀ ps : List Byte, ps.length = 1048593 → (Instr.echo false false 0 ps).wellFormed = false := by
  refine ⟨by decide, fun ps h => ?_⟩
  simp [Instr.wellFormed, plenOk, h]

theorem test_wf_csi : ∀ b : List Byte, b.length = 65536 → (Instr.csiPacket 0 0 false false false (.raw8 b)).wellFormed = false
    ∧ (Instr.csiPacket 0 0 false false false (.vendor b)).wellFormed = false := by
  intro b h; simp [Instr.wellFormed, bodyFits, h]

/-- No row of the table gives bits, so no word spells a command. -/
theorem test_no_words : decodeTableWord 32 5 = none ∧ State.reset.withFetchWord 32 5 = State.reset := ⟨rfl, rfl⟩

end Sys2Proof.Tests
end

section
/-! PROOFS. Chapter 00: byte memory, 64-bit registers in two halves, and register writes (00/R10, R13, R16). -/

namespace Sys2Proof.Machine

/-! ### Numbers as little-endian bytes, and bit fields (00/R10). -/

@[simp] theorem length_leBytes (n v : Nat) : (leBytes n v).length = n := by
  induction n generalizing v with
  | zero => rfl
  | succ n ih => simp only [leBytes, List.length_cons, ih]

/-- `n` little-endian bytes keep the low `n` bytes of a number. -/
theorem ofLe_leBytes_mod (n v : Nat) : ofLe (leBytes n v) = v % 256 ^ n := by
  induction n generalizing v with
  | zero => simp only [leBytes, ofLe, Nat.pow_zero, Nat.mod_one]
  | succ n ih => rw [leBytes, ofLe, ih, BitVec.toNat_ofNat, Nat.pow_succ' (n := n), Nat.mod_mul (a := 256)]

theorem fld_lt (v hi lo : Nat) : fld v hi lo < 2 ^ (hi + 1 - lo) := Nat.mod_lt _ (Nat.two_pow_pos _)

/-- A field that lies in the low `n` bits is read from them alone. -/
theorem fld_mod_two_pow {n hi : Nat} (v lo : Nat) (h : hi < n) : fld (v % 2 ^ n) hi lo = fld v hi lo := by
  refine Nat.eq_of_testBit_eq fun i => ?_
  simp only [fld, Nat.testBit_mod_two_pow, Nat.testBit_shiftRight]
  by_cases hi' : i < hi + 1 - lo
  · have : lo + i < n := by omega
    simp only [this, decide_true, Bool.true_and]
  · simp only [hi', decide_false, Bool.false_and]

/-- Settles O6: the laws of a write of bytes, and the number that its bytes spell. -/
theorem memoryReadsBack : Obligations.MemoryReadsBack := by
  unfold Obligations.MemoryReadsBack
  intro m a bs hm
  refine ⟨memReadN_memWriteN bs hm, fun x hx => memRead_memWriteN_out bs hx hm, fun n v => ?_⟩
  have hback := memReadN_memWriteN (a := a) (leBytes n v) hm
  rw [length_leBytes] at hback
  rw [hback, ofLe_leBytes_mod]

/-! ### 64-bit registers lie at multiples of 8, so no high word is the low word of another (00/R16). -/

theorem Hw.sqReg64_misaligned (hw : Hw) (s : Nat) {off : Nat} (h : off % 8 ≠ 0) : hw.sqReg64 s off = none := by
  unfold sqReg64
  rw [if_neg (by omega), if_neg (by omega), if_neg (by omega), if_neg (by omega)]

theorem Hw.tcReg64_misaligned (hw : Hw) {off : Nat} (h : off % 8 ≠ 0) : hw.tcReg64 off = none := by
  unfold tcReg64
  rw [if_neg (show ¬off % 0x40 = 0x18 by omega), if_neg (show ¬off = 0x800 by omega), if_neg (show ¬off = 0x810 by omega),
    if_neg (show ¬off = 0x820 by omega), ite_self]

theorem Hw.seqReg64_misaligned (hw : Hw) {off : Nat} (h : off % 8 ≠ 0) : hw.seqReg64 off = none := by
  unfold seqReg64
  rw [if_neg (by omega), if_neg (by omega), if_neg (by omega), if_neg (by omega)]

theorem Hw.budReg64_misaligned (hw : Hw) {off : Nat} (h : off % 8 ≠ 0) : hw.budReg64 off = none := if_neg (by omega)

theorem Hw.dmaReg64_misaligned (hw : Hw) {off : Nat} (h : off % 8 ≠ 0) : hw.dmaReg64 off = none := by
  unfold dmaReg64
  rw [if_neg (by omega), if_neg (by omega)]

theorem Hw.rtReg64_misaligned (hw : Hw) {off : Nat} (h : off % 8 ≠ 0) : hw.rtReg64 off = none := by
  unfold rtReg64
  rw [if_neg (by omega), if_neg (by omega)]

theorem Hw.pscReg64_misaligned (hw : Hw) {off : Nat} (h : off % 8 ≠ 0) : hw.pscReg64 off = none := if_neg (by omega)

theorem Hw.csiReg64_misaligned (hw : Hw) {off : Nat} (h : off % 8 ≠ 0) : hw.csiReg64 off = none := by
  unfold csiReg64
  dsimp only
  rw [if_neg (show ¬off % 0x400 = 0x18 by omega),
    if_neg (show ¬(0x100 ≤ off % 0x400 ∧ off % 0x400 < 0x300 ∧ off % 0x400 % 8 = 0) by omega), ite_self]

theorem Hw.fltReg64_misaligned (hw : Hw) {off : Nat} (h : off % 8 ≠ 0) : hw.fltReg64 off = none := by
  unfold fltReg64
  rw [if_neg (by omega), if_neg (by omega), if_neg (by omega)]

/-- A window starts at a multiple of 8. -/
theorem regPlace_sq_mod8 {a s off : Nat} (h : regPlace a = .sq s off) : off % 8 = a % 8 := by
  unfold regPlace at h
  split at h
  · split at h
    · injection h with _ hoff
      omega
    · cases h
  · split at h <;> cases h

/-- A global block starts at a multiple of 8. -/
theorem regPlace_block_mod8 {a n off : Nat} (h : regPlace a = .block n off) : off % 8 = a % 8 := by
  unfold regPlace at h
  split at h
  · split at h <;> cases h
  · split at h
    · injection h with _ hoff
      omega
    · cases h

theorem Hw.reg64_misaligned (hw : Hw) {a : Nat} (h : a % 8 ≠ 0) : hw.reg64 a = none := by
  unfold reg64
  split
  next s off hp => exact hw.sqReg64_misaligned s (regPlace_sq_mod8 hp ▸ h)
  next n off hp =>
    have ho : off % 8 ≠ 0 := regPlace_block_mod8 hp ▸ h
    split
    · exact hw.tcReg64_misaligned ho
    · exact hw.seqReg64_misaligned ho
    · exact hw.budReg64_misaligned ho
    · exact if_neg (by omega)
    · exact hw.dmaReg64_misaligned ho
    · exact hw.rtReg64_misaligned ho
    · exact hw.pscReg64_misaligned ho
    · exact hw.csiReg64_misaligned ho
    · exact hw.fltReg64_misaligned ho
    · rfl
  next => rfl

theorem Hw.reg64_aligned {hw : Hw} {a v : Nat} (h : hw.reg64 a = some v) : a % 8 = 0 := by
  by_cases h8 : a % 8 = 0
  · exact h8
  · rw [hw.reg64_misaligned h8] at h
    cases h

/-! ### Served 32-bit accesses to the two halves. -/

section
variable {hw : Hw} {ini : Initiator} {a v : Nat}

/-- An initiator that 00/R16 tells apart makes the 32-bit access that it asks for. -/
theorem Hw.doRead_narrow (hini : only64 ini = false) (hg : hw.regGate a false = .serve) :
    hw.doRead ini a = (hw.busRead4 ini a).1.answer (hw.busRead4 ini a).2.1 (hw.busRead4 ini a).2.2 := by
  simp only [doRead, hg, serveRead, hini, Bool.false_and, Bool.or_self, Bool.false_eq_true, if_false]

theorem Hw.doWrite_narrow (x : Nat) (hini : only64 ini = false) (hg : hw.regGate a true = .serve) :
    hw.doWrite ini a x = (hw.busWrite4 ini a x).1.answer 0 (hw.busWrite4 ini a x).2 := by
  simp only [doWrite, hg, serveWrite, hini, Bool.false_and, Bool.or_self, Bool.false_eq_true, if_false]

theorem Hw.busRead4_low (ha : hw.absentReg a = false) (hr : hw.reg64 a = some v) :
    hw.busRead4 ini a = hw.read64Low ini a v := by
  simp only [busRead4, ha, hr, Bool.false_eq_true, if_false]

theorem Hw.busWrite4_low (x : Nat) (ha : hw.absentReg a = false) (hr : hw.reg64 a = some v) :
    hw.busWrite4 ini a x = (hw.write64Low ini a x, stOK) := by
  simp only [busWrite4, ha, hr, Bool.false_eq_true, if_false]

theorem Hw.busRead4_high (ha : hw.absentReg (a + 4) = false) (hr : hw.reg64 a = some v) :
    hw.busRead4 ini (a + 4) = hw.read64High ini a v := by
  have hmod : (a + 4) % 8 = 4 := by have := reg64_aligned hr; omega
  have hnone : hw.reg64 (a + 4) = none := hw.reg64_misaligned (by omega)
  simp only [busRead4, ha, hnone, hmod, Nat.add_sub_cancel, hr, Bool.false_eq_true, if_false, if_true]

theorem Hw.busWrite4_high (x : Nat) (ha : hw.absentReg (a + 4) = false) (hr : hw.reg64 a = some v) :
    hw.busWrite4 ini (a + 4) x = hw.write64High ini a v x := by
  have hmod : (a + 4) % 8 = 4 := by have := reg64_aligned hr; omega
  have hnone : hw.reg64 (a + 4) = none := hw.reg64_misaligned (by omega)
  simp only [busWrite4, ha, hnone, hmod, Nat.add_sub_cancel, hr, Bool.false_eq_true, if_false, if_true]

end

theorem Hw.tcLowRead_half (hw : Hw) (off : Nat) : (hw.tcLowRead off).half = hw.half := by
  unfold tcLowRead
  split
  · split <;> rfl
  · split <;> rfl

/-- Captures that a low-word read takes leave the half-done accesses as they are. -/
@[simp] theorem Hw.lowRead_half (hw : Hw) (a : Nat) : (hw.lowRead a).half = hw.half := by
  unfold lowRead
  split
  · exact hw.tcLowRead_half _
  · rfl

@[simp] theorem Hw.lowRead_halfOf (hw : Hw) (ini : Initiator) (a b : Nat) : (hw.lowRead a).halfOf ini b = hw.halfOf ini b := by
  simp only [halfOf, lowRead_half]

theorem Hw.read64High_latched {hw : Hw} {ini : Initiator} {a x : Nat} (v : Nat) (h : (hw.halfOf ini a).latch = some x) :
    hw.read64High ini a v = (hw.setHalf ini a { hw.halfOf ini a with latch := none }, x, stOK) := by
  simp only [read64High, h]

theorem Hw.read64High_unlatched {hw : Hw} {ini : Initiator} {a : Nat} (v : Nat) (h : (hw.halfOf ini a).latch = none) :
    hw.read64High ini a v = (hw, v / 2 ^ 32, stOK) := by
  simp only [read64High, h]

/-! ### The commands of half accesses, as accesses to the bus. -/

theorem exec_reg64LowRead (ini : Initiator) (a : Addr) (s : State) :
    exec (.reg64LowRead ini a) s = .next (s.withHw (s.hw.doRead ini a.toNat)) := rfl

theorem exec_reg64HighRead (ini : Initiator) (a : Addr) (s : State) :
    exec (.reg64HighRead ini a) s = .next (s.withHw (s.hw.doRead ini a.toNat)) := rfl

theorem exec_reg64LowWrite (ini : Initiator) (a : Addr) (w : Word) (s : State) :
    exec (.reg64LowWrite ini a w) s = .next (s.withHw (s.hw.doWrite ini a.toNat w.toNat)) := rfl

theorem exec_reg64HighWrite (ini : Initiator) (a : Addr) (w : Word) (s : State) :
    exec (.reg64HighWrite ini a w) s = .next (s.withHw (s.hw.doWrite ini a.toNat w.toNat)) := rfl

theorem exec_registerWrite (ini : Initiator) (a : Addr) (v : DWord) (wide : Bool) (s : State) :
    exec (.registerWrite ini a v wide) s = .next (s.withHw (s.hw.doWrite ini a.toNat v.toNat wide)) := rfl

/-- Settles O8: a served low-word read latches the high word, and a served high-word read takes the latch, if there is one. -/
theorem halfReads : Obligations.HalfReads := by
  unfold Obligations.HalfReads
  intro ini a hi v s hini hreg habs hhi habsHi
  simp only [exec_reg64LowRead, exec_reg64HighRead]
  rw [hhi] at habsHi ⊢
  refine ⟨fun hg => ?low, fun hg x hx => ?latched, fun hg hx => ?unlatched⟩
  case low => rw [Hw.doRead_narrow hini hg, Hw.busRead4_low habs hreg]; simp only [Hw.read64Low, Hw.lowRead_halfOf]
  case latched => rw [Hw.doRead_narrow hini hg, Hw.busRead4_high habsHi hreg, Hw.read64High_latched v hx]
  case unlatched => rw [Hw.doRead_narrow hini hg, Hw.busRead4_high habsHi hreg, Hw.read64High_unlatched v hx]

/-- Settles O9: a served low-word write is held, and a served high-word write is one write of the whole register. -/
theorem halfWrites : Obligations.HalfWrites := by
  unfold Obligations.HalfWrites
  intro ini a hi v w s hini hreg habs hhi habsHi
  simp only [exec_reg64LowWrite, exec_reg64HighWrite]
  rw [hhi] at habsHi ⊢
  refine ⟨fun hg => ?low, fun hg lo hlo => ⟨_, _, (Prod.eta _).symm, ?high⟩⟩
  case low => rw [Hw.doWrite_narrow _ hini hg, Hw.busWrite4_low _ habs hreg, Hw.write64Low, word_mod]
  case high =>
    rw [Hw.doWrite_narrow _ hini hg, Hw.busWrite4_high _ habsHi hreg, hlo]
    simp only [Hw.write64High, word_mod]

/-! ### Whole register writes (00/R13, 01/R37, 06/T6-17, 07/T7-25, 12/T12-15). -/

/-- The address of a register of a global block fits the 40 bits of an address. -/
theorem blockAddr_toNat {n off : Nat} (hn : n < 16) (ho : off < 0x10000) :
    (BitVec.ofNat 40 (blockBase n + off)).toNat = blockBase n + off := by
  rw [BitVec.toNat_ofNat, Nat.mod_eq_of_lt]
  unfold blockBase
  omega

/-! Of the three registers only DMA_TMO needs a power domain ON (08/T8-8). -/

theorem blockDomain_flipAt : blockDomain 7 8 = none := rfl

theorem blockDomain_pscRtcfg : blockDomain 8 0x400 = none := rfl

theorem blockDomain_dmaTmo : blockDomain 6 0x400 = some domHub := rfl

/-- A served 32-bit write of a register of a global block that is no half of a 64-bit one. -/
theorem Hw.doWrite_block {hw : Hw} (ini : Initiator) {n off : Nat} (v : Nat) (hn : n < 16) (ho : off < 0x10000) (h8 : off % 8 = 0)
    (hd : ∀ d, blockDomain n off = some d → hw.isOn d = true) (hr : hw.reg64 (blockBase n + off) = none) :
    hw.doWrite ini (blockBase n + off) v
      = (hw.regWrite ini (blockBase n + off) (v % 2 ^ 32)).1.answer 0 (hw.regWrite ini (blockBase n + off) (v % 2 ^ 32)).2 := by
  have hlow : (blockBase n + off) % 8 ≠ 4 := by unfold blockBase; omega
  exact hw.doWrite_served ini (regGate_block hn ho true hd) (hw.absentReg_block hn ho) hr fun h4 => absurd h4 hlow

theorem Hw.reg64_flipAt (hw : Hw) : hw.reg64 (blockBase 7 + 8) = some hw.rt.flipAt := by
  simp only [reg64, regPlace_block (n := 7) (off := 8) (by decide) (by decide)]
  rfl

theorem Hw.regSet64_flipAt (hw : Hw) (v : Nat) :
    hw.regSet64 (blockBase 7 + 8) v = ({ hw with rt := { hw.rt with flipAt := fld v 49 0 } }, stOK) := by
  simp only [regSet64, regPlace_block (n := 7) (off := 8) (by decide) (by decide)]
  rfl

theorem Hw.reg64_dmaTmo (hw : Hw) : hw.reg64 (blockBase 6 + 0x400) = none := by
  simp only [reg64, regPlace_block (n := 6) (off := 0x400) (by decide) (by decide)]
  rfl

/-- DMA_TMO keeps its value when the field written is zero (07/T7-25). -/
theorem Hw.regWrite_dmaTmo (hw : Hw) (ini : Initiator) (v : Nat) :
    hw.regWrite ini (blockBase 6 + 0x400) v
      = ({ hw with dmaTmo := if fld v 23 0 = 0 then hw.dmaTmo else fld v 23 0 }, stOK) := by
  simp only [regWrite, regPlace_block (n := 6) (off := 0x400) (by decide) (by decide)]
  by_cases h : fld v 23 0 = 0 <;> simp only [dmaRegWrite, Nat.lt_irrefl, h, if_false, if_true]

theorem Hw.reg64_pscRtcfg (hw : Hw) : hw.reg64 (blockBase 8 + 0x400) = none := by
  simp only [reg64, regPlace_block (n := 8) (off := 0x400) (by decide) (by decide)]
  rfl

/-- A 16-bit value lies in 1 to 65,535 unless it is zero. -/
theorem within_16bit {v : Nat} (h : v < 2 ^ 16) (old : Nat) : within 1 65535 v old = if v = 0 then old else v := by
  unfold within
  by_cases h0 : v = 0
  · rw [if_neg (by omega), if_pos h0]
  · rw [if_pos (by omega), if_neg h0]

/-- PSC_RTCFG keeps its period when the field written is zero (12/T12-15). -/
theorem Hw.regWrite_pscRtcfg (hw : Hw) (ini : Initiator) (v : Nat) :
    hw.regWrite ini (blockBase 8 + 0x400) v
      = ({ hw with psc := { hw.psc with
          period := if fld v 15 0 = 0 then hw.psc.period else fld v 15 0
          drift := fld v 23 16, dtemp := fld v 31 24 } }, stOK) := by
  simp only [regWrite, regPlace_block (n := 8) (off := 0x400) (by decide) (by decide)]
  simp only [pscWrite, Nat.reduceLT, if_false, within_16bit (fld_lt v 15 0)]

/-- Beyond the global blocks no address names a register (01/R37). -/
theorem regPlace_unmapped {a : Nat} (h : 0x200100000 ≤ a) : regPlace a = .none := by
  unfold regPlace
  rw [if_neg (by omega), if_neg (by omega)]

theorem Hw.reg64_unmapped (hw : Hw) {a : Nat} (h : 0x200100000 ≤ a) : hw.reg64 a = none := by
  simp only [reg64, regPlace_unmapped h]

theorem Hw.doWrite_unmapped (hw : Hw) (ini : Initiator) {a : Nat} (v : Nat) (h : 0x200100000 ≤ a) :
    hw.doWrite ini a v = hw.answer 0 stBADPARAM := by
  have hp := regPlace_unmapped h
  have hgate : hw.regGate a true = .serve := by
    simp only [regGate, hp]
    exact if_neg (by omega)
  have habs : hw.absentReg a = false := by simp only [absentReg, hp]
  rw [hw.doWrite_served ini hgate habs (hw.reg64_unmapped h) fun h4 => hw.reg64_unmapped (by omega)]
  simp only [regWrite, hp]

/-- Settles O10: each write reaches its register, or none, by the address. -/
theorem registerWrites : Obligations.RegisterWrites := by
  unfold Obligations.RegisterWrites
  intro ini v s
  simp only [exec_registerWrite]
  refine ⟨?flipAt, fun hub => ?dmaTmo, ?pscRtcfg, fun a ha => ?unmapped⟩
  case flipAt =>
    have hgate : s.hw.regGate (blockBase 7 + 8) true = .serve :=
      Hw.regGate_block (by decide) (by decide) true fun d hd => nomatch blockDomain_flipAt.symm.trans hd
    rw [blockAddr_toNat (by decide) (by decide), s.hw.doWrite_wide ini hgate (s.hw.absentReg_block (by decide) (by decide))
      s.hw.reg64_flipAt, Hw.regSet64_flipAt]
  case dmaTmo =>
    rw [blockAddr_toNat (by decide) (by decide), Hw.doWrite_block ini _ (by decide) (by decide) (by decide)
      (fun d hd => Option.some.inj (blockDomain_dmaTmo.symm.trans hd) ▸ hub) s.hw.reg64_dmaTmo,
      Hw.regWrite_dmaTmo, fld_mod_two_pow _ _ (by decide)]
  case pscRtcfg =>
    rw [blockAddr_toNat (by decide) (by decide), Hw.doWrite_block ini _ (by decide) (by decide) (by decide)
      (fun d hd => nomatch blockDomain_pscRtcfg.symm.trans hd) s.hw.reg64_pscRtcfg, Hw.regWrite_pscRtcfg]
    simp only [fld_mod_two_pow (n := 32) _ _ (by decide : 15 < 32), fld_mod_two_pow (n := 32) _ _ (by decide : 23 < 32),
      fld_mod_two_pow (n := 32) _ _ (by decide : 31 < 32)]
  case unmapped => rw [Hw.doWrite_unmapped _ ini _ ha]

end Sys2Proof.Machine
end

section
/-! PROOFS. The board and its power domains: the policy of a square (01/R21 to R25), the transitions of a domain (01/R33, R34,
08/R295, R296, R303), requests for a state (08/R297) and wakes (08/R300). -/

namespace Sys2Proof.Machine

/-! ### Writes of the registers in a square window (01/R36, 06/R226). -/

/-- A 32-bit write that a square serves, of a register that is no half of a 64-bit one. -/
theorem Hw.doWrite_sq {hw : Hw} {s off : Nat} (ini : Initiator) (v : Word) (hs : s < 64) (ho : off < 0x4000000)
    (hr : regionOf off = .reg) (hr4 : regionOf (off - 4) = .reg) (hq : hw.sqServes s) (ha : (hw.sqOf s).regAbsent off = false)
    (h0 : hw.sqReg64 s off = none) (h4 : hw.sqReg64 s (off - 4) = none) :
    hw.doWrite ini (sqAddr s off) v.toNat
      = (hw.sqWrite ini s off v.toNat).1.answer 0 (hw.sqWrite ini s off v.toNat).2 := by
  have hgate : hw.regGate (sqAddr s off) true = .serve := by rw [Hw.regGate_sq hs ho hr, Hw.sqGate_serves hq]
  have hlow : sqAddr s off % 8 = 4 → hw.reg64 (sqAddr s off - 4) = none := by
    intro h8
    have hsub : sqAddr s off - 4 = sqAddr s (off - 4) := by unfold sqAddr at h8 ⊢; omega
    rw [hsub, hw.reg64_sq hs (by omega) hr4, h4]
  rw [hw.doWrite_served ini hgate ((hw.absentReg_sq hs ho hr).trans ha) ((hw.reg64_sq hs ho hr).trans h0) hlow,
    hw.regWrite_sq ini _ hs ho hr, word_mod]

/-! ### The policy of a square and its mapping (01/R21, R22, R24, R25). -/

theorem Hw.sqWrite_sqCfg (hw : Hw) (ini : Initiator) (s v : Nat) :
    hw.sqWrite ini s 0x3800004 v
      = if (hw.sqOf s).loaded then (hw, stBUSY) else (hw.setPolicy s (v.testBit 0), stOK) := rfl

theorem Hw.doWrite_sqCfg {hw : Hw} {s : Nat} (ini : Initiator) (v : Word) (hs : s < 64) (hq : hw.sqServes s) :
    hw.doWrite ini (sqAddr s 0x3800004) v.toNat
      = if (hw.sqOf s).loaded then hw.answer 0 stBUSY else (hw.setPolicy s (v.toNat.testBit 0)).answer 0 stOK := by
  rw [Hw.doWrite_sq ini v hs (by decide) (by decide) (by decide) hq rfl rfl rfl, Hw.sqWrite_sqCfg]
  split <;> rfl

/-- Without fenced slots every row gets along without its reserve core. -/
theorem mapFor_unfenced (p : Bool) : (mapFor p []).2 = true := by cases p <;> rfl

/-- Without fenced slots p18 carries the shadow role. -/
theorem shadowFor_unfenced (p : Bool) (m : List (Nat × Nat)) : shadowFor p [] m = 18 := rfl

theorem Hw.setPolicy_unfenced {hw : Hw} {s : Nat} (p : Bool) (h : (hw.sqOf s).slotFence = []) :
    hw.setPolicy s p = hw.modSq s fun q => { q with policy := p, lmap := (mapFor p []).1, shadow := 18 } := by
  have h18 : ¬((18 : Nat) = 31 ∧ (hw.sqOf s).shadow ≠ 31) := fun h => absurd h.1 (by decide)
  simp only [setPolicy, mapSquare, h, mapFor_unfenced, shadowFor_unfenced, if_true, if_neg h18]

/-- Cores 16 and 17 are present under ROUTE_AROUND alone. -/
theorem Square.slotFor_unfenced {q : Square} {p : Bool} (h : q.lmap = (mapFor p []).1) (l : Fin 18) :
    q.slotFor l = if l.val < 16 ∨ p = true then l.val else 31 := by
  unfold slotFor
  rw [h]
  cases p <;> revert l <;> decide

theorem exec_sqCfgWrite (ini : Initiator) (q : Fin 64) (v : Word) (s : State) :
    exec (.sqCfgWrite ini q v) s = .next (s.withHw (s.hw.doWrite ini (sqAddr q 0x3800004) v.toNat)) := rfl

/-- Settles O13: a served write of SQ_CFG answers BUSY or sets the policy, whose mapping without fenced slots is a fixed one. -/
theorem squarePolicyWrite : Obligations.SquarePolicyWrite := by
  unfold Obligations.SquarePolicyWrite
  intro ini q v s hq
  rw [exec_sqCfgWrite, Hw.doWrite_sqCfg ini v q.isLt hq]
  refine ⟨fun hl => by rw [if_pos hl], fun hl hf => ⟨_, rfl, ?_⟩⟩
  rw [if_neg (by simp [hl]), Hw.setPolicy_unfenced _ hf]
  rw [State.withHw_hw, Hw.answer_sqOf, Hw.modSq_sqOf_same]
  exact ⟨rfl, rfl, Square.slotFor_unfenced rfl, rfl⟩

/-! ### The idle policy (08/R296). -/

/-- A loaded square that runs nothing is to enter RETAIN once it has been idle. -/
theorem Hw.idleTarget_loaded {hw : Hw} {d : Nat} (hd : d < 64) (hload : (hw.sqOf d).loaded = true) (hjob : hw.jobOfSq d = none)
    (hheld : hw.heldBy d = none) (hpin : hw.pinned d = false) (hon : (hw.domOf d).state = .on) (hmov : (hw.domOf d).moving = none)
    (hreq : (hw.domOf d).held = none) (hwait : waitsFor hw.power.waiting d = false)
    (hidle : (hw.domOf d).idleFor false .retain hw.elapsed hw.bud.idleUs = true) : hw.idleTarget d = some .retain := by
  have husb : (d == 86 || d == 87) = false := by
    rw [Bool.or_eq_false_iff, beq_eq_false_iff_ne, beq_eq_false_iff_ne]
    omega
  simp [idleTarget, hd, hload, hjob, hheld, hpin, hon, hmov, hreq, hwait, husb, hidle]

theorem Hw.idleEntry_some {hw : Hw} {d : Nat} {t : PwrState} (h : hw.idleTarget d = some t) : hw.idleEntry d = hw.askDomain d t := by
  simp only [idleEntry, h]

/-! ### The first waiting transition (08/R303). -/

/-- The ramps in progress. -/
def Hw.liveRamps (hw : Hw) : List Ramp := hw.power.ramps.filter fun r => decide (hw.elapsed < r.until_)

/-- The module with other transitions waiting, and a ramp of slope and length `r` begun beside those in progress. -/
def Hw.rampBegun (hw : Hw) (rest : List Transition) (r : Nat × Nat) : Hw :=
  { hw with power := { hw.power with
    waiting := rest, ramps := hw.liveRamps ++ [{ slope := r.1, until_ := hw.elapsed + r.2 }] } }

/-- A slope fits beside the ramps in progress. -/
def Hw.slopeFits (hw : Hw) (slope : Nat) : Prop := (hw.liveRamps.map (·.slope)).sum + slope ≤ hw.bud.didt * 10

section
variable {hw : Hw} {rest : List Transition}

theorem Hw.canBegin_domain {d : Nat} {v : PwrState} (hmov : (hw.domOf d).moving = none) : hw.canBegin (.domain d v) = true := by
  simp only [canBegin, hmov, Option.isNone_none]

/-- A transition that has nothing left to do is dropped. -/
theorem Hw.transitionBegin_moot {t : Transition} (hwait : hw.power.waiting = t :: rest) (hcan : hw.canBegin t = true)
    (hmoot : hw.moot t = true) : hw.transitionBegin = { hw with power := { hw.power with waiting := rest } } := by
  simp only [transitionBegin, hwait, List.find?_cons_of_pos hcan, List.erase_cons_head, hmoot, if_true]

theorem Hw.transitionBegin_full {t : Transition} (hwait : hw.power.waiting = t :: rest) (hcan : hw.canBegin t = true)
    (hmoot : hw.moot t = false) (hfull : ¬hw.slopeFits t.ramp.1) : hw.transitionBegin = hw := by
  unfold slopeFits liveRamps at hfull
  simp only [transitionBegin, hwait, List.find?_cons_of_pos hcan, hmoot, Bool.false_eq_true, if_false, if_neg hfull]

theorem Hw.transitionBegin_dvfs {q n : Nat} {up : Bool} (hwait : hw.power.waiting = .dvfs q n up :: rest) (hfits : hw.slopeFits 80) :
    hw.transitionBegin = hw.rampBegun rest (80, 500 * n) := by
  unfold slopeFits liveRamps at hfits
  simp only [transitionBegin, hwait, List.find?_cons_of_pos (p := hw.canBegin) (show hw.canBegin (.dvfs q n up) = true from rfl),
    List.erase_cons_head, moot, Bool.false_eq_true, if_false, Transition.ramp, if_pos hfits]
  rfl

theorem Hw.transitionBegin_domain {d : Nat} {v : PwrState} (hwait : hw.power.waiting = .domain d v :: rest)
    (hmov : (hw.domOf d).moving = none) (hmoot : hw.moot (.domain d v) = false) (hfits : hw.slopeFits (rampOf d).1) :
    hw.transitionBegin = ((hw.rampBegun rest (rampOf d)).modDom d fun k => { k with moving := some v }).leaves d v := by
  have hcan := Hw.canBegin_domain (v := v) hmov
  unfold slopeFits liveRamps at hfits
  simp only [transitionBegin, hwait, List.find?_cons_of_pos hcan, List.erase_cons_head, hmoot, Bool.false_eq_true, if_false,
    Transition.ramp, if_pos hfits]
  rfl

end

theorem Hw.moot_keepsOn {hw : Hw} {d : Nat} (hkeep : hw.keepsOn d = true) : hw.moot (.domain d .off) = true := by
  simp only [moot, hkeep, beq_self_eq_true, Bool.and_self, Bool.or_true]

theorem Hw.moot_domain_false {hw : Hw} {d : Nat} {v : PwrState} (hst : (hw.domOf d).state ≠ v)
    (hkeep : v = .off → hw.keepsOn d = false) : hw.moot (.domain d v) = false := by
  simp only [moot, Bool.or_eq_false_iff, beq_eq_false_iff_ne, Bool.and_eq_false_imp, beq_iff_eq]
  exact ⟨hst, hkeep⟩

/-! ### What a domain does as its transition begins (06/R228, 08/R300). -/

theorem Hw.stopClock_square {hw : Hw} {d : Nat} (hd : d < 64) :
    hw.stopClock d = hw.modSq d fun q => { q.account hw.elapsed with clkOff := true } := if_pos hd

theorem Hw.leaves_other {hw : Hw} {d : Nat} (v : PwrState) (hd : 64 ≤ d) (htb : d ≠ domTb) : hw.leaves d v = hw := by
  simp only [leaves, stopClock, Nat.not_lt.mpr hd, false_and, if_false, if_neg htb]

theorem Hw.leaves_square {hw : Hw} {d : Nat} {v : PwrState} (hd : d < 64) (hv : v ≠ .off) : hw.leaves d v = hw.stopClock d := by
  have htb : d ≠ domTb := by unfold domTb; omega
  simp only [leaves, hv, and_false, if_false, if_neg htb]

/-- A square on its way to OFF drains; from ON, what has reached it is still served. -/
theorem Hw.leaves_square_off {hw : Hw} {d : Nat} (hd : d < 64) (hrt : (hw.rtOf d).state = .normal) :
    hw.leaves d .off = ((hw.stopClock d).setRtState d .draining).modSq d fun q =>
      { q with inbox := q.inbox.map fun e => { e with owed := (hw.domOf d).state == .on } } := by
  have hst : ((hw.stopClock d).rtOf d).state = .normal := by
    rw [Hw.stopClock_square hd]
    simp only [rtOf, Hw.modSq_sqOf_same]
    exact hrt
  have hdom : (hw.stopClock d).domOf d = hw.domOf d := by rw [Hw.stopClock_square hd, Hw.modSq_domOf]
  simp only [leaves, hd, and_self, if_true, drain, hst, hdom, reduceCtorEq, if_false]

/-! ### The end of a transition (08/R295, R300). -/

theorem Hw.startClock_square {hw : Hw} {d : Nat} (hd : d < 64) :
    hw.startClock d = hw.modSq d fun q => { q.account hw.elapsed with clkOff := false } := if_pos hd

theorem Hw.startClock_other {hw : Hw} {d : Nat} (hd : 64 ≤ d) : hw.startClock d = hw := if_neg (Nat.not_lt.mpr hd)

/-- A square or a PSRAM pair that comes from RETAIN has lost nothing that it would have to make up for. -/
theorem Hw.domainBack_retain {hw : Hw} {d : Nat} (hd : d < 72) : hw.domainBack d .retain = hw := by
  have hlink : ¬(72 ≤ d ∧ d < 78) := by omega
  have hctrl : d ≠ domCtrl := by unfold domCtrl; omega
  have htb : d ≠ domTb := by unfold domTb; omega
  have husb : ¬(d = 86 ∨ d = 87) := by omega
  simp only [domainBack, if_neg hlink, if_neg hctrl, if_neg htb, if_neg husb, reduceCtorEq, and_false, if_false]

/-- A domain that has arrived in a state. -/
def Domain.arrive (k : Domain) (v : PwrState) (now : Nat) : Domain :=
  { k with state := v, moving := none, wake := false, lastUse := now, wokeAt := if v = .on then some now else k.wokeAt }

theorem Hw.transitionDone_on {hw : Hw} {d : Nat} (hmov : (hw.domOf d).moving = some .on) :
    hw.transitionDone d
      = ((hw.modDom d fun k => k.arrive .on hw.elapsed).domainBack d (hw.domOf d).state).startClock d := by
  simp [transitionDone, hmov, Domain.arrive]

/-- A PSRAM pair that does not come from OFF arrives, when no wake was latched on the way, and does nothing else. -/
theorem Hw.transitionDone_pair {hw : Hw} {d : Nat} {v : PwrState} (h64 : 64 ≤ d) (h72 : d < 72)
    (hmov : (hw.domOf d).moving = some v) (hoff : v ≠ .off) (hret : v = .on → (hw.domOf d).state = .retain)
    (hwake : (hw.domOf d).wake = false) : hw.transitionDone d = hw.modDom d fun k => k.arrive v hw.elapsed := by
  cases v with
  | on => rw [Hw.transitionDone_on hmov, hret rfl, Hw.domainBack_retain h72, Hw.startClock_other h64]
  | retain =>
    have hsq : ¬d < 64 := by omega
    have hlink : ¬72 ≤ d := by omega
    have husb : ¬(d = 86 ∨ d = 87) := by omega
    simp [transitionDone, hmov, hwake, hsq, hlink, husb, Domain.arrive]
  | off => exact absurd rfl hoff

/-- A square that comes from RETAIN is ON again, and its compute clock runs. -/
theorem Hw.transitionDone_square {hw : Hw} {d : Nat} (hd : d < 64) (hmov : (hw.domOf d).moving = some .on)
    (hret : (hw.domOf d).state = .retain) :
    hw.transitionDone d = (hw.modDom d fun k => k.arrive .on hw.elapsed).modSq d fun q =>
      { q.account hw.elapsed with clkOff := false } := by
  rw [Hw.transitionDone_on hmov, hret, Hw.domainBack_retain (by omega), Hw.startClock_square hd, Hw.modDom_elapsed]

/-! ### What waits for a domain or for PSRAM (01/R36, 12/R411). -/

/-- A loop whose every pass leaves the state as it is. -/
theorem forAll_unchanged {σ : Type} {f : Nat → σ → σ} {s : σ} : ∀ l : List Nat, (∀ i ∈ l, f i s = s) → forAll l f s = s
  | [], _ => rfl
  | a :: l, h => by
    rw [forAll_cons, h a List.mem_cons_self]
    exact forAll_unchanged l fun i hi => h i (List.mem_cons_of_mem a hi)

theorem Hw.serveHeld_nil {hw : Hw} (ready : HeldAccess → Bool) (reg : Hw → HeldAccess → Hw) (h : hw.heldAcc = []) :
    hw.serveHeld ready reg = hw := by
  simp only [serveHeld, h, List.filter_nil, List.foldl_nil]
  rw [← h]

theorem Hw.pscResume_idle {hw : Hw} (h : ∀ c : Fin 16, (hw.dmaOf c).d = none) : hw.pscResume = hw :=
  forAll_unchanged _ fun c hc => by
    have hd : (hw.dmaOf c).d = none := h ⟨c, List.mem_range.mp hc⟩
    simp only [hd]

theorem Hw.tasksGoOn_none {hw : Hw} (h : hw.noTaskWaits) : hw.tasksGoOn = hw := by
  have hnil : (hw.seq.tasks.filter fun p => p.2.state == .running && p.2.memWait != []) = [] := by
    refine List.filter_eq_nil_iff.mpr fun x hx => ?_
    rw [Bool.and_eq_true, beq_iff_eq, bne_iff_ne]
    exact fun ⟨hrun, hwait⟩ => hwait (h x hx hrun)
  rw [tasksGoOn, hnil, List.foldl_nil]

/-- With no command in progress or waiting, none is carried out again and none starts. -/
theorem Hw.kzResume_idle {hw : Hw} (hca : hw.kz.portA.cmds = []) (hcb : hw.kz.portB.cmds = []) (ha : hw.kz.portA.current = none)
    (hb : hw.kz.portB.current = none) (hr : ∀ x, x ∈ hw.kz.running → x.wait ≠ .retry) : hw.kzResume = hw := by
  have hpa : (hw.portOf false).current = none := ha
  have hpb : (hw.portOf true).current = none := hb
  have hnil : (hw.kz.running.filter fun r => r.wait == .retry) = [] :=
    List.filter_eq_nil_iff.mpr fun x hx => by simpa using hr x hx
  have hall : (hw.kz.running.filter fun r => r.wait != .retry) = hw.kz.running :=
    List.filter_eq_self.mpr fun x hx => by simpa using hr x hx
  simp only [kzResume, hpa, hpb, hnil, hall, List.foldl_nil]
  exact Hw.kzPump_none hca hcb hpa hpb

/-- No access is held, no descriptor is in progress, and no task and no command waits. -/
structure Hw.NothingWaits (hw : Hw) : Prop where
  held : hw.heldAcc = []
  dma : ∀ c : Fin 16, (hw.dmaOf c).d = none
  cmdsA : hw.kz.portA.cmds = []
  cmdsB : hw.kz.portB.cmds = []
  currentA : hw.kz.portA.current = none
  currentB : hw.kz.portB.current = none
  running : ∀ x, x ∈ hw.kz.running → x.wait ≠ .retry
  tasks : hw.noTaskWaits

theorem Hw.NothingWaits.modDom {hw : Hw} (h : hw.NothingWaits) (d : Nat) (f : Domain → Domain) : (hw.modDom d f).NothingWaits :=
  ⟨h.held, h.dma, h.cmdsA, h.cmdsB, h.currentA, h.currentB, h.running, h.tasks⟩

theorem Hw.NothingWaits.modSq {hw : Hw} (h : hw.NothingWaits) (s : Nat) (f : Square → Square) : (hw.modSq s f).NothingWaits :=
  ⟨h.held, h.dma, h.cmdsA, h.cmdsB, h.currentA, h.currentB, h.running, h.tasks⟩

/-- When nothing waits, the end of a transition lets nothing go on. -/
theorem Hw.transitionServed_quiet {hw g : Hw} {d : Nat} (hdone : hw.transitionDone d = g) (hg : g.NothingWaits) :
    hw.transitionServed d = g := by
  simp only [transitionServed, hdone, Hw.serveHeld_nil _ _ hg.held, Hw.pscResume_idle hg.dma, Hw.tasksGoOn_none hg.tasks,
    Hw.kzResume_idle hg.cmdsA hg.cmdsB hg.currentA hg.currentB hg.running]

/-! ### Requests for a state (08/R297). -/

theorem blockDomain_pwrReq : blockDomain 12 0x20 = none := rfl

theorem Hw.doWrite_pwrReq (hw : Hw) (ini : Initiator) (v : Word) :
    hw.doWrite ini (blockBase 12 + 0x20) v.toNat
      = (hw.pwrReq (fld v.toNat 6 0) (fld v.toNat 9 8)).1.answer 0 (hw.pwrReq (fld v.toNat 6 0) (fld v.toNat 9 8)).2 := by
  have hplace : regPlace (blockBase 12 + 0x20) = .block 12 0x20 := regPlace_block (by decide) (by decide)
  have hreg : hw.reg64 (blockBase 12 + 0x20) = none := by simp only [reg64, hplace]
  have hreq : hw.regWrite ini (blockBase 12 + 0x20) v.toNat = hw.pwrReq (fld v.toNat 6 0) (fld v.toNat 9 8) := by
    simp only [regWrite, hplace]
    rfl
  rw [Hw.doWrite_block ini _ (by decide) (by decide) (by decide) (fun d hd => nomatch blockDomain_pwrReq.symm.trans hd) hreg,
    word_mod, hreq]

/-- The domain is none of a fused-off square, which requests and wakes leave as it is. -/
theorem Hw.not_fusedOff {hw : Hw} {d : Nat} (h : d < 64 → (hw.sqOf d).fused = false) : ¬(d < 64 ∧ (hw.sqOf d).fused = true) :=
  fun ⟨hd, hf⟩ => Bool.false_ne_true ((h hd).symm.trans hf)

section
variable {hw : Hw} {d : Nat} (hd : d < 91)
include hd

theorem Hw.pwrReq_on_fused (h : d < 64 ∧ (hw.sqOf d).fused = true) : hw.pwrReq d 0 = (hw, stBUSY) := by
  simp [pwrReq, show ¬90 < d by omega, h]

theorem Hw.pwrReq_on (h : d < 64 → (hw.sqOf d).fused = false) :
    hw.pwrReq d 0 = (((hw.dropAsk d).wakeDom d).modDom d fun k => { k with held := some .on }, stOK) := by
  simp [pwrReq, show ¬90 < d by omega, Hw.not_fusedOff h]

/-- A request for RETAIN or OFF is refused, drops what waits for the state in force, or asks for the state. -/
theorem Hw.pwrReq_lower {tgt : Nat} {x : PwrState} (hx : tgt = 1 ∧ x = .retain ∨ tgt = 2 ∧ x = .off) :
    hw.pwrReq d tgt
      = if hw.pinned d || (x == .off && hw.keepsOn d) then (hw, stBUSY)
        else if (hw.domOf d).moving.getD (hw.domOf d).state = x then
          ((hw.modDom d fun k => { k with held := some x }).dropAsk d, stOK)
        else ((hw.modDom d fun k => { k with held := some x }).askDomain d x, stOK) := by
  have h90 : ¬90 < d := by omega
  obtain ⟨rfl, rfl⟩ | ⟨rfl, rfl⟩ := hx <;> simp [pwrReq, h90]

end

/-! ### Wakes (08/R300). -/

/-- A wake reaches a domain: no request holds it any longer, and the idle policy counts from now. -/
def Hw.noteWake (hw : Hw) (d : Nat) : Hw := hw.modDom d fun k => { k with held := none, wokeAt := some hw.elapsed }

section
variable {hw : Hw} {d : Nat} (hf : d < 64 → (hw.sqOf d).fused = false)
include hf

theorem Hw.wakeDom_low (hmov : (hw.domOf d).moving = none) (hst : (hw.domOf d).state ≠ .on) :
    hw.wakeDom d = (hw.noteWake d).askDomain d .on := by
  simp only [wakeDom, if_neg (Hw.not_fusedOff hf), hmov, if_neg hst, noteWake]

/-- A wake of a domain that is ON cancels an entry that has not begun. -/
theorem Hw.wakeDom_on (hmov : (hw.domOf d).moving = none) (hst : (hw.domOf d).state = .on) :
    hw.wakeDom d = (hw.noteWake d).dropAsk d := by
  simp only [wakeDom, if_neg (Hw.not_fusedOff hf), hmov, if_pos hst, noteWake, dropAsk]

theorem Hw.wakeDom_rising (hmov : (hw.domOf d).moving = some .on) : hw.wakeDom d = hw.noteWake d := by
  simp only [wakeDom, if_neg (Hw.not_fusedOff hf), hmov, noteWake]

/-- During an entry the wake is latched. -/
theorem Hw.wakeDom_entering (hmov : (hw.domOf d).moving = some .retain ∨ (hw.domOf d).moving = some .off) :
    hw.wakeDom d = (hw.noteWake d).modDom d fun k => { k with wake := true } := by
  rcases hmov with h | h <;> simp only [wakeDom, if_neg (Hw.not_fusedOff hf), h, noteWake]

end

/-! ### The commands. -/

theorem exec_domainIdleEntry (d : Fin 91) (s : State) :
    exec (.domainIdleEntry d) s = .next (s.withHw (s.hw.idleEntry d)) := rfl

theorem exec_domainTransitionBegin (s : State) :
    exec .domainTransitionBegin s = .next (s.withHw s.hw.transitionBegin) := rfl

theorem exec_domainTransitionDone (d : Fin 91) (s : State) :
    exec (.domainTransitionDone d) s = .next (s.withHw (s.hw.transitionServed d)) := rfl

theorem exec_pwrReqWrite (ini : Initiator) (v : Word) (s : State) :
    exec (.pwrReqWrite ini v) s = .next (s.withHw (s.hw.doWrite ini (blockBase 12 + 0x20) v.toNat)) := rfl

theorem exec_wakeRequest (d : Fin 91) (s : State) : exec (.wakeRequest d) s = .next (s.withHw (s.hw.wakeDom d)) := rfl

/-- Settles O54: each command is one operation on the domains, and the laws above say what it does in each case. -/
theorem powerDomains : Obligations.PowerDomains := by
  unfold Obligations.PowerDomains
  intro s
  refine ⟨?idle, ?begins, ?dvfs, ?dropped, ?done, ?request, ?wake⟩
  case idle =>
    intro q hload hjob hheld hpin k hk hon hmov hreq hwait hwoke huse
    subst hk
    have hidle : (s.hw.domOf q).idleFor false .retain s.hw.elapsed s.hw.bud.idleUs = true := by
      simp only [Domain.idleFor, hwoke, decide_eq_true huse, Bool.or_true, Bool.and_true]
    rw [exec_domainIdleEntry, Fin.val_castLE,
      Hw.idleEntry_some (Hw.idleTarget_loaded q.isLt hload hjob hheld hpin hon hmov hreq hwait hidle)]
  case begins =>
    intro d v rest ramps h hwait hmov hst hkeep hramps hh
    subst hramps hh
    have hmoot := Hw.moot_domain_false hst hkeep
    rw [exec_domainTransitionBegin]
    refine ⟨fun hfits => ?_, fun hfull => ?_⟩
    · rw [Hw.transitionBegin_domain hwait hmov hmoot hfits]
      refine ⟨fun h64 htb => ?_, fun hd g hg => ?_⟩
      · rw [Hw.leaves_other v h64 htb]
        rfl
      · subst hg
        refine ⟨fun hv => ?_, fun hv hrt => ?_⟩
        · rw [Hw.leaves_square hd hv, Hw.stopClock_square hd]
          rfl
        · subst hv
          rw [Hw.leaves_square_off hd ?normal, Hw.stopClock_square hd, Hw.modDom_domOf_same]
          case normal => exact hrt
          rfl
    · rw [Hw.transitionBegin_full hwait (Hw.canBegin_domain hmov) hmoot (Nat.not_le.mpr hfull), State.withHw_self]
  case dvfs =>
    intro q n up rest hwait ramps hramps hfits
    subst hramps
    rw [exec_domainTransitionBegin, Hw.transitionBegin_dvfs hwait hfits]
    rfl
  case dropped =>
    intro d rest hwait hmov hkeep
    rw [exec_domainTransitionBegin, Hw.transitionBegin_moot hwait (Hw.canBegin_domain hmov) (Hw.moot_keepsOn hkeep)]
  case done =>
    intro d v k hk hmov hwake hheld hdma hca hcb ha hb hrun htask h hh
    subst hk hh
    have hquiet : s.hw.NothingWaits := ⟨hheld, hdma, hca, hcb, ha, hb, hrun, htask⟩
    rw [exec_domainTransitionDone]
    refine ⟨fun ⟨h64, h72, hoff, hret⟩ => ?_, fun ⟨h64, hv, hret⟩ => ?_⟩
    · rw [Hw.transitionServed_quiet (Hw.transitionDone_pair h64 h72 hmov hoff hret hwake) (hquiet.modDom _ _)]
      rfl
    · subst hv
      rw [Hw.transitionServed_quiet (Hw.transitionDone_square h64 hmov hret) ((hquiet.modDom _ _).modSq _ _)]
      rfl
  case request =>
    intro ini v d hd hd91
    subst hd
    rw [exec_pwrReqWrite, Hw.doWrite_pwrReq]
    refine ⟨fun htgt => ?_, fun x h hx hh => ?_⟩
    · rw [htgt]
      refine ⟨fun hf => ?_, fun hf => ?_⟩
      · rw [Hw.pwrReq_on_fused hd91 hf]
      · rw [Hw.pwrReq_on hd91 hf]
    · subst hh
      rw [Hw.pwrReq_lower hd91 hx]
      refine ⟨fun hkept => ?_, fun hpin hkeep => ⟨fun hin => ?_, fun hin => ?_⟩⟩
      · rw [if_pos (by simpa using hkept)]
      · rw [if_neg (by simpa [hpin] using hkeep), if_pos hin]
      · rw [if_neg (by simpa [hpin] using hkeep), if_neg hin]
  case wake =>
    intro d hf k h hk hh
    subst hk hh
    rw [exec_wakeRequest]
    refine ⟨fun hmov hst => ?_, fun hmov hst => ?_, fun hmov => ?_, fun hmov => ?_⟩
    · rw [Hw.wakeDom_low hf hmov hst]; rfl
    · rw [Hw.wakeDom_on hf hmov hst]; rfl
    · rw [Hw.wakeDom_rising hf hmov]; rfl
    · rw [Hw.wakeDom_entering hf hmov]; rfl

end Sys2Proof.Machine
end

section
/-! PROOFS. Chapter 03: the words of micro-ops (03/R100, R103). -/

namespace Sys2Proof.Machine

/-! ### Opcodes (03/T3-8, 07/T7-4). -/

theorem mem_allOps (o : Op) : o ∈ allOps := by cases o <;> decide

/-- No two opcodes have one OP field. -/
theorem opOf_opCode (o : Op) : opOf (opCode o) = some o := by cases o <;> rfl

theorem opCode_of_opOf {c : BitVec 6} {o : Op} (h : opOf c = some o) : opCode o = c :=
  beq_iff_eq.mp (List.find?_some (p := fun o => opCode o == c) h)

theorem opOf_eq_none_iff {c : BitVec 6} : opOf c = none ↔ ∀ o, opCode o ≠ c := by
  rw [opOf, List.find?_eq_none]
  simp only [beq_iff_eq]
  exact ⟨fun h o => h o (mem_allOps o), fun h o _ => h o⟩

/-! ### The fields of a word (03/T3-7). -/

section
open BitVec
variable (u : Uop)

theorem uopEncode_imm : (uopEncode u).extractLsb' 0 13 = u.imm :=
  (extractLsb'_append_eq_of_add_le (by decide)).trans extractLsb'_eq_self

theorem uopEncode_b : (uopEncode u).extractLsb' 13 4 = u.b :=
  (extractLsb'_append_eq_of_le (by decide)).trans <| (extractLsb'_append_eq_of_add_le (by decide)).trans extractLsb'_eq_self

theorem uopEncode_a : (uopEncode u).extractLsb' 17 4 = u.a :=
  (extractLsb'_append_eq_of_le (by decide)).trans <| (extractLsb'_append_eq_of_le (by decide)).trans <|
    (extractLsb'_append_eq_of_add_le (by decide)).trans extractLsb'_eq_self

theorem uopEncode_d : (uopEncode u).extractLsb' 21 3 = u.d :=
  (extractLsb'_append_eq_of_le (by decide)).trans <| (extractLsb'_append_eq_of_le (by decide)).trans <|
    (extractLsb'_append_eq_of_le (by decide)).trans <| (extractLsb'_append_eq_of_add_le (by decide)).trans extractLsb'_eq_self

theorem uopEncode_pred : (uopEncode u).extractLsb' 24 2 = u.pred :=
  (extractLsb'_append_eq_of_le (by decide)).trans <| (extractLsb'_append_eq_of_le (by decide)).trans <|
    (extractLsb'_append_eq_of_le (by decide)).trans <| (extractLsb'_append_eq_of_le (by decide)).trans <|
    (extractLsb'_append_eq_of_add_le (by decide)).trans extractLsb'_eq_self

theorem uopEncode_op : (uopEncode u).extractLsb' 26 6 = opCode u.op :=
  (extractLsb'_append_eq_of_le (by decide)).trans <| (extractLsb'_append_eq_of_le (by decide)).trans <|
    (extractLsb'_append_eq_of_le (by decide)).trans <| (extractLsb'_append_eq_of_le (by decide)).trans <|
    (extractLsb'_append_eq_of_le (by decide)).trans extractLsb'_eq_self

/-- The six fields of a word, side by side, are the word. -/
theorem append_fields (w : Word) :
    (w.extractLsb' 26 6 ++ w.extractLsb' 24 2 ++ w.extractLsb' 21 3 ++ w.extractLsb' 17 4 ++ w.extractLsb' 13 4
      ++ w.extractLsb' 0 13 : BitVec 32) = w := by
  rw [extractLsb'_append_extractLsb'_eq_extractLsb' (by decide), extractLsb'_append_extractLsb'_eq_extractLsb' (by decide),
    extractLsb'_append_extractLsb'_eq_extractLsb' (by decide), extractLsb'_append_extractLsb'_eq_extractLsb' (by decide),
    extractLsb'_append_extractLsb'_eq_extractLsb' (by decide)]
  exact extractLsb'_eq_self

end

theorem uopDecode_uopEncode (u : Uop) : uopDecode (uopEncode u) = some u := by
  rw [uopDecode, uopEncode_op, opOf_opCode, uopEncode_pred, uopEncode_d, uopEncode_a, uopEncode_b, uopEncode_imm, Option.map_some]

theorem uopEncode_of_uopDecode {w : Word} {u : Uop} (h : uopDecode w = some u) : uopEncode u = w := by
  obtain ⟨o, ho, rfl⟩ := Option.map_eq_some_iff.mp h
  simp only [uopEncode, opCode_of_opOf ho]
  exact append_fields w

/-- Settles O26: the opcodes and the fields of a word read back. -/
theorem microOpWordsRoundTrip : Obligations.MicroOpWordsRoundTrip :=
  ⟨uopDecode_uopEncode, fun _ _ => uopEncode_of_uopDecode, fun _ => Option.map_eq_none_iff.trans opOf_eq_none_iff⟩

end Sys2Proof.Machine
end

section
/-! PROOFS. Chapters 07 and 12: updates of a controller program, and the square memory that it uses (07/R252, 12/R395, R396). -/

namespace Sys2Proof.Machine

/-! ### Updates of a program. -/

/-- What two updates make of the present program is all that they do. -/
theorem Hw.modCp_congr {hw : Hw} {s l : Nat} {f g : Prog → Prog} (h : f (hw.cpOf s l) = g (hw.cpOf s l)) :
    hw.modCp s l f = hw.modCp s l g :=
  congrArg (fun p => hw.modCore s l fun c => { c with cp := p }) h

theorem Hw.modCp_modCp (hw : Hw) (s l : Nat) (f g : Prog → Prog) :
    (hw.modCp s l f).modCp s l g = hw.modCp s l fun p => g (f p) := by
  simp only [modCp, modCore, mupd_mupd]

/-- While words remain, a program goes on to the next one (07/R252). -/
theorem Hw.cpNext_more {hw : Hw} {s l : Nat} (h : (hw.cpOf s l).pc + 1 < (hw.cpOf s l).len) :
    hw.cpNext s l = hw.modCp s l fun p => { p with pc := p.pc + 1 } := if_pos h

/-- The same after an update that leaves its place. -/
theorem Hw.cpNext_modCp {hw : Hw} {s l : Nat} {f : Prog → Prog} (hpc : (f (hw.cpOf s l)).pc = (hw.cpOf s l).pc)
    (hlen : (f (hw.cpOf s l)).len = (hw.cpOf s l).len) (h : (hw.cpOf s l).pc + 1 < (hw.cpOf s l).len) :
    (hw.modCp s l f).cpNext s l = hw.modCp s l fun p => { f p with pc := (f p).pc + 1 } := by
  rw [cpNext_more (by rw [modCp_cpOf_same, hpc, hlen]; exact h), modCp_modCp]

/-- A write of memory leaves the programs as they are. -/
theorem Hw.cpNext_wr {hw : Hw} {s l a : Nat} {bs : List Byte} (h : (hw.cpOf s l).pc + 1 < (hw.cpOf s l).len) :
    (hw.wr a bs).cpNext s l = (hw.modCp s l fun p => { p with pc := p.pc + 1 }).wr a bs := cpNext_more (hw := hw.wr a bs) h

/-! ### Bank groups that are used (12/R395, R396). -/

/-- The use of bank groups that are settled in ON or OFF changes nothing. -/
theorem Hw.useBanks_settled {hw : Hw} {s : Nat} {gs : List Nat} (h : (hw.sqOf s).asleep gs = []) : hw.useBanks s gs = hw := by
  simp only [useBanks, h]

/-- A bank group that comes ON. -/
def BankGroup.awake (b : BankGroup) : BankGroup := { b with state := .on, moving := none, wake := false }

/-- Use brings a bank group ON, and loses nothing of one that is in RETAIN or on its way into it. -/
theorem Hw.useBanks_asleep {hw : Hw} {s g : Nat} (h : (hw.sqOf s).asleep [g] = [g]) (hkept : hw.bankKept s g) :
    hw.useBanks s [g] = hw.modSq s fun q => q.setBank g BankGroup.awake := by
  obtain ⟨hoff, hmov⟩ := hkept
  have hlost : ([g].filter fun g => let b := (hw.sqOf s).bankOf g; b.state == .off || b.moving == some .off) = [] := by
    simp [hoff, hmov]
  simp only [useBanks, h, hlost]
  rfl

theorem Hw.memOff_of_memKept {hw : Hw} {s : Nat} (h : hw.memKept s) : hw.memOff s = false := by
  have hoff : ((hw.sqOf s).bankOf 19).state ≠ .off := h.1
  simp [memOff, BankGroup.isOff, hoff]

section
variable {hw : Hw} {s : Nat} (hkept : hw.memKept s)
include hkept

theorem Hw.memAwake_eq : hw.memAwake s = hw ∨ hw.memAwake s = hw.modSq s fun q => q.setBank 19 BankGroup.awake := by
  cases h : ((hw.sqOf s).bankOf 19).isOn || ((hw.sqOf s).bankOf 19).isOff with
  | true => exact .inl (Hw.useBanks_settled (by simp only [Square.asleep, List.filter, h, Bool.not_true]))
  | false => exact .inr (Hw.useBanks_asleep (by simp only [Square.asleep, List.filter, h, Bool.not_false]) hkept)

theorem Hw.memAwake_banks : (hw.memAwake s).banks = hw.banks := by
  rcases Hw.memAwake_eq hkept with h | h <;> rw [h]
  rfl

theorem Hw.memAwake_core : (hw.memAwake s).core = hw.core := by
  rcases Hw.memAwake_eq hkept with h | h <;> rw [h]
  rfl

theorem Hw.memAwake_cpOf (l : Nat) : (hw.memAwake s).cpOf s l = hw.cpOf s l := by
  rw [cpOf, coreOf, memAwake_core hkept]
  rfl

theorem Hw.memAwake_poisoned (a n : Nat) : (hw.memAwake s).poisoned a n = hw.poisoned a n := by
  simp only [poisoned, hasPoison, memAwake_banks hkept]

theorem Hw.memAwake_rdN (a n : Nat) : (hw.memAwake s).rdN a n = hw.rdN a n := by
  simp only [rdN, rd, memAwake_banks hkept]

theorem Hw.memAwake_cpConsts (base : Nat) : (hw.memAwake s).cpConsts s base = hw.cpConsts s base := by
  simp only [cpConsts, memAwake_rdN hkept]

theorem Hw.memAwake_cpWord (base i : Nat) : (hw.memAwake s).cpWord s base i = hw.cpWord s base i := by
  simp only [cpWord, memAwake_rdN hkept]

theorem Hw.memAwake_cpReady (l : Nat) : (hw.memAwake s).cpReady s l = hw.cpReady s l := by
  rcases Hw.memAwake_eq hkept with h | h <;> rw [h]
  simp only [cpReady, works, Hw.modSq_sqOf_same]
  rfl

theorem Hw.memAwake_hostWriteOk (off : Nat) : (hw.memAwake s).hostWriteOk s off = hw.hostWriteOk s off := by
  rcases Hw.memAwake_eq hkept with h | h <;> rw [h]
  simp only [hostWriteOk, imgLo, rootOf, Hw.modSq_sqOf_same]
  rfl

theorem Hw.memAwake_cpCurrent (l : Nat) : (hw.memAwake s).cpCurrent s l = hw.cpCurrent s l := by
  simp only [cpCurrent, memAwake_cpReady hkept, memAwake_cpOf hkept, memAwake_cpWord hkept]

end

end Sys2Proof.Machine
end

section
/-! PROOFS. Chapters 03 and 07: micro-ops of controller programs (03/R101 to R104, 07/R252, R254). -/

namespace Sys2Proof.Machine

/-! ### The issue of a micro-op (07/R252). -/

theorem Hw.present.memKept {hw : Hw} {s l : Nat} {u : Uop} (h : hw.present s l u) : hw.memKept s := h.2.2

theorem Hw.cpReady_of_cpCurrent {hw : Hw} {s l : Nat} {u : Uop} (h : hw.cpCurrent s l = some u) : hw.cpReady s l = true := by
  unfold cpCurrent at h
  split at h
  next hr => exact hr
  next => cases h

theorem Hw.cpIssue_memOff {hw : Hw} {s l : Nat} (op : Op) (hr : hw.cpReady s l = true) (hoff : hw.memOff s = true) :
    hw.cpIssue s l op = hw.cpError s l stABSENT := by
  simp only [cpIssue, hr, hoff, Bool.not_true, Bool.false_eq_true, if_false, if_true]

/-- The present micro-op is carried out, over square memory that is awake. -/
theorem Hw.cpIssue_present {hw : Hw} {s l : Nat} {u : Uop} (h : hw.present s l u) :
    hw.cpIssue s l u.op = (hw.memAwake s).cpExec s l u := by
  obtain ⟨hcur, ⟨hconst, hword⟩, hkept⟩ := h
  have hawake : hw.useBanks s [19] = hw.memAwake s := rfl
  simp only [cpIssue, Hw.cpReady_of_cpCurrent hcur, Hw.memOff_of_memKept hkept, hawake, Hw.memAwake_cpCurrent hkept, hcur,
    Hw.memAwake_cpOf hkept, Hw.memAwake_poisoned hkept, hconst, hword, Bool.not_true, Bool.false_eq_true, ne_eq, not_true,
    if_false]

/-! ### Words of square memory that a program reads and stores (07/R254, 12/R399). -/

/-- An address that a program names lies, with the bytes there, in square memory. -/
theorem cpAddr_word {x : Int} {off : Nat} (h : cpAddr x 4 = some off) : off % 4 = 0 ∧ off + 4 ≤ 0x200000 := by
  unfold cpAddr at h
  split at h
  · cases h
  · injection h with h
    omega

/-- Four bytes at a multiple of 4 lie in one word: they are one part of a write. -/
theorem wordParts_four {a : Nat} {bs : List Byte} (ha : a % 4 = 0) (hlen : bs.length = 4) : wordParts 4 a bs = [(a, bs)] := by
  have hk : bs.length ≤ 8 - a % 8 := by omega
  have hne : bs ≠ [] := fun h => by simp [h] at hlen
  rw [wordParts, List.take_of_length_le hk, List.drop_eq_nil_of_le hk]
  · rfl
  · exact hne

theorem Hw.wrBytes_four {hw : Hw} {a : Nat} {bs : List Byte} (ha : a % 4 = 0) (hlen : bs.length = 4)
    (hbad : hw.poisoned a 4 = false) : hw.wrBytes a bs = (hw.wr a bs, true) := by
  simp [wrBytes, hlen, wordParts_four ha hlen, wrWord, hbad]

theorem regionOf_mem {off : Nat} (h : off < 0x200000) : regionOf (0x3000000 + off) = .mem := by
  unfold regionOf
  rw [if_neg (by omega), if_neg (by omega), if_neg (by omega), if_neg (by omega), if_pos (by omega)]

/-- A store that square memory takes whole (03/R90, 12/R399). -/
theorem Hw.storeWin_mem {hw g : Hw} {s off : Nat} {bs : List Byte} (ho : off < 0x200000)
    (hok : hw.hostWriteOk s (0x3000000 + off) = true) (hwr : hw.wrBytes (sqMem s + off) bs = (g, true)) :
    hw.storeWin s (0x3000000 + off) bs = (g, stOK) := by
  have haddr : storeAddr (hw.sqOf s) s (0x3000000 + off) = sqMem s + off := by
    simp only [storeAddr, regionOf_mem ho, sqMem, Nat.add_assoc]
  simp only [storeWin, regionOf_mem ho, haddr, hok, hwr, if_true]

/-! ### What a micro-op does (03/R101 to R103, 07/T7-4). -/

/-- The registers of a program, and a source operand as it reads them (03/T3-7). -/
def Hw.cpRegs (hw : Hw) (s l : Nat) : Regs := ⟨(hw.cpOf s l).w, (hw.cpOf s l).f⟩
def Hw.cpOperand (hw : Hw) (s l : Nat) (c : BitVec 4) : Int :=
  operand (hw.cpConsts s (hw.cpOf s l).base) (hw.cpRegs s l) c

theorem Hw.memAwake_cpOperand {hw : Hw} {s : Nat} (hkept : hw.memKept s) (l : Nat) (c : BitVec 4) :
    (hw.memAwake s).cpOperand s l c = hw.cpOperand s l c := by
  simp only [cpOperand, cpRegs, memAwake_cpOf hkept, memAwake_cpConsts hkept]

/-- The opcodes that every kind of program has, and that change nothing but its registers (03/T3-8). -/
def Op.isShared (o : Op) : Bool := isAlu o || isCmp o || o == .nop

section
variable {hw : Hw} {s l : Nat} {u : Uop}

/-- END ends the program and signals the square's source (07/R252, R254). -/
theorem Hw.cpExec_fin (h : u.op = .fin) :
    hw.cpExec s l u = (hw.modCp s l fun p => { p with run := false }).irq (96 + s) := by
  simp only [cpExec, h, if_true]

/-- A micro-op whose predicate is false only goes on (03/R101). -/
theorem Hw.cpExec_skip (hfin : u.op ≠ .fin) (hp : u.holds (hw.cpOf s l).f = false) : hw.cpExec s l u = hw.cpNext s l := by
  simp only [cpExec, hfin, hp, Bool.not_false, if_false, if_true]

section
variable (hp : u.holds (hw.cpOf s l).f = true)
include hp

theorem Hw.cpExec_shared (h : u.op.isShared = true) {r : Regs}
    (hr : sharedStep u (hw.cpConsts s (hw.cpOf s l).base) (hw.cpRegs s l) = r) :
    hw.cpExec s l u = (hw.modCp s l fun p => { p with w := r.w, f := r.f }).cpNext s l := by
  subst hr
  have hfin : u.op ≠ .fin := fun hop => by simp [hop, Op.isShared, isAlu, isCmp] at h
  simp only [cpExec, hfin, hp, Bool.not_true, Bool.false_eq_true, if_false]
  split
  case h_7 => rfl
  all_goals rename_i hop; simp [hop, Op.isShared, isAlu, isCmp] at h

theorem Hw.cpExec_jmp (h : u.op = .jmp) : hw.cpExec s l u = hw.modCp s l fun p => { p with pc := fld u.im 7 0 } := by
  simp [cpExec, h, hp]

/-- LDW loads a word that is readable. -/
theorem Hw.cpExec_ldw (h : u.op = .ldw) {off : Nat} (ha : cpAddr (hw.cpOperand s l u.a + 4 * (fld u.im 10 0 : Nat)) 4 = some off)
    (hbad : hw.poisoned (sqMem s + off) 4 = false) :
    hw.cpExec s l u = (hw.modCp s l fun p => { p with
      w := mset p.w u.d.toNat (sext 24 (hw.rdN (sqMem s + off) 4)) }).cpNext s l := by
  unfold cpOperand cpRegs at ha
  simp [cpExec, h, hp, ha, hbad]

/-- STW stores a word where a host write may store. -/
theorem Hw.cpExec_stw (h : u.op = .stw) {off : Nat} (ha : cpAddr (hw.cpOperand s l u.a + 4 * (fld u.im 10 0 : Nat)) 4 = some off)
    (hok : hw.hostWriteOk s (0x3000000 + off) = true) (hbad : hw.poisoned (sqMem s + off) 4 = false) :
    hw.cpExec s l u = (hw.wr (sqMem s + off) (leBytes 4 (toField 32 (hw.cpOperand s l u.b)))).cpNext s l := by
  obtain ⟨h4, hin⟩ := cpAddr_word ha
  have hstore (v : Nat) : hw.storeWin s (0x3000000 + off) (leBytes 4 v) = (hw.wr (sqMem s + off) (leBytes 4 v), stOK) :=
    Hw.storeWin_mem (by omega) hok (Hw.wrBytes_four (by unfold sqMem winBase; omega) (length_leBytes 4 v) hbad)
  unfold cpOperand cpRegs at ha ⊢
  simp [cpExec, h, hp, ha, hstore, stOK, stBUSY, stECC]

end

end

/-! ### One step of the shared micro-ops (03/R101 to R104, T3-8). -/

/-- A compare writes no register. -/
theorem isAlu_of_isCmp {o : Op} (h : isCmp o = true) : isAlu o = false := by
  revert h
  cases o <;> decide

section
variable {u : Uop} {k : List Int} {r : Regs} (hp : u.holds r.f = true)
include hp

theorem sharedStep_alu (h : isAlu u.op = true) :
    sharedStep u k r = r.set u.d.toNat (aluValue u.op (operand k r u.a) (operand k r u.b) u.im) := by
  simp only [sharedStep, hp, h, if_true]

theorem sharedStep_cmp (h : isCmp u.op = true) :
    sharedStep u k r = { r with f := cmpFlag u.op (operand k r u.a) (operand k r u.b) } := by
  simp only [sharedStep, hp, h, isAlu_of_isCmp h, if_true, Bool.false_eq_true, if_false]

theorem sharedStep_nop (h : u.op = .nop) : sharedStep u k r = r := by
  simp only [sharedStep, hp, h, isAlu, isCmp, if_true, Bool.false_eq_true, if_false]

end

theorem sat24_eq (x : Int) : sat24 x = max (-8388608) (min 8388607 x) := by
  unfold sat24 clampInt
  split
  · omega
  · split <;> omega

theorem natCast_two_pow (n : Nat) : ((2 ^ n : Nat) : Int) = 2 ^ n := Int.natCast_pow 2 n

theorem asr_eq (x : Int) (n : Nat) : asr x n = Int.fdiv x (2 ^ n) := by
  rw [asr, natCast_two_pow]

theorem mulShift_eq (a b : Int) (imm : Nat) :
    mulShift a b imm
      = if imm.testBit 5 then Int.tdiv (a * b) (2 ^ fld imm 4 0) else Int.fdiv (a * b) (2 ^ fld imm 4 0) := by
  rw [mulShift, asr_eq, natCast_two_pow]

/-- A negative operand of ABS changes its sign. -/
theorem aluValue_abs (a b : Int) (imm : Nat) : aluValue .abs a b imm = (a.natAbs : Int) := by
  simp only [aluValue]
  split <;> omega

theorem sext_toNat (v : BitVec 13) : sext 13 v.toNat = v.toInt := by
  have hv : v.toNat < 2 ^ 13 := v.isLt
  rw [BitVec.toInt_eq_toNat_cond, sext, Nat.mod_eq_of_lt hv]
  by_cases h : v.toNat < 2 ^ (13 - 1)
  · rw [if_pos h, if_pos (by omega)]
  · rw [if_neg h, if_neg (by omega)]

/-! ### The issue of the present micro-op while words remain (07/R252). -/

section
variable {hw : Hw} {s l : Nat} {u : Uop} (hmore : (hw.cpOf s l).pc + 1 < (hw.cpOf s l).len)
include hmore

theorem Hw.cpIssue_skip (hpres : hw.present s l u) (hp : u.holds (hw.cpOf s l).f = false) (hfin : u.op ≠ .fin) :
    hw.cpIssue s l u.op = (hw.memAwake s).modCp s l fun p => { p with pc := p.pc + 1 } := by
  have hcp := Hw.memAwake_cpOf hpres.memKept l
  rw [Hw.cpIssue_present hpres, Hw.cpExec_skip hfin (by rw [hcp, hp]), Hw.cpNext_more (by rw [hcp]; exact hmore)]

variable (hi : hw.issues s l u)
include hi

theorem Hw.cpIssue_shared (h : u.op.isShared = true) {r : Regs}
    (hr : sharedStep u (hw.cpConsts s (hw.cpOf s l).base) (hw.cpRegs s l) = r) :
    hw.cpIssue s l u.op = (hw.memAwake s).modCp s l fun p => { p with w := r.w, f := r.f, pc := p.pc + 1 } := by
  obtain ⟨hpres, hp⟩ := hi
  have hkept := hpres.memKept
  have hcp := Hw.memAwake_cpOf hkept l
  rw [Hw.cpIssue_present hpres, Hw.cpExec_shared (r := r) (by rw [hcp, hp]) h
    (by rw [cpRegs, hcp, Hw.memAwake_cpConsts hkept]; exact hr), Hw.cpNext_modCp rfl rfl (by rw [hcp]; exact hmore)]

theorem Hw.cpIssue_alu (h : isAlu u.op = true) :
    hw.cpIssue s l u.op = (hw.memAwake s).modCp s l fun p => { p with
      w := mset p.w u.d.toNat (sat24 (aluValue u.op (hw.cpOperand s l u.a) (hw.cpOperand s l u.b) u.im)), pc := p.pc + 1 } := by
  have hshared : u.op.isShared = true := by simp only [Op.isShared, h, Bool.true_or]
  rw [Hw.cpIssue_shared hmore hi hshared (sharedStep_alu hi.2 h)]
  exact Hw.modCp_congr (by rw [Hw.memAwake_cpOf hi.1.memKept]; rfl)

theorem Hw.cpIssue_cmp (h : isCmp u.op = true) :
    hw.cpIssue s l u.op = (hw.memAwake s).modCp s l fun p => { p with
      f := cmpFlag u.op (hw.cpOperand s l u.a) (hw.cpOperand s l u.b), pc := p.pc + 1 } := by
  have hshared : u.op.isShared = true := by simp only [Op.isShared, h, Bool.true_or, Bool.or_true]
  rw [Hw.cpIssue_shared hmore hi hshared (sharedStep_cmp hi.2 h)]
  exact Hw.modCp_congr (by rw [Hw.memAwake_cpOf hi.1.memKept]; rfl)

theorem Hw.cpIssue_nop (h : u.op = .nop) :
    hw.cpIssue s l u.op = (hw.memAwake s).modCp s l fun p => { p with pc := p.pc + 1 } := by
  have hshared : u.op.isShared = true := by rw [h]; rfl
  rw [Hw.cpIssue_shared hmore hi hshared (sharedStep_nop hi.2 h)]
  exact Hw.modCp_congr (by rw [Hw.memAwake_cpOf hi.1.memKept]; rfl)

omit hmore in
theorem Hw.cpIssue_jmp (h : u.op = .jmp) :
    hw.cpIssue s l u.op = (hw.memAwake s).modCp s l fun p => { p with pc := fld u.im 7 0 } := by
  obtain ⟨hpres, hp⟩ := hi
  rw [Hw.cpIssue_present hpres, Hw.cpExec_jmp (by rw [Hw.memAwake_cpOf hpres.memKept, hp]) h]

section
variable {off : Nat} (hoff : cpAddr (hw.cpOperand s l u.a + 4 * (fld u.im 10 0 : Nat)) 4 = some off)
  (hbad : hw.poisoned (sqMem s + off) 4 = false)
include hoff hbad

theorem Hw.cpIssue_ldw (h : u.op = .ldw) :
    hw.cpIssue s l u.op = (hw.memAwake s).modCp s l fun p => { p with
      w := mset p.w u.d.toNat (sext 24 (hw.rdN (sqMem s + off) 4)), pc := p.pc + 1 } := by
  obtain ⟨hpres, hp⟩ := hi
  have hkept := hpres.memKept
  have hcp := Hw.memAwake_cpOf hkept l
  rw [Hw.cpIssue_present hpres, Hw.cpExec_ldw (by rw [hcp, hp]) h (by rw [Hw.memAwake_cpOperand hkept]; exact hoff)
    (by rw [Hw.memAwake_poisoned hkept, hbad]), Hw.memAwake_rdN hkept,
    Hw.cpNext_modCp rfl rfl (by rw [hcp]; exact hmore)]

theorem Hw.cpIssue_stw (h : u.op = .stw) (hok : hw.hostWriteOk s (0x3000000 + off) = true) :
    hw.cpIssue s l u.op = ((hw.memAwake s).modCp s l fun p => { p with pc := p.pc + 1 }).wr (sqMem s + off)
      (leBytes 4 (toField 32 (hw.cpOperand s l u.b))) := by
  obtain ⟨hpres, hp⟩ := hi
  have hkept := hpres.memKept
  have hcp := Hw.memAwake_cpOf hkept l
  rw [Hw.cpIssue_present hpres, Hw.cpExec_stw (by rw [hcp, hp]) h (by rw [Hw.memAwake_cpOperand hkept]; exact hoff)
    (by rw [Hw.memAwake_hostWriteOk hkept, hok]) (by rw [Hw.memAwake_poisoned hkept, hbad]), Hw.memAwake_cpOperand hkept,
    Hw.cpNext_wr (by rw [hcp]; exact hmore)]

end

end

/-- The command of a micro-op issues its own opcode, and does what that does. -/
theorem exec_of_cpIssue {i : Instr} {op : Op} {q : Fin 64} {l : Fin 18} {s : State} {g : Hw}
    (hexec : exec i s = .next (s.withHw (s.hw.cpIssue q l op))) (hg : s.hw.cpIssue q l op = g) :
    exec i s = .next (s.withHw g) := by
  rw [hexec, hg]

/-- Settles O24: the micro-op writes D with its exact value, which saturates. -/
theorem arithmeticMicroOps : Obligations.ArithmeticMicroOps := by
  unfold Obligations.ArithmeticMicroOps
  intro q l u s hi hmore r a b n hr ha hb hn
  subst hr hn
  have hissue {op : Op} {i : Instr} {v : Int} (hexec : exec i s = .next (s.withHw (s.hw.cpIssue q l op)))
      (halu : isAlu op = true) (hv : aluValue op a b u.im = v) (hop : u.op = op) :
      exec i s = .next (s.withHw ((s.hw.memAwake q).modCp q l fun p => { p with
        w := mset p.w u.d.toNat (max (-8388608) (min 8388607 v)), pc := p.pc + 1 })) := by
    subst hop hv ha hb
    simp only [← sat24_eq]
    exact exec_of_cpIssue hexec (Hw.cpIssue_alu hmore hi halu)
  simp only [List.forall_mem_cons]
  exact ⟨hissue rfl rfl rfl, hissue rfl rfl rfl, hissue rfl rfl (mulShift_eq a b u.im), hissue rfl rfl (asr_eq a _),
    hissue rfl rfl (by rw [aluValue, natCast_two_pow]), hissue rfl rfl (Int.min_def a b).symm,
    hissue rfl rfl (Int.max_def a b).symm, hissue rfl rfl (aluValue_abs a b u.im), hissue rfl rfl rfl, hissue rfl rfl rfl,
    hissue rfl rfl (sext_toNat u.imm), List.forall_mem_nil _⟩

/-- Settles O25: each command issues its own opcode, and what that does follows from the opcode and the predicate. -/
theorem otherMicroOps : Obligations.OtherMicroOps := by
  unfold Obligations.OtherMicroOps
  intro q l s
  refine ⟨fun hready hoff => ?off, fun u hpres => ⟨fun hop => ?fin, fun hmore r a b go hr ha hb hgo =>
    ⟨fun hp => ⟨fun hop => ?nop, ?cmp, fun hop => ?jmp, fun hop off hoff hbad => ?ldw, fun hop off hoff hok hbad => ?stw⟩,
      fun hp => ?skip⟩⟩⟩
  case off =>
    have hissue {op : Op} {i : Instr} (hexec : exec i s = .next (s.withHw (s.hw.cpIssue q l op))) :
        exec i s = .next (s.withHw (s.hw.cpError q l stABSENT)) :=
      exec_of_cpIssue hexec (Hw.cpIssue_memOff op hready hoff)
    simp only [List.forall_mem_cons, List.not_mem_nil, false_implies, implies_true, and_true]
    and_intros
    all_goals exact hissue rfl
  all_goals
    have hissue {op : Op} {i : Instr} {g : Hw} (hexec : exec i s = .next (s.withHw (s.hw.cpIssue q l op))) (hop : u.op = op)
        (hg : s.hw.cpIssue q l u.op = g) : exec i s = .next (s.withHw g) := exec_of_cpIssue hexec (hop ▸ hg)
  case fin => exact hissue rfl hop ((Hw.cpIssue_present hpres).trans (Hw.cpExec_fin hop))
  all_goals subst hr ha hb hgo
  case nop => exact hissue rfl hop (Hw.cpIssue_nop hmore ⟨hpres, hp⟩ hop)
  case jmp => exact hissue rfl hop (Hw.cpIssue_jmp ⟨hpres, hp⟩ hop)
  case ldw => exact hissue rfl hop (Hw.cpIssue_ldw hmore ⟨hpres, hp⟩ hoff hbad hop)
  case stw => exact hissue rfl hop (Hw.cpIssue_stw hmore ⟨hpres, hp⟩ hoff hbad hop hok)
  case cmp =>
    have hcmp (hc : isCmp u.op = true) := Hw.cpIssue_cmp hmore ⟨hpres, hp⟩ hc
    simp only [List.forall_mem_cons]
    refine ⟨fun hop => ?ge, fun hop => ?lt, fun hop => ?eq, fun hop => ?nz, List.forall_mem_nil _⟩
    all_goals
      rw [hop] at hcmp
      exact exec_of_cpIssue rfl (hcmp rfl)
  case skip =>
    have hskip (hfin : u.op ≠ .fin) := Hw.cpIssue_skip hmore hpres hp hfin
    simp only [List.forall_mem_cons, List.not_mem_nil, false_implies, implies_true, and_true]
    and_intros
    all_goals exact fun hop => hissue rfl hop (hskip (by rw [hop]; decide))

end Sys2Proof.Machine
end

section
/-! PROOFS. Chapters 03 and 05: the registers of a core, the reloads of table and rule images, and the ends of their checks
(03/R121 to R126, 05/R172, R182). -/

namespace Sys2Proof.Machine

/-! ### Writes of the registers of a core (01/T1-8, R38, R39). -/

/-- The window offset of a register of a core. -/
def coreOff (c : CoreRef) (o : Nat) : Nat :=
  match c with
  | .logical l => if l.val < 16 then 0x3810000 + 0x1000 * l.val + o else 0x3870000 + 0x1000 * (l.val - 16) + o
  | .slot p => 0x3C00000 + 0x10000 * p + o

theorem coreReg_eq (s : Nat) (c : CoreRef) (o : Nat) : coreReg s c o = sqAddr s (coreOff c o) := by cases c <;> rfl

theorem coreOff_sub {c : CoreRef} {o n : Nat} (h : n ≤ o) : coreOff c o - n = coreOff c (o - n) := by
  cases c <;> simp only [coreOff]
  · split <;> omega
  · omega

section
variable {c : CoreRef} {o : Nat} (ho : o < 0x1000)
include ho

/-- The register lies in one of the three core ranges. -/
theorem coreOff_range :
    0x3810000 ≤ coreOff c o ∧ coreOff c o < 0x3820000 ∨ 0x3870000 ≤ coreOff c o ∧ coreOff c o < 0x3872000
      ∨ 0x3C00000 ≤ coreOff c o ∧ coreOff c o < 0x3D30000 := by
  cases c <;> simp only [coreOff]
  · split <;> omega
  · omega

theorem regionOf_coreOff : regionOf (coreOff c o) = .reg := by
  rcases coreOff_range (c := c) ho with h | h | h <;> simp (disch := omega) only [regionOf, if_pos, if_neg]

theorem Hw.sqReg64_coreOff (hw : Hw) (s : Nat) : hw.sqReg64 s (coreOff c o) = none := by
  have := coreOff_range (c := c) ho
  unfold sqReg64
  rw [if_neg (by omega), if_neg (by omega), if_neg (by omega), if_neg (by omega)]

/-- It is a register of the slot that the core names. -/
theorem Hw.coreSlot_coreOff (hw : Hw) (s : Nat) : coreSlot (hw.sqOf s) (coreOff c o) = some (hw.slotNamed s c, o) := by
  cases c with
  | logical l =>
    by_cases h16 : l.val < 16
    · have hoff : coreOff (.logical l) o = 0x3810000 + 0x1000 * l.val + o := if_pos h16
      have hl : (0x3810000 + 0x1000 * l.val + o - 0x3810000) / 0x1000 = l.val := by omega
      have hreg : (0x3810000 + 0x1000 * l.val + o) % 0x1000 = o := by omega
      rw [coreSlot, hoff, if_pos (by omega), hl, hreg, slotNamed]
    · have hoff : coreOff (.logical l) o = 0x3870000 + 0x1000 * (l.val - 16) + o := if_neg h16
      have hl : 16 + (0x3870000 + 0x1000 * (l.val - 16) + o - 0x3870000) / 0x1000 = l.val := by omega
      have hreg : (0x3870000 + 0x1000 * (l.val - 16) + o) % 0x1000 = o := by omega
      rw [coreSlot, hoff, if_neg (by omega), if_pos (by omega), hl, hreg, slotNamed]
  | slot p =>
    have hoff : coreOff (.slot p) o = 0x3C00000 + 0x10000 * p.val + o := rfl
    have hp : (0x3C00000 + 0x10000 * p.val + o - 0x3C00000) / 0x10000 = p.val := by omega
    have hreg : (0x3C00000 + 0x10000 * p.val + o) % 0x10000 = o := by omega
    rw [coreSlot, hoff, if_neg (by omega), if_neg (by omega), if_pos (by omega), hp, hreg, slotNamed]

/-- A present core has its registers. -/
theorem Hw.regAbsent_coreOff {hw : Hw} {s : Nat} (hslot : hw.slotNamed s c < 19) :
    (hw.sqOf s).regAbsent (coreOff c o) = false := by
  have := coreOff_range (c := c) ho
  simp only [Square.regAbsent, Hw.coreSlot_coreOff ho]
  rw [if_neg (by omega), decide_eq_false (by omega)]

omit ho in
theorem Hw.slotWritable.carries {hw : Hw} {ini : Initiator} {s : Nat} (h : hw.slotWritable ini s c) :
    ((hw.sqOf s).coreFor (hw.slotNamed s c)).isSome = true := h.2.2.1

/-- Only the physical-slot window keeps initiators out (01/R39). -/
theorem Hw.sqWrite_coreOff {hw : Hw} {ini : Initiator} {s v : Nat} (h : hw.slotWritable ini s c) :
    hw.sqWrite ini s (coreOff c o) v = (hw.coreWrite s (hw.slotNamed s c) o v, stOK) := by
  obtain ⟨-, hslot, -, hini⟩ := h
  have hwin : (decide (0x3C00000 ≤ coreOff c o) && !mayWriteSlots ini) = false := by
    cases c with
    | logical l =>
      rw [decide_eq_false, Bool.false_and]
      simp only [coreOff]
      split <;> omega
    | slot p =>
      have hmay : mayWriteSlots ini = true := hini
      rw [hmay, Bool.not_true, Bool.and_false]
  simp only [sqWrite, Hw.regAbsent_coreOff ho hslot, hwin, Hw.coreSlot_coreOff ho, Bool.false_eq_true, if_false]

theorem Hw.doWrite_coreReg {hw : Hw} {ini : Initiator} {q : Fin 64} (v : Word) (h : hw.slotWritable ini q c) (h4 : 4 ≤ o) :
    hw.doWrite ini (coreReg q c o) v.toNat = (hw.coreWrite q (hw.slotNamed q c) o v.toNat).answer 0 stOK := by
  have ⟨hserves, hslot, _⟩ := h
  have hin : coreOff c o < 0x4000000 := by have := coreOff_range (c := c) ho; omega
  have hlow : o - 4 < 0x1000 := by omega
  have hsub : coreOff c o - 4 = coreOff c (o - 4) := coreOff_sub h4
  rw [coreReg_eq, Hw.doWrite_sq ini v q.isLt hin (regionOf_coreOff ho) (hsub ▸ regionOf_coreOff hlow) hserves
    (Hw.regAbsent_coreOff ho hslot) (hw.sqReg64_coreOff ho q) (hsub ▸ hw.sqReg64_coreOff hlow q), Hw.sqWrite_coreOff ho h]

end

/-! ### What the writes do (03/R121, R126, 05/R172, R182). -/

section
variable {hw : Hw} {s p : Nat} (hp : ((hw.sqOf s).coreFor p).isSome = true)
include hp

theorem Hw.coreWrite_coreCtl : hw.coreWrite s p 0x004 (1 : Word).toNat = hw.reload s p := by
  simp [coreWrite, Option.isNone_eq_false_iff.mpr hp]

theorem Hw.coreWrite_ruleCtl : hw.coreWrite s p 0x200 (1 : Word).toNat = hw.ruleReload s p := by
  simp [coreWrite, Option.isNone_eq_false_iff.mpr hp]

theorem Hw.coreWrite_lfsr (v : Word) :
    hw.coreWrite s p 0x20C v.toNat
      = if hw.inJob s p = true ∨ v = 0 then hw else (hw.controlSaved s).modSlot s p fun k => { k with lfsr := v } := by
  have hzero : v.toNat % 2 ^ 32 = 0 ↔ v = 0 := by rw [word_mod, ← BitVec.toNat_inj]; rfl
  simp only [coreWrite, Option.isNone_eq_false_iff.mpr hp, hzero, BitVec.ofNat_toNat, BitVec.setWidth_eq, Bool.false_eq_true,
    if_false]

end

/-! ### Updates of a slot. -/

/-- What two updates make of the present slot is all that they do. -/
theorem Hw.modSlot_congr {hw : Hw} {s p : Nat} {f g : Slot → Slot} (h : f (hw.slotOf s p) = g (hw.slotOf s p)) :
    hw.modSlot s p f = hw.modSlot s p g :=
  congrArg (fun k => { hw with slot := mset hw.slot (s * 19 + p) k }) h

theorem Hw.modSlot_modSlot (hw : Hw) (s p : Nat) (f g : Slot → Slot) :
    (hw.modSlot s p f).modSlot s p g = hw.modSlot s p fun k => g (f k) := by
  simp only [modSlot, mupd_mupd]

/-! ### Reads that meet no sleeping bank group and no bad path parity (09/R306, 12/R396). -/

theorem Hw.checkReads_settled {hw : Hw} {s : Nat} {rs : List (Nat × Nat)} (hpath : hw.banks.path = [])
    (hsettled : (hw.sqOf s).asleep (groupsRead s rs) = []) : hw.checkReads s rs = hw := by
  have hbanks : hw.readBanks s rs = hw := by rw [readBanks, Hw.useBanks_settled hsettled, ite_self]
  simp only [checkReads, hbanks, hpath, List.filter_nil, List.foldl_nil]

/-- An image in square memory lies in its bank group alone (12/T12-1). -/
theorem groupsRead_imageRead {s base size : Nat} (hsize : 0 < size) (hend : base + size ≤ 0x200000) :
    groupsRead s (imageRead s base size) = [19] := by
  have hmeets : ∀ g ∈ List.range 28, (imageRead s base size).any (fun r => decide (0 < r.2
      ∧ r.1 < (bankRange s g).1 + (bankRange s g).2 ∧ (bankRange s g).1 < r.1 + r.2)) = decide (g = 19) := by
    intro g hg
    have hg28 : g < 28 := List.mem_range.mp hg
    rw [imageRead, List.any_cons, List.any_nil, Bool.or_false, decide_eq_decide]
    simp only [bankRange, slotState, sqMem, synTier, mirTier]
    split
    · dsimp only; omega
    · split
      · dsimp only; omega
      · split <;> dsimp only <;> omega
  rw [groupsRead, List.filter_congr hmeets]
  rfl

/-- The control block changes at once when no copy of it is pending (09/R324). -/
theorem Hw.controlSaved_idle {hw : Hw} {s : Nat} (h : (hw.sqOf s).flt.pend.contains .control = false) :
    hw.controlSaved s = hw := by
  simp only [controlSaved, unitRead, copyFully, h, Bool.false_eq_true, if_false]

/-! ### Samples of an image (03/R121, R125, 05/R172). -/

section
variable {hw : Hw} {s p : Nat}

theorem Hw.reload_busy (h : (hw.slotOf s p).checking = true) : hw.reload s p = hw.reloadFails s p stBUSY := by
  simp only [reload, h, if_true]

theorem Hw.ruleReload_busy (h : (hw.slotOf s p).rChecking = true) : hw.ruleReload s p = hw.ruleFails s p stBUSY := by
  simp only [ruleReload, h, if_true]

section
variable (h : (hw.slotOf s p).checking = false)
include h

theorem Hw.reload_beyond (hend : 0x200000 < (hw.slotOf s p).tblBase + tableSize) :
    hw.reload s p = hw.reloadFails s p stBADPARAM := by
  simp only [reload, h, hend, Bool.false_eq_true, if_false, if_true]

variable (hend : (hw.slotOf s p).tblBase + tableSize ≤ 0x200000)
include hend

theorem Hw.reload_off (hoff : hw.memOff s = true) : hw.reload s p = hw.reloadFails s p stABSENT := by
  simp only [reload, h, Nat.not_lt.mpr hend, hoff, Bool.false_eq_true, if_false, if_true]

theorem Hw.reload_samples (hon : hw.memOff s = false) (hsettled : (hw.sqOf s).asleep [19] = []) (hpath : hw.banks.path = []) :
    hw.reload s p = hw.modSlot s p fun k => { k with
      checking := true, stagedT := some (hw.sampleImage s k.tblBase tableSize).1
      tEcc := (hw.sampleImage s k.tblBase tableSize).2 } := by
  have hreads := Hw.checkReads_settled (s := s) hpath
    ((groupsRead_imageRead (by decide) hend).symm ▸ hsettled)
  simp only [reload, h, Nat.not_lt.mpr hend, hon, hreads, Bool.false_eq_true, if_false]
  exact Hw.modSlot_congr rfl

end

section
variable (h : (hw.slotOf s p).rChecking = false)
include h

theorem Hw.ruleReload_beyond (hend : 0x200000 < (hw.slotOf s p).ruleBase + ruleSize) :
    hw.ruleReload s p = hw.ruleFails s p stBADPARAM := by
  simp only [ruleReload, h, hend, Bool.false_eq_true, if_false, if_true]

variable (hend : (hw.slotOf s p).ruleBase + ruleSize ≤ 0x200000)
include hend

theorem Hw.ruleReload_off (hoff : hw.memOff s = true) : hw.ruleReload s p = hw.ruleFails s p stABSENT := by
  simp only [ruleReload, h, Nat.not_lt.mpr hend, hoff, Bool.false_eq_true, if_false, if_true]

theorem Hw.ruleReload_samples (hon : hw.memOff s = false) (hsettled : (hw.sqOf s).asleep [19] = []) (hpath : hw.banks.path = []) :
    hw.ruleReload s p = hw.modSlot s p fun k => { k with
      rChecking := true, stagedR := some (hw.sampleImage s k.ruleBase ruleSize).1
      rEcc := (hw.sampleImage s k.ruleBase ruleSize).2 } := by
  have hreads := Hw.checkReads_settled (s := s) hpath
    ((groupsRead_imageRead (by decide) hend).symm ▸ hsettled)
  simp only [ruleReload, h, Nat.not_lt.mpr hend, hon, hreads, Bool.false_eq_true, if_false]
  exact Hw.modSlot_congr rfl

end

end

theorem exec_reload (ini : Initiator) (q : Fin 64) (c : CoreRef) (s : State) :
    exec (.reload ini q c) s = .next (s.withHw (s.hw.doWrite ini (coreReg q c 0x004) (1 : Word).toNat)) := rfl

theorem exec_ruleReload (ini : Initiator) (q : Fin 64) (c : CoreRef) (s : State) :
    exec (.ruleReload ini q c) s = .next (s.withHw (s.hw.doWrite ini (coreReg q c 0x200) (1 : Word).toNat)) := rfl

theorem exec_ruleLfsrWrite (ini : Initiator) (q : Fin 64) (c : CoreRef) (v : Word) (s : State) :
    exec (.ruleLfsrWrite ini q c v) s = .next (s.withHw (s.hw.doWrite ini (coreReg q c 0x20C) v.toNat)) := rfl

section
variable {ini : Initiator} {q : Fin 64} {c : CoreRef} {s : State} (h : s.hw.slotWritable ini q c)
include h

theorem exec_reload_writable :
    exec (.reload ini q c) s = .next (s.withHw ((s.hw.reload q (s.hw.slotNamed q c)).answer 0 stOK)) := by
  rw [exec_reload, Hw.doWrite_coreReg (by decide) 1 h (by decide), Hw.coreWrite_coreCtl h.carries]

theorem exec_ruleReload_writable :
    exec (.ruleReload ini q c) s = .next (s.withHw ((s.hw.ruleReload q (s.hw.slotNamed q c)).answer 0 stOK)) := by
  rw [exec_ruleReload, Hw.doWrite_coreReg (by decide) 1 h (by decide), Hw.coreWrite_ruleCtl h.carries]

theorem exec_ruleLfsrWrite_writable (v : Word) :
    exec (.ruleLfsrWrite ini q c v) s
      = .next (s.withHw ((if s.hw.inJob q (s.hw.slotNamed q c) = true ∨ v = 0 then s.hw
        else (s.hw.controlSaved q).modSlot q (s.hw.slotNamed q c) fun k => { k with lfsr := v }).answer 0 stOK)) := by
  rw [exec_ruleLfsrWrite, Hw.doWrite_coreReg (by decide) v h (by decide), Hw.coreWrite_lfsr h.carries]

end

/-- Settles O14: a served write reaches the slot, and a reload samples its image where the slot and square memory let it. -/
theorem reloadWrites : Obligations.ReloadWrites := by
  unfold Obligations.ReloadWrites
  intro ini q c v s h p k hp hk
  subst hp hk
  rw [exec_reload_writable h, exec_ruleReload_writable h, exec_ruleLfsrWrite_writable h]
  refine ⟨fun hchk => ?_, fun hchk hend => ?_, fun hchk hend hoff => ?_, fun hchk hend hon hsettled hpath => ?_,
    fun hchk => ?_, fun hchk hend => ?_, fun hchk hend hoff => ?_, fun hchk hend hon hsettled hpath => ?_,
    fun hjob hv => ?lfsr, fun hkept => ?kept⟩
  · rw [Hw.reload_busy hchk, Hw.reloadFails]
  · rw [Hw.reload_beyond hchk hend, Hw.reloadFails]
  · rw [Hw.reload_off hchk hend hoff, Hw.reloadFails]
  · rw [Hw.reload_samples hchk hend hon hsettled hpath]
  · rw [Hw.ruleReload_busy hchk, Hw.ruleFails]
  · rw [Hw.ruleReload_beyond hchk hend, Hw.ruleFails]
  · rw [Hw.ruleReload_off hchk hend hoff, Hw.ruleFails]
  · rw [Hw.ruleReload_samples hchk hend hon hsettled hpath]
  case lfsr =>
    rw [if_neg (not_or.mpr ⟨Bool.not_eq_true _ ▸ hjob, hv⟩)]
    refine ⟨⟨_, rfl, ?_⟩, fun hpend => ?_⟩
    · rw [State.withHw_hw, Hw.answer_slotOf, Hw.modSlot_slotOf_same]
    · rw [Hw.controlSaved_idle hpend]
  case kept => rw [if_pos hkept]

/-! ### The end of a check (03/R122, R123, 05/R172). -/

/-- A check ends with a status: the slot is no longer checking; when the check has failed, the slot takes the error and its flag
counts as set in this cycle; when not, the image waits while a job runs, and is in force at once while none does. -/
def Hw.checkEnds (hw : Hw) (s l st : Nat) (w : W1c) (ended err pend force : Slot → Slot) : Hw :=
  let hw := hw.modL s l ended
  if st ≠ stOK then (hw.modSlot s ((hw.sqOf s).slotFor l) err).rise w 4
  else if (hw.jobOfSq s).isSome then hw.modL s l pend
  else (hw.controlSaved s).modL s l force

section
variable {hw : Hw} {s l : Nat} (hl : (hw.sqOf s).slotFor l < 19)
include hl

theorem Hw.modL_present (f : Slot → Slot) : hw.modL s l f = hw.modSlot s ((hw.sqOf s).slotFor l) f := if_pos hl

theorem Hw.modL_lslot (f : Slot → Slot) : (hw.modL s l f).lslot s l = f (hw.lslot s l) := by
  rw [Hw.modL_present hl]
  simp only [lslot, Hw.modSlot_sqOf, hl, if_true, Hw.modSlot_slotOf_same]

theorem Hw.modL_modL (f g : Slot → Slot) : (hw.modL s l f).modL s l g = hw.modL s l fun k => g (f k) := by
  rw [Hw.modL_present hl f, Hw.modL_present (by rwa [Hw.modSlot_sqOf]), Hw.modSlot_sqOf, Hw.modSlot_modSlot, Hw.modL_present hl]

section
variable {st : Nat} {w : W1c} {ended err pend force : Slot → Slot}

theorem Hw.checkEnds_fails (hst : st ≠ stOK) :
    hw.checkEnds s l st w ended err pend force = (hw.modL s l fun k => err (ended k)).rise w 4 := by
  simp only [checkEnds, if_pos hst, Hw.modL_present hl, Hw.modSlot_sqOf, Hw.modSlot_modSlot]

theorem Hw.checkEnds_pends (hst : st = stOK) (hjob : (hw.jobOfSq s).isSome = true) :
    hw.checkEnds s l st w ended err pend force = hw.modL s l fun k => pend (ended k) := by
  have hjob' : ((hw.modL s l ended).jobOfSq s).isSome = true := by rw [Hw.modL_present hl]; exact hjob
  simp only [checkEnds, hst, ne_eq, not_true, hjob', Hw.modL_modL hl, if_false, if_true]

theorem Hw.checkEnds_inForce (hst : st = stOK) (hjob : hw.jobOfSq s = none)
    (hpend : (hw.sqOf s).flt.pend.contains .control = false) :
    hw.checkEnds s l st w ended err pend force = hw.modL s l fun k => force (ended k) := by
  have hjob' : (hw.modL s l ended).jobOfSq s = none := by rw [Hw.modL_present hl]; exact hjob
  have hsaved : (hw.modL s l ended).controlSaved s = hw.modL s l ended :=
    Hw.controlSaved_idle (by rwa [Hw.modL_present hl, Hw.modSlot_sqOf])
  simp only [checkEnds, hst, ne_eq, not_true, hjob', hsaved, Hw.modL_modL hl, Option.isSome_none, Bool.false_eq_true, if_false]

end

end

/-- A check of a table image ends, with every word read (03/R122, R123). -/
theorem Hw.reloadDone_eq {hw : Hw} {s l : Nat} {img : Image} (hl : (hw.sqOf s).slotFor l < 19) (hpath : hw.banks.path = [])
    (hchk : (hw.lslot s l).checking = true) (himg : (hw.lslot s l).stagedT = some img)
    (hsettled : (hw.sqOf s).asleep (groupsRead s (hw.tableReads s l)) = []) {st : Nat}
    (hst : st = hw.reloadStatus s l img (hw.lslot s l).tEcc) :
    hw.reloadDone s l = hw.checkEnds s l st (.core s ((hw.sqOf s).slotFor l))
      (fun k => { k with checking := false, stagedT := none, tEcc := false })
      (fun k => { k with reloadErr := true, errCode := st })
      (fun k => { k with pendT := some img }) (fun k => { k with table := some img, pendT := none }) := by
  simp only [reloadDone, hchk, himg, Hw.checkReads_settled hpath hsettled, ← hst, checkEnds, reloadFails, Hw.modL_present hl,
    Hw.modSlot_sqOf]

/-- A check of a rule image ends, with every word read (05/R172). -/
theorem Hw.ruleReloadDone_eq {hw : Hw} {s l : Nat} {img : Image} (hl : (hw.sqOf s).slotFor l < 19) (hpath : hw.banks.path = [])
    (hchk : (hw.lslot s l).rChecking = true) (himg : (hw.lslot s l).stagedR = some img)
    (hsettled : (hw.sqOf s).asleep (groupsRead s (hw.ruleReads s img.bytes)) = []) {st : Nat}
    (hst : st = hw.ruleReloadStatus s l img (hw.lslot s l).rEcc) :
    hw.ruleReloadDone s l = hw.checkEnds s l st (.rule s ((hw.sqOf s).slotFor l))
      (fun k => { k with rChecking := false, stagedR := none, rEcc := false })
      (fun k => { k with rErr := true, rErrCode := st })
      (fun k => { k with pendR := some img }) (fun k => { k with rule := some img, pendR := none }) := by
  simp only [ruleReloadDone, hchk, himg, Hw.checkReads_settled hpath hsettled, ← hst, checkEnds, ruleFails, Hw.modL_present hl,
    Hw.modSlot_sqOf]

theorem exec_reloadCheckDone (q : Fin 64) (l : Fin 18) (s : State) :
    exec (.reloadCheckDone q l) s = .next (s.withHw (s.hw.reloadDone q l)) := rfl

theorem exec_ruleReloadCheckDone (q : Fin 64) (l : Fin 18) (s : State) :
    exec (.ruleReloadCheckDone q l) s = .next (s.withHw (s.hw.ruleReloadDone q l)) := rfl

section
variable {hw : Hw} {s l : Nat} (hl : (hw.sqOf s).slotFor l < 19) (f : Slot → Slot)
include hl

/-- An update of the slot of a core changes nothing else. -/
theorem Hw.modL_frame : { hw.modL s l f with slot := hw.slot } = hw := by
  rw [Hw.modL_present hl]
  rfl

/-- With a flag set in this cycle, that is noted beside it. -/
theorem Hw.modL_rise_frame (w : W1c) : { (hw.modL s l f).rise w 4 with slot := hw.slot, risen := hw.risen } = hw := by
  rw [Hw.modL_present hl]
  rfl

theorem Hw.modL_rise_risen (w : W1c) : ((hw.modL s l f).rise w 4).risen = (w, 4) :: hw.risen := by
  rw [Hw.modL_present hl]
  rfl

end

/-- Settles O15: each check ends by its status and by whether a job runs, and only the slot takes what comes of it. -/
theorem reloadChecksEnd : Obligations.ReloadChecksEnd := by
  unfold Obligations.ReloadChecksEnd
  intro q l img s hl hpath
  refine ⟨fun hchk himg hsettled st hst k hk => ?table, fun hchk himg hsettled st hst k hk => ?rule⟩
  case' table => rw [exec_reloadCheckDone, Hw.reloadDone_eq hl hpath hchk himg hsettled hst]
  case' rule => rw [exec_ruleReloadCheckDone, Hw.ruleReloadDone_eq hl hpath hchk himg hsettled hst]
  all_goals
    subst hk
    refine ⟨fun hbad => ?fails, fun hok hjob => ?pends, fun hok hjob hpend => ?inForce⟩
    case fails =>
      rw [Hw.checkEnds_fails hl hbad]
      exact ⟨_, rfl, Hw.modL_rise_frame hl _ _, Hw.modL_rise_risen hl _ _, Hw.modL_lslot hl _⟩
    case pends =>
      rw [Hw.checkEnds_pends hl hok hjob]
      exact ⟨_, rfl, Hw.modL_frame hl _, Hw.modL_lslot hl _⟩
    case inForce =>
      rw [Hw.checkEnds_inForce hl hok hjob hpend]
      exact ⟨_, rfl, Hw.modL_frame hl _, Hw.modL_lslot hl _⟩

end Sys2Proof.Machine
end

section
/-! PROOFS. Chapters 00, 04 and 12: numbers in memory and their odd parity, words that can be read, and the use of bank groups
(00/R10, 04/R141, 12/R395, R396, R404). -/

namespace Sys2Proof.Machine

/-! ### Numbers read from memory (00/R10). -/

theorem memReadN_congr {m m' : List Host.Cell} {a n : Nat} (h : ∀ x, a ≤ x → x < a + n → memRead m x = memRead m' x) :
    memReadN m a n = memReadN m' a n := by
  induction n generalizing a with
  | zero => rfl
  | succ n ih =>
    rw [memReadN, memReadN, h a (by omega) (by omega), ih fun x hx hxn => h x (by omega) (by omega)]

/-- Two memories that agree on some bytes agree on the number that these spell. -/
theorem Hw.rdN_congr {hw g : Hw} {a n : Nat} (h : ∀ x, a ≤ x → x < a + n → memRead hw.banks.mem x = memRead g.banks.mem x) :
    hw.rdN a n = g.rdN a n := by rw [rdN, rdN, rd, rd, memReadN_congr h]

theorem Hw.rdN_of_banks {hw g : Hw} (h : hw.banks = g.banks) (a n : Nat) : hw.rdN a n = g.rdN a n := by rw [rdN, rdN, rd, rd, h]

section
variable {hw : Hw} (hwf : Memory.wf hw.banks.mem = true) {a : Nat}
include hwf

theorem Hw.rdN_wr_leBytes (n v : Nat) : (hw.wr a (leBytes n v)).rdN a n = v % 256 ^ n := by
  have hback := memReadN_memWriteN (a := a) (leBytes n v) hwf
  rw [length_leBytes] at hback
  rw [rdN, rd, wr_mem, hback, ofLe_leBytes_mod]

theorem Hw.rdN_wr_out {bs : List Byte} {b n : Nat} (h : b + n ≤ a ∨ a + bs.length ≤ b) : (hw.wr a bs).rdN b n = hw.rdN b n :=
  Hw.rdN_congr fun x hx hxn => memRead_memWriteN_out bs (by omega) hwf

end

theorem Hw.rdN_one_lt (hw : Hw) (a : Nat) : hw.rdN a 1 < 256 := (memRead hw.banks.mem a).isLt

/-- The last byte of a 32-bit word holds its high bits. -/
theorem Hw.rdN_last_byte (hw : Hw) (a : Nat) : hw.rdN (a + 3) 1 = hw.rdN a 4 / 2 ^ 24 := by
  simp only [rdN, rd, memReadN, ofLe, Nat.add_assoc, Nat.reduceAdd]
  omega

/-! ### Odd parity in bit 0 (04/R141). -/

theorem popCount_succ (n v : Nat) : popCount (n + 1) v = v % 2 + popCount n (v / 2) := by
  have hmap : ((List.range n).map Nat.succ).filter (fun i => v.testBit i)
      = ((List.range n).filter fun i => (v / 2).testBit i).map Nat.succ := by
    rw [List.filter_map]
    exact congrArg _ (List.filter_congr fun i _ => Nat.testBit_succ v i)
  have hzero : v.testBit 0 = decide (v % 2 = 1) := Nat.testBit_zero v
  rw [popCount, popCount, ofMask, ofMask, List.range_succ_eq_map, List.filter_cons, hmap, hzero]
  by_cases h : v % 2 = 1
  · simp only [h, decide_true, if_true, List.length_cons, List.length_map]; omega
  · simp only [h, decide_false, Bool.false_eq_true, if_false, List.length_map]; omega

theorem oddBit0_cases (n w : Nat) : oddBit0 n w = w / 2 * 2 ∧ xorBits n (w / 2 * 2) = true
    ∨ oddBit0 n w = w / 2 * 2 + 1 ∧ xorBits n (w / 2 * 2) = false := by
  cases h : xorBits n (w / 2 * 2) with
  | true => exact .inl ⟨if_pos h, rfl⟩
  | false => exact .inr ⟨if_neg (by rw [h]; decide), rfl⟩

/-- The parity bit changes no other bit of a word. -/
theorem oddBit0_div_two (n w : Nat) : oddBit0 n w / 2 = w / 2 := by
  rcases oddBit0_cases n w with ⟨h, _⟩ | ⟨h, _⟩ <;> rw [h] <;> omega

/-- A word with its parity bit set holds an odd number of ones. -/
theorem xorBits_oddBit0 (n w : Nat) : xorBits (n + 1) (oddBit0 (n + 1) w) = true := by
  rcases oddBit0_cases (n + 1) w with ⟨h, hx⟩ | ⟨h, hx⟩ <;> rw [h]
  · exact hx
  · have heven : w / 2 * 2 / 2 = w / 2 := by omega
    have hodd : (w / 2 * 2 + 1) / 2 = w / 2 := by omega
    simp only [xorBits, popCount_succ, heven, hodd, beq_eq_false_iff_ne, beq_iff_eq] at hx ⊢
    omega

/-! ### Words that can be read (09/R306, R307, 12/R404). -/

theorem Hw.poisoned_of_banks {hw g : Hw} (h : hw.banks = g.banks) (a n : Nat) : hw.poisoned a n = g.poisoned a n := by
  simp only [poisoned, hasPoison, h]

theorem Hw.poisoned_eq_false {hw : Hw} {a n : Nat} : hw.poisoned a n = false
    ↔ (∀ w ∈ hw.banks.poison, ¬(w * 8 < a + n ∧ a < w * 8 + 8)) ∧ ∀ w ∈ hw.banks.path, ¬(w * 8 < a + n ∧ a < w * 8 + 8) := by
  simp only [poisoned, hasPoison, Bool.or_eq_false_iff, List.any_eq_false, decide_eq_true_eq]

/-- Bytes of a range that can be used can be used. -/
theorem Hw.poisoned_part {hw : Hw} {a n b m : Nat} (h : hw.poisoned a n = false) (hab : a ≤ b) (hend : b + m ≤ a + n) :
    hw.poisoned b m = false := by
  rw [Hw.poisoned_eq_false] at h ⊢
  obtain ⟨hpoison, hpath⟩ := h
  exact ⟨fun w hw' hmeets => hpoison w hw' (by omega), fun w hw' hmeets => hpath w hw' (by omega)⟩

theorem Hw.eccAt_eq_none {hw : Hw} {a n : Nat} (h : hw.poisoned a n = false) : hw.eccAt a n = none := by
  obtain ⟨hpoison, hpath⟩ := Hw.poisoned_eq_false.mp h
  have hnone {l : List Nat} (hl : ∀ w ∈ l, ¬(w * 8 < a + n ∧ a < w * 8 + 8)) :
      l.find? (fun w => decide (w * 8 < a + n ∧ a < w * 8 + 8)) = none :=
    List.find?_eq_none.mpr fun w hw' => by rw [decide_eq_true_eq]; exact hl w hw'
  simp only [eccAt, hnone hpoison, hnone hpath]

/-! ### The use of bank groups (12/R395, R396). -/

/-- What two updates make of the present square is all that they do. -/
theorem Hw.modSq_congr {hw : Hw} {s : Nat} {f g : Square → Square} (h : f (hw.sqOf s) = g (hw.sqOf s)) :
    hw.modSq s f = hw.modSq s g :=
  congrArg (fun q => { hw with sq := mset hw.sq s q }) h

/-- The sleeping bank groups of `gs` whose use loses what they held (12/R395). -/
def Hw.groupsLost (hw : Hw) (s : Nat) (gs : List Nat) : List Nat :=
  ((hw.sqOf s).asleep gs).filter fun g => let b := (hw.sqOf s).bankOf g; b.state == .off || b.moving == some .off

/-- Bank groups of square s are wiped. -/
def Hw.wipeGroups (hw : Hw) (s : Nat) (gs : List Nat) : Hw :=
  gs.foldl (fun (h : Hw) g => let r := bankRange s g; h.wipe r.1 r.2) hw

/-- Bank groups of a square come ON. -/
def Square.awaken (q : Square) (gs : List Nat) : Square := gs.foldl (fun (q : Square) g => q.setBank g BankGroup.awake) q

/-- Use wakes the groups that sleep, and wipes those of them that lose what they held. -/
theorem Hw.useBanks_eq (hw : Hw) (s : Nat) (gs : List Nat) : hw.useBanks s gs = hw
    ∨ hw.useBanks s gs = (hw.wipeGroups s (hw.groupsLost s gs)).modSq s fun q => q.awaken ((hw.sqOf s).asleep gs) := by
  unfold useBanks
  split
  · exact .inl rfl
  · exact .inr rfl

theorem Hw.wipeGroups_banks (hw : Hw) (s : Nat) (gs : List Nat) : ∃ m, hw.wipeGroups s gs = { hw with banks := m } := by
  refine foldl_keeps (fun h : Hw => ∃ m, h = { hw with banks := m }) _ ?_ gs hw ⟨_, rfl⟩
  rintro _ g ⟨m, rfl⟩
  exact ⟨_, rfl⟩

theorem Square.awaken_banks (q : Square) (gs : List Nat) : ∃ b, q.awaken gs = { q with banks := b } := by
  refine foldl_keeps (fun r : Square => ∃ b, r = { q with banks := b }) _ ?_ gs q ⟨_, rfl⟩
  rintro _ g ⟨b, rfl⟩
  exact ⟨_, rfl⟩

/-- The use of bank groups changes at most memory and the states of the groups. -/
theorem Hw.useBanks_cases (hw : Hw) (s : Nat) (gs : List Nat) : hw.useBanks s gs = hw
    ∨ ∃ m b, hw.useBanks s gs = ({ hw with banks := m } : Hw).modSq s fun q => { q with banks := b } := by
  rcases hw.useBanks_eq s gs with h | h
  · exact .inl h
  · obtain ⟨m, hm⟩ := hw.wipeGroups_banks s (hw.groupsLost s gs)
    obtain ⟨b, hb⟩ := (hw.sqOf s).awaken_banks ((hw.sqOf s).asleep gs)
    rw [hm] at h
    exact .inr ⟨m, b, h.trans (Hw.modSq_congr hb)⟩

/-- The use of bank groups that are neither OFF nor on their way into it or out of it loses nothing. -/
theorem Hw.useBanks_banks {hw : Hw} {s : Nat} {gs : List Nat} (h : ∀ g ∈ gs, hw.bankKept s g) :
    (hw.useBanks s gs).banks = hw.banks := by
  have hlost : hw.groupsLost s gs = [] := by
    refine List.filter_eq_nil_iff.mpr fun g hg => ?_
    obtain ⟨hoff, hmov⟩ := h g (List.mem_filter.mp hg).1
    simp [hoff, hmov]
  rcases hw.useBanks_eq s gs with heq | heq <;> rw [heq]
  rw [hlost]
  rfl

/-- The use of the places of some addresses loses nothing when their bank groups are kept. -/
theorem Hw.useAt_banks {hw : Hw} {s : Nat} {as : List Nat} (h : ∀ a ∈ as, hw.placeKept s a) :
    (hw.useAt s as).banks = hw.banks := by
  refine Hw.useBanks_banks fun g hg => ?_
  obtain ⟨a, ha, hag⟩ := List.mem_filterMap.mp hg
  exact h a ha g hag

section
variable (hw : Hw) (s : Nat) (gs : List Nat)

@[simp] theorem Hw.useBanks_jobs : (hw.useBanks s gs).jobs = hw.jobs := by
  rcases hw.useBanks_cases s gs with h | ⟨m, b, h⟩ <;> rw [h]
  rfl

/-- Beside the states of the bank groups a square stays as it is. -/
theorem Hw.useBanks_square : ∃ b, (hw.useBanks s gs).sqOf s = { hw.sqOf s with banks := b } := by
  rcases hw.useBanks_cases s gs with h | ⟨m, b, h⟩ <;> rw [h]
  · exact ⟨_, rfl⟩
  · exact ⟨b, Hw.modSq_sqOf_same _ _ _⟩

@[simp] theorem Hw.useBanks_ledger : ((hw.useBanks s gs).sqOf s).ledger = (hw.sqOf s).ledger := by
  obtain ⟨b, h⟩ := hw.useBanks_square s gs
  rw [h]

@[simp] theorem Hw.useBanks_flt : ((hw.useBanks s gs).sqOf s).flt = (hw.sqOf s).flt := by
  obtain ⟨b, h⟩ := hw.useBanks_square s gs
  rw [h]

end

end Sys2Proof.Machine
end

section
/-! PROOFS. Chapter 05: phase B of a consolidation, which swaps the weights of a block with those of its record (05/R187). -/

namespace Sys2Proof.Machine

/-- The weight of entry k of a block and WN[k] of a record change places (05/R187). -/
def Hw.swapEntry (s line i k : Nat) (h : Hw) : Hw :=
  (h.setWeight s line k (h.rdN (recordAt s i + 128 + k) 1)).wr (recordAt s i + 128 + k) (leBytes 1 (h.weightAt s line k))

/-- The word of entry k of a block with the weight `w`. -/
def Hw.reweighted (h : Hw) (s line k w : Nat) : Nat :=
  oddBit0 32 (h.rdN (synTier s + 128 * line + 4 * k) 4 % 0x1000000 + w % 256 * 0x1000000)

theorem Hw.reweighted_lt (h : Hw) (s line k w : Nat) : h.reweighted s line k w < 2 ^ 32 := by
  have hhalf := oddBit0_div_two 32 (h.rdN (synTier s + 128 * line + 4 * k) 4 % 0x1000000 + w % 256 * 0x1000000)
  unfold reweighted
  omega

theorem Hw.reweighted_weight (h : Hw) (s line k : Nat) {w : Nat} (hw : w < 256) : h.reweighted s line k w / 2 ^ 24 = w := by
  have hhalf := oddBit0_div_two 32 (h.rdN (synTier s + 128 * line + 4 * k) 4 % 0x1000000 + w % 256 * 0x1000000)
  unfold reweighted
  omega

theorem Hw.setWeight_readable {h : Hw} {s line k : Nat} (w : Nat) (hok : h.poisoned (synTier s + 128 * line + 4 * k) 4 = false) :
    h.setWeight s line k w = h.wr (synTier s + 128 * line + 4 * k) (leBytes 4 (h.reweighted s line k w)) := by
  simp only [setWeight, hok, Bool.false_eq_true, if_false, reweighted]

/-- Of the block at a line and record i, the entries below m have changed places with WN, and nothing else has changed. -/
structure Hw.Swapped (old : Hw) (s line i m : Nat) (h : Hw) : Prop where
  wf : Memory.wf h.banks.mem = true
  poisoned : ∀ a n, h.poisoned a n = old.poisoned a n
  words : ∀ k < m, h.rdN (synTier s + 128 * line + 4 * k) 4 = old.reweighted s line k (old.rdN (recordAt s i + 128 + k) 1)
  wn : ∀ k < m, h.rdN (recordAt s i + 128 + k) 1 = old.weightAt s line k
  others : ∀ a n, a + n ≤ synTier s + 128 * line ∨ synTier s + 128 * line + 4 * m ≤ a →
    a + n ≤ recordAt s i + 128 ∨ recordAt s i + 128 + m ≤ a → h.rdN a n = old.rdN a n

/-- The block at a line and record i are readable, lie apart, and memory is in its canonical form. -/
structure Hw.Swappable (h : Hw) (s line i : Nat) : Prop where
  wf : Memory.wf h.banks.mem = true
  record : h.poisoned (recordAt s i) 256 = false
  block : h.poisoned (synTier s + 128 * line) 128 = false
  apart : synTier s + 128 * line + 128 ≤ recordAt s i ∨ recordAt s i + 256 ≤ synTier s + 128 * line

section
variable {old h : Hw} {s line i m : Nat}

theorem Hw.Swapped.zero (hok : old.Swappable s line i) : Hw.Swapped old s line i 0 old where
  wf := hok.wf
  poisoned _ _ := rfl
  words _ hk := absurd hk (Nat.not_lt_zero _)
  wn _ hk := absurd hk (Nat.not_lt_zero _)
  others _ _ _ _ := rfl

theorem Hw.Swapped.succ (hok : old.Swappable s line i) (hm : m < 32) (hsw : Hw.Swapped old s line i m h) :
    Hw.Swapped old s line i (m + 1) (h.swapEntry s line i m) := by
  obtain ⟨-, hrec, hblock, hapart⟩ := hok
  obtain ⟨hwf, hpois, hwords, hwn, hothers⟩ := hsw
  have hread : h.poisoned (synTier s + 128 * line + 4 * m) 4 = false :=
    (hpois _ _).trans (Hw.poisoned_part hblock (by omega) (by omega))
  have hword : h.rdN (synTier s + 128 * line + 4 * m) 4 = old.rdN (synTier s + 128 * line + 4 * m) 4 :=
    hothers _ _ (.inr (Nat.le_refl _)) (by omega)
  have hweight : h.weightAt s line m = old.weightAt s line m := hothers _ _ (.inr (by omega)) (by omega)
  have hnew : h.rdN (recordAt s i + 128 + m) 1 = old.rdN (recordAt s i + 128 + m) 1 := hothers _ _ (by omega) (.inr (Nat.le_refl _))
  have hreweighted (w : Nat) : h.reweighted s line m w = old.reweighted s line m w := by rw [reweighted, reweighted, hword]
  rw [swapEntry, Hw.setWeight_readable _ hread, hweight, hnew, hreweighted]
  generalize hw : old.reweighted s line m (old.rdN (recordAt s i + 128 + m) 1) = w
  have hwlt : w < 2 ^ 32 := hw ▸ Hw.reweighted_lt ..
  have hwf1 := memWriteN_wf (synTier s + 128 * line + 4 * m) (leBytes 4 w) hwf
  have hout {a n : Nat} (h1 : a + n ≤ synTier s + 128 * line + 4 * m ∨ synTier s + 128 * line + 4 * m + 4 ≤ a)
      (h2 : a + n ≤ recordAt s i + 128 + m ∨ recordAt s i + 128 + m + 1 ≤ a) :
      ((h.wr (synTier s + 128 * line + 4 * m) (leBytes 4 w)).wr (recordAt s i + 128 + m)
        (leBytes 1 (old.weightAt s line m))).rdN a n = h.rdN a n := by
    rw [Hw.rdN_wr_out (by exact hwf1) (by rw [length_leBytes]; omega), Hw.rdN_wr_out hwf (by rw [length_leBytes]; omega)]
  refine ⟨memWriteN_wf _ _ hwf1, fun a n => hpois a n, fun k hk => ?_, fun k hk => ?_, fun a n h1 h2 => ?_⟩
  · rcases Nat.lt_succ_iff_lt_or_eq.mp hk with hlt | rfl
    · rw [hout (by omega) (by omega), hwords k hlt]
    · rw [Hw.rdN_wr_out (by exact hwf1) (by rw [length_leBytes]; omega), Hw.rdN_wr_leBytes hwf, hw]
      exact Nat.mod_eq_of_lt hwlt
  · rcases Nat.lt_succ_iff_lt_or_eq.mp hk with hlt | rfl
    · rw [hout (by omega) (by omega), hwn k hlt]
    · rw [Hw.rdN_wr_leBytes (by exact hwf1)]
      exact Nat.mod_eq_of_lt (Hw.rdN_one_lt ..)
  · rw [hout (by omega) (by omega), hothers a n (by omega) (by omega)]

/-- Phase B swaps entry after entry (05/R187). -/
theorem Hw.Swapped.range (hok : old.Swappable s line i) : ∀ m ≤ 32,
    Hw.Swapped old s line i m (forAll (List.range m) (fun k h => h.swapEntry s line i k) old)
  | 0, _ => Hw.Swapped.zero hok
  | m + 1, hm => by
    have hfold : forAll (List.range (m + 1)) (fun k h => h.swapEntry s line i k) old
        = (forAll (List.range m) (fun k h => h.swapEntry s line i k) old).swapEntry s line i m := by
      simp only [forAll, List.range_succ, List.foldl_append, List.foldl_cons, List.foldl_nil]
    rw [hfold]
    exact Hw.Swapped.succ hok hm (Hw.Swapped.range hok m (by omega))

/-! ### COMMIT of a record. -/

theorem fld_commit (f : Nat) {c : Nat} (hc : c < 4) : fld ((f % 8 + c % 4 * 8 + f / 32 * 32) % 256 ^ 1) 4 3 = c := by
  simp only [fld, Nat.shiftRight_eq_div_pow]
  omega

theorem Hw.recCommit_setCommit {c : Nat} (hwf : Memory.wf h.banks.mem = true) (hok : h.poisoned (recordAt s i + 176) 1 = false)
    (hc : c < 4) : (h.setCommit s i c).recCommit s i = c := by
  simp only [setCommit, hok, Bool.false_eq_true, if_false, recCommit, Hw.rdN_wr_leBytes hwf]
  exact fld_commit _ hc

theorem Hw.rdN_setCommit_out {a n : Nat} (c : Nat) (hwf : Memory.wf h.banks.mem = true) (hout : a + n ≤ recordAt s i + 176
    ∨ recordAt s i + 177 ≤ a) : (h.setCommit s i c).rdN a n = h.rdN a n := by
  unfold setCommit
  split
  · rfl
  · exact Hw.rdN_wr_out hwf (by rw [length_leBytes]; omega)

/-! ### One record in phase B. -/

/-- What is pending in no snapshot is only marked as changed (09/R324). -/
theorem Hw.unitWrite_idle {u : SnapUnit} (hpend : (h.sqOf s).flt.pend = []) : h.unitWrite s u = h.modFlt s fun f => f.mark u := by
  simp only [unitWrite, unitRead, copyFully, hpend, List.contains_nil, Bool.false_eq_true, if_false]

/-- The module after the use of the bank groups that a record and its block lie in. -/
def Hw.blockAwake (h : Hw) (s line i : Nat) : Hw := (h.unitWrite s (.plastic i)).useAt s [recordAt s i, synTier s + 128 * line]

/-- A readable record and block pass phase B (05/R187). -/
theorem Hw.phaseBOne_eq (hok : h.Swappable s line i) (hused : (h.sqOf s).used i ≤ 32) :
    h.phaseBOne s line i = ((forAll (List.range ((h.sqOf s).used i)) (fun k g => g.swapEntry s line i k)
      (h.blockAwake s line i)).setCommit s i 2, none) := by
  have hrec := Hw.eccAt_eq_none hok.record
  have hblock := Hw.eccAt_eq_none (Hw.poisoned_part (m := 4 * (h.sqOf s).used i) hok.block (Nat.le_refl _) (by omega))
  simp only [phaseBOne, hrec, hblock, swapEntry, blockAwake]

theorem Hw.placeKept_modFlt {a : Nat} {f : SqFault → SqFault} (hkept : h.placeKept s a) : (h.modFlt s f).placeKept s a := by
  intro g hg
  have hbank : ((h.modFlt s f).sqOf s).bankOf g = (h.sqOf s).bankOf g := by
    rw [modFlt, Hw.modSq_sqOf_same]
    rfl
  rw [bankKept, hbank]
  exact hkept g hg

theorem Hw.blockAwake_banks (hpend : (h.sqOf s).flt.pend = []) (hrec : h.placeKept s (recordAt s i))
    (hblock : h.placeKept s (synTier s + 128 * line)) : (h.blockAwake s line i).banks = h.banks := by
  rw [blockAwake, Hw.unitWrite_idle hpend, Hw.useAt_banks, modFlt, Hw.modSq_banks]
  simp only [List.forall_mem_cons]
  exact ⟨Hw.placeKept_modFlt hrec, Hw.placeKept_modFlt hblock, List.forall_mem_nil _⟩

/-- Phase B of a record, by what memory reads after it: COMMIT is 2, each used entry has WN as its weight and odd
parity, and WN has the weights (05/R187). -/
theorem Hw.phaseBOne_reads (hok : h.Swappable s line i) (hused : (h.sqOf s).used i ≤ 32) (hpend : (h.sqOf s).flt.pend = [])
    (hrec : h.placeKept s (recordAt s i)) (hblock : h.placeKept s (synTier s + 128 * line)) :
    ∃ g, h.phaseBOne s line i = (g, none) ∧ g.recCommit s i = 2 ∧ ∀ n < (h.sqOf s).used i,
      g.weightAt s line n = h.rdN (recordAt s i + 128 + n) 1 ∧ g.rdN (recordAt s i + 128 + n) 1 = h.weightAt s line n
        ∧ xorBits 32 (g.rdN (synTier s + 128 * line + 4 * n) 4) = true := by
  have hbanks := Hw.blockAwake_banks hpend hrec hblock
  have hold (a n : Nat) := Hw.rdN_of_banks hbanks a n
  have hpois (a n : Nat) := Hw.poisoned_of_banks hbanks a n
  obtain ⟨hwf, hrecOk, hblockOk, hapart⟩ := id hok
  have hok' : (h.blockAwake s line i).Swappable s line i :=
    ⟨by rw [hbanks]; exact hwf, (hpois _ _).trans hrecOk, (hpois _ _).trans hblockOk, hapart⟩
  have hsw := Hw.Swapped.range hok' _ hused
  refine ⟨_, Hw.phaseBOne_eq hok hused, Hw.recCommit_setCommit hsw.wf ?_ (by decide), fun n hn => ?_⟩
  · rw [hsw.poisoned, hpois]
    exact Hw.poisoned_part hrecOk (by omega) (by omega)
  · have hword := hsw.words n hn
    have hlast := Hw.rdN_last_byte
      (forAll (List.range ((h.sqOf s).used i)) (fun k g => g.swapEntry s line i k) (h.blockAwake s line i))
      (synTier s + 128 * line + 4 * n)
    rw [hword, Hw.reweighted_weight _ _ _ _ (Hw.rdN_one_lt ..), hold] at hlast
    refine ⟨?_, ?_, ?_⟩
    · rw [weightAt, Hw.rdN_setCommit_out 2 hsw.wf (by omega), hlast]
    · rw [Hw.rdN_setCommit_out 2 hsw.wf (by omega), hsw.wn n hn, weightAt, hold, weightAt]
    · rw [Hw.rdN_setCommit_out 2 hsw.wf (by omega), hword, reweighted]
      exact xorBits_oddBit0 31 _

end

end Sys2Proof.Machine
end

section
/-! PROOFS. Chapters 02, 05 and 09: the work of a square within a tempo, from the event distributor to its report of done, and the
snapshot copier (02/R44, 04/R129, 05/R185, R187, 09/R307, R309, R312, R324). -/

namespace Sys2Proof.Machine

/-! ### What the reports of closure and done leave alone (02/R44, 04/R132). -/

/-- Whether a core updates, and which phases of a consolidation it has still to make. -/
def Slot.phases (k : Slot) : Bool × Bool × Bool := (k.updating, k.phaseA, k.phaseB)

@[simp] theorem Slot.takeCounts_phases (k : Slot) (t : Nat) (cons : Option Nat) : (k.takeCounts t cons).phases = k.phases := rfl

/-- Memory, the numbers of the cores, the samples that wait and the phases of every core are the same in both modules. -/
structure Hw.SameWork (h g : Hw) : Prop where
  banks : g.banks = h.banks
  lmap : ∀ s, (g.sqOf s).lmap = (h.sqOf s).lmap
  waiting : ∀ s, (g.sqOf s).flt.waiting = (h.sqOf s).flt.waiting
  phases : ∀ s p, (g.slotOf s p).phases = (h.slotOf s p).phases

section
variable {h g : Hw}

theorem Hw.SameWork.refl (h : Hw) : h.SameWork h := ⟨rfl, fun _ => rfl, fun _ => rfl, fun _ _ => rfl⟩

theorem Hw.SameWork.trans {k : Hw} (hg : h.SameWork g) (hk : g.SameWork k) : h.SameWork k where
  banks := hk.banks.trans hg.banks
  lmap s := (hk.lmap s).trans (hg.lmap s)
  waiting s := (hk.waiting s).trans (hg.waiting s)
  phases s p := (hk.phases s p).trans (hg.phases s p)

theorem Hw.SameWork.modJob (hg : h.SameWork g) (j : Nat) (f : Job → Job) : h.SameWork (g.modJob j f) :=
  hg.trans ⟨rfl, fun _ => rfl, fun _ => rfl, fun _ _ => rfl⟩

theorem Hw.SameWork.sendCtrl (hg : h.SameWork g) (p w : Nat) : h.SameWork (g.sendCtrl p w) :=
  hg.trans ⟨rfl, fun _ => rfl, fun _ => rfl, fun _ _ => rfl⟩

theorem Hw.SameWork.modSq (hg : h.SameWork g) (s : Nat) {f : Square → Square} (hlmap : ∀ q, (f q).lmap = q.lmap)
    (hwaiting : ∀ q, (f q).flt.waiting = q.flt.waiting) : h.SameWork (g.modSq s f) := by
  refine hg.trans ⟨rfl, fun x => ?_, fun x => ?_, fun _ _ => rfl⟩
  all_goals
    by_cases hx : x = s
    · subst hx
      simp only [Hw.modSq_sqOf_same, hlmap, hwaiting]
    · rw [Hw.modSq_sqOf_ne _ _ hx]

theorem Hw.slotOf_modSlot (h : Hw) (s p : Nat) (f : Slot → Slot) (x y : Nat) : (h.modSlot s p f).slotOf x y = h.slotOf x y
    ∨ (h.modSlot s p f).slotOf x y = f (h.slotOf x y) := by
  unfold Hw.modSlot slotOf
  by_cases hk : x * 19 + y = s * 19 + p
  · rw [hk]
    exact .inr (mget_mupd_same _ _ _ _)
  · exact .inl (mget_mupd_ne _ _ _ hk)

theorem Hw.SameWork.modL (hg : h.SameWork g) (s l : Nat) {f : Slot → Slot} (hf : ∀ k, (f k).phases = k.phases) :
    h.SameWork (g.modL s l f) := by
  unfold Hw.modL
  split
  · refine hg.trans ⟨rfl, fun _ => rfl, fun _ => rfl, fun x y => ?_⟩
    rcases g.slotOf_modSlot s ((g.sqOf s).slotFor l) f x y with hk | hk <;> rw [hk]
    exact hf _
  · exact hg

/-- A report that reaches the parent module changes nothing of the work. -/
theorem Hw.SameWork.treeUp (hg : h.SameWork g) (j : Nat) : h.SameWork (g.treeUp j) := by
  unfold Hw.treeUp
  dsimp only
  split
  · exact hg
  · split
    · split
      · exact (((hg.sendCtrl _ _).modJob _ _).sendCtrl _ _).modJob _ _
      · exact (hg.sendCtrl _ _).modJob _ _
    · split
      · exact (hg.sendCtrl _ _).modJob _ _
      · exact hg

theorem Hw.SameWork.localClosure (hg : h.SameWork g) (s : Nat) : h.SameWork (g.localClosure s) := by
  unfold Hw.localClosure
  dsimp only
  split
  · split
    · refine Hw.SameWork.treeUp (Hw.SameWork.modJob (Hw.SameWork.modSq hg s ?_ ?_) _ _) _
      · exact fun _ => rfl
      · exact fun _ => rfl
    · exact hg
  · exact hg

/-- The report of done takes the counts of the tempo, and changes nothing of the work. -/
theorem Hw.SameWork.squareDone (hg : h.SameWork g) (s : Nat) : h.SameWork (g.squareDone s) := by
  unfold Hw.squareDone
  split
  · exact hg
  · extract_lets k q ended
    split
    · exact hg
    · next _ _ _ counted done _ _ =>
      have hcounted : h.SameWork counted := by
        refine foldl_keeps h.SameWork _ ?_ _ g hg
        exact fun k l hk => hk.modL s l fun c => c.takeCounts_phases _ _
      have hdone : h.SameWork done := Hw.SameWork.modSq hcounted s (fun _ => rfl) (fun _ => rfl)
      exact ((hdone.modJob _ _).treeUp _).localClosure s

theorem Hw.SameWork.lslot (hg : h.SameWork g) (s l : Nat) : (g.lslot s l).phases = (h.lslot s l).phases := by
  have hslot : (g.sqOf s).slotFor l = (h.sqOf s).slotFor l := by rw [Square.slotFor, Square.slotFor, hg.lmap]
  rw [Hw.lslot, Hw.lslot, hslot]
  split
  · exact hg.phases _ _
  · rfl

end

/-- What an update makes of every slot, and what an absent core has, the core has after it. -/
theorem Hw.modL_lslot_holds {h : Hw} {s l : Nat} {f : Slot → Slot} (p : Slot → Prop) (habsent : p {}) (hf : ∀ k, p (f k)) :
    p ((h.modL s l f).lslot s l) := by
  by_cases hl : (h.sqOf s).slotFor l < 19
  · rw [Hw.modL_lslot hl]
    exact hf _
  · rw [Hw.modL, if_neg hl, Hw.lslot, if_neg hl]
    exact habsent

/-! ### Work that the checks of a square stop (09/R307, R309). -/

/-- Work of square s: a failed check charges the square before the work is used, and work that finds no fault ends with `fin`. -/
def Hw.checked (hw : Hw) (s : Nat) (seen : List Seen) (work : Hw × Found) (fin : Hw → Hw) : Hw :=
  let bad := hw.seenFind s seen
  let r := if bad.isSome then (hw, bad) else work
  match r.2 with
  | some f => r.1.found s f
  | none => fin r.1

theorem Hw.jobOfSq_of_jobs {hw g : Hw} (h : g.jobs = hw.jobs) (s : Nat) : g.jobOfSq s = hw.jobOfSq s := by
  simp only [jobOfSq, jobOf, h]

theorem Hw.found_eq {hw : Hw} {s : Nat} {j : Option Nat} (f : FaultInfo) (hj : hw.jobOfSq s = j) :
    hw.found s f = hw.jobFault { f with job := j, sq := some s } := by rw [found, hj]

section
variable {hw : Hw} {s l : Nat} {seen : List Seen} {work : Hw × Found} {fin : Hw → Hw}

theorem Hw.checked_fails {f : FaultInfo} (h : hw.seenFind s seen = some f) : hw.checked s seen work fin = hw.found s f := by
  simp only [checked, h, Option.isSome_some, if_true]

theorem Hw.checked_ends {g : Hw} (h : hw.seenFind s seen = none) (hwork : work = (g, none)) :
    hw.checked s seen work fin = fin g := by
  simp only [checked, h, hwork, Option.isSome_none, Bool.false_eq_true, if_false]

theorem Hw.consolidateA_eq (hdue : hw.phaseDue s l = true) (hphase : (hw.lslot s l).phaseA = true) : hw.consolidateA s l seen
    = hw.checked s seen ((hw.useBanks s [20, 21, 22, 23]).phaseACore s l)
      fun g => (g.modL s l fun k => { k with phaseA := false, phaseB := true }).squareDone s :=
  if_pos (by rw [hdue, hphase]; rfl)

theorem Hw.consolidateB_eq (hdue : hw.phaseDue s l = true) (hphase : (hw.lslot s l).phaseB = true) : hw.consolidateB s l seen
    = hw.checked s seen (hw.phaseBCore s l) fun g => (g.modL s l fun k => { k with phaseB := false }).squareDone s :=
  if_pos (by rw [hdue, hphase]; rfl)

/-- A packet of 1 to 5 events with good parity is taken from the inbox, and its events are distributed (04/R129). -/
theorem Hw.eventDistribute_eq {j t : Nat} {e : InEntry} {rest : List InEntry} {evs : List (Nat × Nat)} {u : Hw}
    (hworks : hw.works s = true) (hjob : hw.jobOfSq s = some j) (hgoing : hw.going j = true) (hidle : (hw.sqOf s).inUpdate = false)
    (htake : takeEvent (hw.sqOf s).inbox = some (e, rest)) (hledger : (hw.sqOf s).ledgerT = some t) (hpar : e.pkt.parOk = true)
    (hlast : e.pkt.last = false) (hpos : 1 ≤ e.pkt.count) (hfive : e.pkt.count ≤ 5)
    (hevs : evs = (List.range e.pkt.count).map fun i => (e.pkt.evNeuron i, e.pkt.evValue i))
    (hu : u = (hw.modSq s fun k => { k with inbox := rest, wdogCount := 0 }).useBanks s [19, 20, 21, 22, 23]) :
    hw.eventDistribute s seen = u.checked s seen
      (chain (fun h x => h.distributeEvent s (mget {} (hw.sqOf s).ledger e.slot : LgSlot).bind t x) u evs)
      fun g => g.localClosure s := by
  have hsome : evs ≠ [] := by
    rw [hevs]
    simp only [ne_eq, List.map_eq_nil_iff, List.range_eq_nil]
    omega
  have hzero : (e.pkt.count == 0) = false := beq_false_of_ne (by omega)
  have hmany : decide (5 < e.pkt.count) = false := decide_eq_false (by omega)
  have hbind : (u.sqOf s).ledger = (hw.sqOf s).ledger := by rw [hu, Hw.useBanks_ledger, Hw.modSq_sqOf_same]
  rw [← hbind]
  simp only [eventDistribute, hjob, hgoing, hidle, hworks, htake, hledger, hpar, hlast, hzero, hmany, ← hu, ← hevs, hsome,
    checked, Bool.not_true, Bool.not_false, Bool.or_self, Bool.and_false, Bool.false_eq_true, if_false] <;> rfl

end

/-! ### The checks of a square do not depend on its fault block (09/R306, R309). -/

theorem Hw.seenFind_of_lmap {hw g : Hw} {s : Nat} (h : (g.sqOf s).lmap = (hw.sqOf s).lmap) (seen : List Seen) :
    g.seenFind s seen = hw.seenFind s seen := by
  have hslot (l : Nat) : (g.sqOf s).slotFor l = (hw.sqOf s).slotFor l := by rw [Square.slotFor, Square.slotFor, h]
  have hcore (p : Nat) : (g.sqOf s).coreFor p = (hw.sqOf s).coreFor p := by simp only [Square.coreFor, hslot]
  have hrow (x b r : Nat) : rowSlot (g.sqOf s) x b r = rowSlot (hw.sqOf s) x b r := by simp only [rowSlot, hslot]
  have hfault (x : Seen) : g.seenFault s x = hw.seenFault s x := by
    cases x <;> simp only [seenFault, pathFind, hslot, hcore, hrow]
  rw [seenFind, seenFind, funext hfault]

theorem Hw.seenFind_modFlt (hw : Hw) (s : Nat) (f : SqFault → SqFault) (seen : List Seen) :
    (hw.modFlt s f).seenFind s seen = hw.seenFind s seen :=
  Hw.seenFind_of_lmap (by rw [modFlt, Hw.modSq_sqOf_same]) seen

/-! ### The comparison of a sample (09/R312, R314). -/

/-- A sample of square s waits no more. -/
def Hw.sampleSettled (hw : Hw) (s : Nat) (y : Sample) : Hw := hw.modFlt s fun f => { f with waiting := f.waiting.filter (· != y) }

theorem Hw.sampleSettled_waiting (hw : Hw) (s : Nat) (y : Sample) :
    ((hw.sampleSettled s y).sqOf s).flt.waiting = (hw.sqOf s).flt.waiting.filter (· != y) := by
  rw [sampleSettled, modFlt, Hw.modSq_sqOf_same]

section
variable {hw : Hw} {s l n j : Nat} {y : Sample} {seen : List Seen} (hworks : hw.works s = true) (hjob : hw.jobOfSq s = some j)
  (hgoing : hw.going j = true) (hfind : (hw.sqOf s).flt.waiting.find? (fun y => y.has l n) = some y)
include hworks hjob hgoing hfind

/-- A sample whose recomputation fails a check charges the square. -/
theorem Hw.shadowCompare_fails (x : ShadowFind) {f : FaultInfo} (hseen : hw.seenFind s seen = some f) :
    hw.shadowCompare s l n x seen = (hw.sampleSettled s y).found s { f with core := l } := by
  simp only [shadowCompare, hjob, hfind, hgoing, hworks, Hw.seenFind_modFlt, hseen, Bool.and_self, if_true, sampleSettled]

/-- A sample that agrees is settled. -/
theorem Hw.shadowCompare_agrees (hseen : hw.seenFind s seen = none) :
    hw.shadowCompare s l n .agree seen = (hw.sampleSettled s y).squareDone s := by
  simp only [shadowCompare, hjob, hfind, hgoing, hworks, Hw.seenFind_modFlt, hseen, Bool.and_self, if_true, sampleSettled,
    arbitrate]

end

/-! ### The snapshot copier (09/R324). -/

theorem Hw.copyBytes_sq (hw : Hw) (s : Nat) (u : SnapUnit) : (hw.copyBytes s u).sq = hw.sq := by
  cases u with
  | row l r =>
    refine foldl_keeps (fun h : Hw => h.sq = hw.sq) _ (fun h n hh => ?_) _ hw rfl
    rw [wrWhole, unpoison_sq, wr_sq, hh]
  | plastic i => simp only [copyBytes, wrWhole, unpoison_sq, wr_sq]
  | due l b q => simp only [copyBytes, wrWhole, unpoison_sq, wr_sq]
  | fire l p => simp only [copyBytes, wrWhole, unpoison_sq, wr_sq]
  | control => simp only [copyBytes, wr_sq, wipe_sq]

/-- While a unit of a square is pending, no snapshot that holds the square is complete. -/
theorem Hw.copyLook_pending {hw : Hw} {s : Nat} (hs : s < 64) (hpend : (hw.sqOf s).flt.pend ≠ []) : hw.copyLook s = hw := by
  refine forAll_unchanged _ fun j _ => ?_
  cases hmask : (hw.jobOf j).mask.testBit s with
  | false => simp only [Bool.and_false, Bool.false_and, Bool.false_eq_true, if_false]
  | true =>
    have hmem : s ∈ hw.jobSqs j := List.mem_filter.mpr ⟨List.mem_range.mpr hs, hmask⟩
    have hruns : hw.copyRuns j = true :=
      List.any_eq_true.mpr ⟨s, hmem, by rw [List.isEmpty_eq_false_iff.mpr hpend]; rfl⟩
    simp only [hruns, Bool.not_true, Bool.and_false, Bool.false_eq_true, if_false]

/-- What a consolidation left pending beside a unit that has been copied. -/
def SnapUnit.consLeft (u : SnapUnit) (l : List Nat) : List Nat :=
  match u with
  | .plastic i => sdel l i
  | _ => l

/-- The module while the copier uses the places of a unit, with its copy in the Mirror tier. -/
def Hw.unitCopied (hw : Hw) (s : Nat) (u : SnapUnit) : Hw :=
  (hw.useAt s ((hw.unitSources s u ++ (hw.unitMirror s u).map fun x => (x.1, x.2.2)).map (·.1))).copyBytes s u

theorem Hw.unitCopied_flt (hw : Hw) (s : Nat) (u : SnapUnit) : ((hw.unitCopied s u).sqOf s).flt = (hw.sqOf s).flt := by
  rw [unitCopied, sqOf, Hw.copyBytes_sq, ← sqOf, useAt, Hw.useBanks_flt]

theorem Hw.copyUnit_readable {hw : Hw} {s : Nat} {u : SnapUnit} (hread : hw.unitFault s u = none) : hw.copyUnit s u
    = ((hw.unitCopied s u).modFlt s fun f => { f with pend := f.pend.erase u, consPend := u.consLeft f.consPend }).copyLook s := by
  simp only [copyUnit, hread] <;> rfl

/-- The copier copies the first pending unit and goes on to the next (09/R324). -/
theorem Hw.copyNext_more {hw : Hw} {s : Nat} {u v : SnapUnit} {rest : List SnapUnit} (hs : s < 64) (hworks : hw.works s = true)
    (hpend : (hw.sqOf s).flt.pend = u :: v :: rest) (hread : hw.unitFault s u = none) : hw.copyNext s
      = (hw.unitCopied s u).modFlt s fun f => { f with pend := v :: rest, consPend := u.consLeft f.consPend } := by
  have hcopied : (hw.unitCopied s u).modFlt s (fun f => { f with pend := f.pend.erase u, consPend := u.consLeft f.consPend })
      = (hw.unitCopied s u).modFlt s fun f => { f with pend := v :: rest, consPend := u.consLeft f.consPend } :=
    Hw.modSq_congr (by simp only [Hw.unitCopied_flt, hpend, List.erase_cons_head])
  simp only [copyNext, hpend, hworks, if_true]
  rw [Hw.copyUnit_readable hread, hcopied]
  exact Hw.copyLook_pending hs (by rw [modFlt, Hw.modSq_sqOf_same]; exact List.cons_ne_nil _ _)

/-! ### Phase B of a core (05/R187). -/

theorem Hw.phaseBCore_noRecords {hw : Hw} {s l : Nat} (h : ∀ img, (hw.lslot s l).rules = some img → consRecords img = []) :
    hw.phaseBCore s l = (hw, none) := by
  cases hrules : (hw.lslot s l).rules with
  | none => simp only [phaseBCore, hrules]
  | some img => simp only [phaseBCore, hrules, h img hrules, chain, List.foldl_nil]

theorem Hw.phaseBCore_oneRecord {hw : Hw} {s l c line i : Nat} {img : List Byte} (hrules : (hw.lslot s l).rules = some img)
    (hrecords : consRecords img = [(c, line, i)]) : hw.phaseBCore s l = hw.phaseBOne s line i := by
  simp only [phaseBCore, hrules, hrecords, chain, List.foldl_cons, List.foldl_nil]

/-- The end of phase B of a core leaves memory to read as it was. -/
theorem Hw.phaseB_ends (g : Hw) (s l : Nat) :
    (((g.modL s l fun k => { k with phaseB := false }).squareDone s).lslot s l).phaseB = false
      ∧ ((g.modL s l fun k => { k with phaseB := false }).squareDone s).banks = g.banks := by
  have hdone := (Hw.SameWork.refl (g.modL s l fun k => { k with phaseB := false })).squareDone s
  refine ⟨?_, hdone.banks.trans ?_⟩
  · exact (congrArg (fun x => x.2.2) (hdone.lslot s l)).trans (Hw.modL_lslot_holds (fun k => k.phaseB = false) rfl fun _ => rfl)
  · unfold modL
    split <;> rfl

theorem Hw.update_ends (hw : Hw) (s l : Nat) :
    (((hw.modL s l fun k => { k with updating := false }).squareDone s).lslot s l).updating = false := by
  have hdone := (Hw.SameWork.refl (hw.modL s l fun k => { k with updating := false })).squareDone s
  exact (congrArg Prod.fst (hdone.lslot s l)).trans (Hw.modL_lslot_holds (fun k => k.updating = false) rfl fun _ => rfl)

/-! ### The commands. -/

theorem exec_eventDistribute (q : Fin 64) (seen : List Seen) (s : State) :
    exec (.eventDistribute q seen) s = .next (s.withHw (s.hw.eventDistribute q seen)) := rfl

theorem exec_updateComplete (q : Fin 64) (l : Fin 18) (s : State) :
    exec (.updateComplete q l) s = .next (s.withHw (s.hw.updateComplete q l)) := rfl

theorem exec_consolidationPhaseA (q : Fin 64) (l : Fin 18) (seen : List Seen) (s : State) :
    exec (.consolidationPhaseA q l seen) s = .next (s.withHw (s.hw.consolidateA q l seen)) := rfl

theorem exec_consolidationPhaseB (q : Fin 64) (l : Fin 18) (seen : List Seen) (s : State) :
    exec (.consolidationPhaseB q l seen) s = .next (s.withHw (s.hw.consolidateB q l seen)) := rfl

theorem exec_shadowCompare (q : Fin 64) (l : Fin 18) (n : Fin 16384) (x : ShadowFind) (seen : List Seen) (s : State) :
    exec (.shadowCompare q l n x seen) s = .next (s.withHw (s.hw.shadowCompare q l n x seen)) := rfl

theorem exec_snapshotCopyUnit (q : Fin 64) (s : State) :
    exec (.snapshotCopyUnit q) s = .next (s.withHw (s.hw.copyNext q)) := rfl

/-- Settles O35: each row is its checked work, its own end, or the copy of its unit; and the report of done that follows changes
neither memory nor the phases of a core nor the samples that wait. -/
theorem squaresUpdate : Obligations.SquaresUpdate := by
  unfold Obligations.SquaresUpdate
  intro q l s hworks
  simp only [exec_eventDistribute, exec_updateComplete, exec_consolidationPhaseA, exec_consolidationPhaseB, exec_shadowCompare,
    exec_snapshotCopyUnit]
  refine ⟨?distribute, fun hupdating => ?updated, fun g seen hdue hphase => ?phaseA, fun seen hdue hphase _ => ?phaseB,
    fun j n y hjob hgoing hfind seen => ?compare, fun u v rest hpend hread as has => ?copy⟩
  case distribute =>
    intro j e rest t p evs g seen hjob hgoing hidle htake hledger hp hpar hlast hpos hfive hevs u hu
    subst hp
    have huJob : u.jobOfSq q = some j := (Hw.jobOfSq_of_jobs (by rw [hu, Hw.useBanks_jobs, Hw.modSq_jobs]) q).trans hjob
    rw [Hw.eventDistribute_eq hworks hjob hgoing hidle htake hledger hpar hlast hpos hfive hevs hu]
    refine ⟨fun hclean hwork => ?_, fun f hbad => ?_⟩
    · rw [Hw.checked_ends hclean hwork]
    · rw [Hw.checked_fails hbad, Hw.found_eq f huJob]
  case updated =>
    refine ⟨_, rfl, ?_⟩
    rw [State.withHw_hw, Hw.updateComplete, if_pos (by rw [hupdating, hworks]; rfl)]
    exact Hw.update_ends _ _ _
  case phaseA =>
    rw [Hw.consolidateA_eq hdue hphase]
    refine ⟨fun hclean hwork => ?_, fun f hbad => ?_⟩
    · rw [Hw.checked_ends hclean hwork]
    · rw [Hw.checked_fails hbad, Hw.found]
  case phaseB =>
    rw [Hw.consolidateB_eq hdue hphase]
    refine ⟨fun hclean => ⟨fun hnone => ?noRecords, fun g hwork => ?ends, ?oneRecord⟩, fun f hbad => ?fails⟩
    case fails => rw [Hw.checked_fails hbad, Hw.found]
    case ends => rw [Hw.checked_ends hclean hwork]
    case noRecords =>
      rw [Hw.checked_ends hclean (Hw.phaseBCore_noRecords hnone)]
      exact ⟨_, rfl, (Hw.phaseB_ends _ _ _).1⟩
    case oneRecord =>
      intro img c line i used hrules hrecords hused h32 hwf hpend hrec hblock hrecKept hblockKept hapart
      subst hused
      have hok : s.hw.Swappable q line i := ⟨hwf, hrec, hblock, by simp only [recordAt]; omega⟩
      obtain ⟨g, hone, hcommit, hreads⟩ := Hw.phaseBOne_reads hok h32 hpend hrecKept hblockKept
      obtain ⟨hphaseB, hbanks⟩ := Hw.phaseB_ends g q l
      rw [Hw.checked_ends hclean ((Hw.phaseBCore_oneRecord hrules hrecords).trans hone)]
      simp only [Hw.recCommit, Hw.weightAt, ← Hw.rdN_of_banks hbanks] at hcommit hreads
      exact ⟨_, rfl, hphaseB, hcommit, hreads⟩
  case compare =>
    refine ⟨fun hclean => ?agrees, fun f x hbad => ?fails⟩
    case agrees =>
      rw [Hw.shadowCompare_agrees hworks hjob hgoing hfind hclean]
      exact ⟨_, rfl, (((Hw.SameWork.refl _).squareDone q).waiting q).trans (Hw.sampleSettled_waiting _ _ _)⟩
    case fails =>
      rw [Hw.shadowCompare_fails hworks hjob hgoing hfind x hbad, Hw.found_eq (hw := s.hw.sampleSettled q y) _ hjob]
      rfl
  case copy =>
    subst has
    rw [Hw.copyNext_more q.isLt hworks hpend hread]
    rfl

end Sys2Proof.Machine
end

section
/-! PROOFS. Chapter 08: the accounting window, power and temperature samples, and the end of a raise (08/R285 to R291, R294). -/

namespace Sys2Proof.Machine

/-! ### What signals, wakes and records change (08/R300, 09/R340, 11/R370). -/

/-- The two modules differ at most in the interrupt controller, the power domains, the bits set in this cycle, the Kezil engine and
the fault unit. -/
structure Hw.SameBoard (h g : Hw) : Prop where
  eq : { g with irc := h.irc, power := h.power, risen := h.risen, kz := h.kz, flt := h.flt } = h

section
variable {h g : Hw}

theorem Hw.SameBoard.refl (h : Hw) : h.SameBoard h := ⟨rfl⟩

theorem Hw.SameBoard.trans {k : Hw} (hg : h.SameBoard g) (hk : g.SameBoard k) : h.SameBoard k := by
  obtain ⟨hg⟩ := hg
  rw [← hk.eq] at hg
  exact ⟨hg⟩

theorem Hw.SameBoard.bud (hg : h.SameBoard g) : g.bud = h.bud := (congrArg Hw.bud hg.eq :)
theorem Hw.SameBoard.sq (hg : h.SameBoard g) : g.sq = h.sq := (congrArg Hw.sq hg.eq :)
theorem Hw.SameBoard.jobs (hg : h.SameBoard g) : g.jobs = h.jobs := (congrArg Hw.jobs hg.eq :)
theorem Hw.SameBoard.dma (hg : h.SameBoard g) : g.dma = h.dma := (congrArg Hw.dma hg.eq :)
theorem Hw.SameBoard.seq (hg : h.SameBoard g) : g.seq = h.seq := (congrArg Hw.seq hg.eq :)
theorem Hw.SameBoard.tb (hg : h.SameBoard g) : g.tb = h.tb := (congrArg Hw.tb hg.eq :)
theorem Hw.SameBoard.bring (hg : h.SameBoard g) : g.bring = h.bring := (congrArg Hw.bring hg.eq :)
theorem Hw.SameBoard.fuses (hg : h.SameBoard g) : g.fuses = h.fuses := (congrArg Hw.fuses hg.eq :)

theorem Hw.SameBoard.rise (hg : h.SameBoard g) (w : W1c) (m : Nat) : h.SameBoard (g.rise w m) := hg.trans ⟨rfl⟩

theorem Hw.SameBoard.dropAsk (hg : h.SameBoard g) (d : Nat) : h.SameBoard (g.dropAsk d) := hg.trans ⟨rfl⟩

theorem Hw.SameBoard.askDomain (hg : h.SameBoard g) (d : Nat) (t : PwrState) : h.SameBoard (g.askDomain d t) := by
  refine hg.trans ?_
  unfold Hw.askDomain
  split <;> exact ⟨rfl⟩

theorem Hw.SameBoard.touchDom (hg : h.SameBoard g) (d : Nat) : h.SameBoard (g.touchDom d) := hg.trans ⟨rfl⟩

theorem Hw.SameBoard.modPort (hg : h.SameBoard g) (p : Bool) (f : Port → Port) : h.SameBoard (g.modPort p f) :=
  hg.trans (by cases p <;> exact ⟨rfl⟩)

theorem Hw.SameBoard.noteBoth (hg : h.SameBoard g) (n : Note) : h.SameBoard (g.noteBoth n) := by
  unfold Hw.noteBoth Hw.notePort
  exact (hg.modPort _ _).modPort _ _

theorem Hw.SameBoard.setFlt (hg : h.SameBoard g) (x : Flt) : h.SameBoard { g with flt := x } := hg.trans ⟨rfl⟩

theorem Hw.SameBoard.ringPush (hg : h.SameBoard g) (b : List Byte) : h.SameBoard (g.ringPush b) := hg.setFlt _

theorem Hw.SameBoard.stick (hg : h.SameBoard g) (m n : Nat) : h.SameBoard ((g.stick1 m).stick2 n) :=
  (((hg.setFlt _).rise _ _).setFlt _).rise _ _

theorem Hw.SameBoard.wakeDom (hg : h.SameBoard g) (d : Nat) : h.SameBoard (g.wakeDom d) := by
  unfold Hw.wakeDom
  dsimp only
  split
  · exact hg
  · have hmod (f : Domain → Domain) : h.SameBoard (g.modDom d f) := hg.trans ⟨rfl⟩
    split
    · exact hmod _
    · exact (hmod fun k => { k with held := none, wokeAt := some g.elapsed }).trans ⟨rfl⟩
    · split
      · exact (hmod fun k => { k with held := none, wokeAt := some g.elapsed }).trans ⟨rfl⟩
      · exact (hmod _).askDomain _ _

theorem Hw.SameBoard.irq (hg : h.SameBoard g) (n : Nat) : h.SameBoard (g.irq n) := by
  unfold Hw.irq
  dsimp only
  split
  · exact hg.trans ⟨rfl⟩
  · have hlatch : h.SameBoard { g with irc := { g.irc with latch := sins g.irc.latch n } } := hg.trans ⟨rfl⟩
    split
    · exact hlatch.wakeDom _
    · exact hlatch

/-- A fault record that names no square (09/R340 to R342). -/
theorem Hw.SameBoard.faultRecord (hg : h.SameBoard g) {f : FaultInfo} (hsq : f.sq = none) : h.SameBoard (g.faultRecord f) := by
  unfold Hw.faultRecord
  rw [hsq]
  extract_lets b seq _ numbered written _ placed marked stuck
  have hnumbered : h.SameBoard numbered := hg.setFlt _
  have hplaced : h.SameBoard placed := by
    unfold placed
    split
    · exact hnumbered.ringPush b
    · split
      · exact hnumbered.setFlt _
      · exact Hw.SameBoard.irq (hnumbered.setFlt _) 225
  have hstuck : h.SameBoard stuck := hplaced.stick _ _
  split
  · exact (hstuck.irq 224).noteBoth _
  · exact hstuck

end

/-! ### Throttling and gates (08/R287). -/

/-- The two modules differ at most in the clocks of squares and in the state of DMA channels, of which each keeps its descriptor in
progress. -/
structure Hw.Regated (h g : Hw) : Prop where
  bud : g.bud = h.bud
  desc : ∀ c, (g.dmaOf c).d = (h.dmaOf c).d

theorem Hw.Regated.modDma {h g : Hw} (hg : h.Regated g) (c : Nat) {f : Dma → Dma} (hf : ∀ k, (f k).d = k.d) :
    h.Regated (g.modDma c f) := by
  refine ⟨hg.bud, fun x => ?_⟩
  by_cases hx : x = c
  · subst hx
    rw [Hw.modDma_dmaOf_same, hf, hg.desc]
  · rw [Hw.modDma_dmaOf_ne _ _ hx, hg.desc]

theorem Hw.regate_regated (h : Hw) : h.Regated h.regate := by
  refine forAll_keeps h.Regated _ (fun c g hg => ?_) _ _ (forAll_keeps h.Regated _ (fun s g hg => ?_) _ _ ⟨rfl, fun _ => rfl⟩)
  · split
    · exact hg
    · exact hg.modDma c fun _ => rfl
  · dsimp only
    split
    · exact hg
    · exact ⟨hg.bud, hg.desc⟩

@[simp] theorem Hw.regate_bud (h : Hw) : h.regate.bud = h.bud := h.regate_regated.bud

theorem Hw.regate_desc (h : Hw) (c : Nat) : (h.regate.dmaOf c).d = (h.dmaOf c).d := h.regate_regated.desc c

/-- The module with throttling in force from now on. -/
def Hw.throttled (h : Hw) : Hw := { h with bud := { h.bud with throttle := true, throttleAt := h.tb.now } }

theorem Hw.throttleOn_sameBoard (h : Hw) : h.throttled.SameBoard h.throttleOn := by
  unfold Hw.throttleOn
  dsimp only
  split
  · exact .refl _
  · exact (Hw.SameBoard.refl h.throttled).irq 3

@[simp] theorem Hw.throttleOn_bud (h : Hw) : h.throttleOn.bud = { h.bud with throttle := true, throttleAt := h.tb.now } :=
  h.throttleOn_sameBoard.bud

@[simp] theorem Hw.throttleOn_dmaOf (h : Hw) (c : Nat) : h.throttleOn.dmaOf c = h.dmaOf c := by
  rw [dmaOf, h.throttleOn_sameBoard.dma]
  rfl

/-- The test for throttling changes no budget field but the throttle, and no descriptor in progress. -/
theorem Hw.throttleTest_bud (h : Hw) : h.throttleTest.bud = h.bud
    ∨ h.throttleTest.bud = { h.bud with throttle := true, throttleAt := h.tb.now } := by
  unfold Hw.throttleTest
  rw [Hw.regate_bud]
  split
  · exact .inr h.throttleOn_bud
  · exact .inl rfl

theorem Hw.throttleTest_desc (h : Hw) (c : Nat) : (h.throttleTest.dmaOf c).d = (h.dmaOf c).d := by
  unfold Hw.throttleTest
  rw [Hw.regate_desc]
  split
  · rw [Hw.throttleOn_dmaOf]
  · rfl

/-! ### The window (08/R285, R287, R289). -/

@[simp] theorem Hw.noteAvail_dmaOf (h : Hw) (c : Nat) : h.noteAvail.dmaOf c = h.dmaOf c := rfl

/-- The energy test of a window that has just begun, its BUD_AVAIL and its signal. -/
theorem Hw.windowTail_desc (h : Hw) (c : Nat) : (((h.throttleTest.noteAvail).irq 234).dmaOf c).d = (h.dmaOf c).d := by
  have hirq := (Hw.SameBoard.refl h.throttleTest.noteAvail).irq 234
  rw [dmaOf, hirq.dma, ← dmaOf, Hw.noteAvail_dmaOf, Hw.throttleTest_desc]

theorem Hw.windowTail_bud (h : Hw) : ∃ th at_ av, ((h.throttleTest.noteAvail).irq 234).bud
    = { h.bud with throttle := th, throttleAt := at_, avail := av } := by
  have hirq := (Hw.SameBoard.refl h.throttleTest.noteAvail).irq 234
  rw [hirq.bud]
  rcases h.throttleTest_bud with hb | hb
  · exact ⟨_, _, h.throttleTest.avail, by rw [noteAvail, hb]⟩
  · exact ⟨_, _, h.throttleTest.avail, by rw [noteAvail, hb]⟩

/-- The energy of the windows that the new limit looks back on (08/R285). -/
def Budget.newHist (b : Budget) : List Nat := (b.emNow :: b.hist).take 20

theorem lesser_le (a b : Int) : (if a < b then a else b) ≤ a ∧ (if a < b then a else b) ≤ b := by
  split <;> constructor <;> omega

/-- A window begins empty; its limit is at most BUD_WINDOW, and at most what the 19 windows before it leave of 1,200,000 µJ. -/
theorem Hw.windowStart_bud (h : Hw) (temps : List Int) : ∃ b, (h.windowStart temps).bud = b
    ∧ b.emNow = 0 ∧ b.emPrev = h.bud.emNow ∧ b.hist = h.bud.newHist ∧ b.winStart = h.tb.now / 1000000 * 1000000
    ∧ b.sqPrev = h.bud.sqNow ∧ b.c0Now = 0 ∧ b.winLimit ≤ (h.bud.limit : Int)
    ∧ b.winLimit + ((h.bud.newHist.take 19).sum : Nat) ≤ 1200000 := by
  unfold Hw.windowStart
  extract_lets b hist sum est x scaled y room third rest hotIdx lift begun
  obtain ⟨th, at_, av, hb⟩ := begun.windowTail_bud
  obtain ⟨hlimit, hthird⟩ := lesser_le (b.limit : Int) third
  have hlim : (if room < rest then room else rest) ≤ rest := (lesser_le room rest).2
  have hleft : rest + ((h.bud.newHist.take 19).sum : Nat) ≤ 1200000 := Int.add_le_of_le_sub_right hthird
  exact ⟨_, hb, rfl, rfl, rfl, rfl, rfl, rfl, Int.le_trans hlim hlimit,
    Int.le_trans (Int.add_le_add_right hlim _) hleft⟩

theorem Hw.windowStart_desc (h : Hw) (temps : List Int) (c : Nat) : ((h.windowStart temps).dmaOf c).d = (h.dmaOf c).d := by
  unfold Hw.windowStart
  rw [Hw.windowTail_desc]
  rfl

/-! ### Power samples (08/R287, R288). -/

/-- The module with the energy of a sample counted. -/
def Hw.sampled (h : Hw) (e : Nat) (sqs : List (Nat × Nat)) (c0 : Nat) : Hw :=
  { h with bud := { h.bud with
    emNow := h.bud.emNow + e, sqNow := sqs.foldl (fun m p => mupd 0 m p.1 (· + p.2)) h.bud.sqNow, c0Now := h.bud.c0Now + c0
    over72 := if 720 < e then some h.elapsed else h.bud.over72 } }

/-- The work that is never throttled passes its share: C0_OVER, a fault record and a notification (08/R288). -/
def Hw.c0Passed (h : Hw) : Hw :=
  let h := (({ h with bud := { h.bud with c0Over := true } } : Hw).rise .budget 2)
  let h := (h.faultRecord { det := 0x14 }).irq 6
  h.noteBoth ⟨9, 0, 0, h.tb.now, h.bud.status, []⟩

/-- What a sample makes of throttling (08/R287). -/
def Hw.sampleThrottle (h : Hw) (e : Nat) : Hw :=
  if h.overLimit || decide (720 < e) then h.throttleOn.regate
  else
    let b := h.bud
    let calm := b.over72.all fun t => decide (t + 100000 ≤ h.elapsed)
    if b.throttle && decide (b.throttleAt < b.winStart) && calm then ({ h with bud := { b with throttle := false } }).regate else h.regate

theorem Hw.powerSample_eq (h : Hw) (e : Nat) (sqs : List (Nat × Nat)) (c0 : Nat) : h.powerSample e sqs c0
    = (if h.bud.c0Now ≤ 60000 ∧ 60000 < h.bud.c0Now + c0 then (h.sampled e sqs c0).c0Passed
      else h.sampled e sqs c0).sampleThrottle e := rfl

theorem Hw.c0Passed_sameBoard (h : Hw) : ({ h with bud := { h.bud with c0Over := true } } : Hw).SameBoard h.c0Passed := by
  unfold Hw.c0Passed
  exact (((Hw.SameBoard.refl _).rise _ _).faultRecord rfl).irq 6 |>.noteBoth _

theorem Hw.sampleThrottle_desc (h : Hw) (e c : Nat) : ((h.sampleThrottle e).dmaOf c).d = (h.dmaOf c).d := by
  unfold Hw.sampleThrottle
  split
  · rw [Hw.regate_desc, Hw.throttleOn_dmaOf]
  · dsimp only
    split <;> exact Hw.regate_desc _ _

/-- Throttling changes no other field of the budget; above 720 µJ it is in force. -/
theorem Hw.sampleThrottle_bud (h : Hw) (e : Nat) : ∃ th at_, (h.sampleThrottle e).bud
    = { h.bud with throttle := th, throttleAt := at_ } ∧ (720 < e → th = true) := by
  unfold Hw.sampleThrottle
  split
  · exact ⟨_, _, by rw [Hw.regate_bud, Hw.throttleOn_bud], fun _ => rfl⟩
  · next hcalm =>
    have hlow : ¬720 < e := fun he => hcalm (by rw [decide_eq_true he, Bool.or_true])
    dsimp only
    split <;> exact ⟨_, _, Hw.regate_bud _, fun he => absurd he hlow⟩

/-- The budget and the descriptors in progress after a sample, but for throttling. -/
theorem Hw.powerSample_counts (h : Hw) (e : Nat) (sqs : List (Nat × Nat)) (c0 : Nat) : ∃ g : Hw,
    h.powerSample e sqs c0 = g.sampleThrottle e ∧ g.dma = h.dma ∧ g.bud = { (h.sampled e sqs c0).bud with
      c0Over := h.bud.c0Over || decide (h.bud.c0Now ≤ 60000 ∧ 60000 < h.bud.c0Now + c0) } := by
  refine ⟨_, h.powerSample_eq e sqs c0, ?_⟩
  split
  · next hpass =>
    have hc0 := (h.sampled e sqs c0).c0Passed_sameBoard
    exact ⟨hc0.dma, by rw [hc0.bud, decide_eq_true hpass, Bool.or_true]⟩
  · next hpass => exact ⟨rfl, by rw [decide_eq_false hpass, Bool.or_false]; rfl⟩

/-! ### Temperature samples (08/R290, R291). -/

theorem contains_sins (l : List Nat) (k : Nat) : (sins l k).contains k = true := by
  induction l with
  | nil => simp [sins]
  | cons a r ih =>
    unfold sins
    split
    · next h => simp [h]
    · split
      · simp
      · rw [List.contains_cons, ih, Bool.or_true]

theorem contains_sdel (l : List Nat) (k : Nat) : (sdel l k).contains k = false := by
  simp [sdel]

theorem contains_sput (l : List Nat) (k : Nat) (b : Bool) : (sput l k b).contains k = b := by
  cases b with
  | true => exact contains_sins l k
  | false => exact contains_sdel l k

/-- The two modules have the same budget and jobs, and every square reads the same temperature. -/
structure Hw.SameHeat (h g : Hw) : Prop where
  bud : g.bud = h.bud
  jobs : g.jobs = h.jobs
  temp : ∀ s, (g.sqOf s).temp = (h.sqOf s).temp

theorem Hw.SameBoard.sameHeat {h g : Hw} (hg : h.SameBoard g) : h.SameHeat g :=
  ⟨hg.bud, hg.jobs, fun s => by rw [sqOf, sqOf, hg.sq]⟩

section
variable {h g : Hw}

theorem Hw.SameHeat.trans {k : Hw} (hg : h.SameHeat g) (hk : g.SameHeat k) : h.SameHeat k :=
  ⟨hk.bud.trans hg.bud, hk.jobs.trans hg.jobs, fun s => (hk.temp s).trans (hg.temp s)⟩

theorem Hw.SameHeat.modSq (hg : h.SameHeat g) (s : Nat) {f : Square → Square} (hf : ∀ q, (f q).temp = q.temp) :
    h.SameHeat (g.modSq s f) := by
  refine hg.trans ⟨rfl, rfl, fun x => ?_⟩
  by_cases hx : x = s
  · subst hx
    rw [Hw.modSq_sqOf_same, hf]
  · rw [Hw.modSq_sqOf_ne _ _ hx]

theorem Hw.SameHeat.askVolt (hg : h.SameHeat g) (s n : Nat) (up : Bool) : h.SameHeat (g.askVolt s n up) :=
  hg.trans ⟨rfl, rfl, fun _ => rfl⟩

/-- A change of point leaves the readings of the sensors as they are (08/R293, R294). -/
theorem Hw.SameHeat.setPoint (hg : h.SameHeat g) (s p : Nat) : h.SameHeat (g.setPoint s p) := by
  unfold Hw.setPoint
  dsimp only
  split
  · exact (hg.modSq s (f := fun q => { q with raising := none, volt := none }) fun _ => rfl).askVolt s 0 true
  · split
    · exact (hg.modSq s (f := fun q => q.switchTo p g.elapsed) fun _ => rfl).askVolt s _ false
    · unfold Hw.askRaise
      dsimp only
      split
      · exact hg
      · exact (hg.modSq s (f := fun q => { q with raising := some p, volt := none }) fun _ => rfl).askVolt s _ true

end

theorem Hw.trip_tripped {h : Hw} (ht : h.bud.trip = true) : h.trip = h := if_pos ht

theorem Hw.anyJob_of_jobs {h g : Hw} (hg : g.jobs = h.jobs) : g.anyJob = h.anyJob := by simp only [anyJob, jobOf, hg]

/-- Without a running job a trip sets TRIP and takes squares into RETAIN (08/R291). -/
theorem Hw.trip_noJob {h : Hw} (ht : h.bud.trip = false) (hjob : h.anyJob = false) :
    ({ h with bud := { h.bud with trip := true } } : Hw).SameBoard h.trip := by
  have hnone : (({ h with bud := { h.bud with trip := true } } : Hw).rise .budget 16).anyJob = false := hjob
  unfold Hw.trip
  rw [if_neg (by rw [ht]; decide)]
  dsimp only
  rw [if_neg (by rw [hnone]; decide)]
  refine ((forAll_keeps _ _ (fun s g hg => ?_) _ _ (((Hw.SameBoard.refl _).rise _ _).faultRecord rfl)).irq 5).noteBoth _
  split
  · exact hg.askDomain _ _
  · exact hg.askDomain _ _
  · exact hg.dropAsk _

theorem Hw.trip_heat {h : Hw} (hjob : h.anyJob = false) :
    ({ h with bud := { h.bud with trip := true } } : Hw).SameHeat h.trip := by
  cases ht : h.bud.trip with
  | false => exact (Hw.trip_noJob ht hjob).sameHeat
  | true =>
    rw [Hw.trip_tripped ht]
    exact ⟨by rw [← ht], rfl, fun _ => rfl⟩

/-- The module with a reading of a square and with what it says of the square's heat. -/
def Hw.tempRead (h : Hw) (s : Nat) (t : Int) : Hw :=
  let g := h.modSq s fun q => { q with temp := t }
  { g with bud := { g.bud with hot := sput g.bud.hot s (decide ((h.bud.tlim : Int) - 3 ≤ t)) } }

/-- The signal and the point that a reading brings about. -/
def Hw.tempNoted (h : Hw) (s : Nat) (t : Int) : Hw :=
  let hot := decide ((h.bud.tlim : Int) - 3 ≤ t)
  let was := h.bud.hot.contains s
  let g := if hot && !was then (h.tempRead s t).irq 4 else h.tempRead s t
  if hot != was && (g.heldBy s).isSome && (g.jobOfSq s).isNone then g.setPoint s (g.idlePoint s) else g

theorem Hw.tempSample_eq (h : Hw) (s : Nat) (t : Int) :
    h.tempSample s t = if 125 ≤ t then (h.tempNoted s t).trip else h.tempNoted s t := rfl

theorem Hw.tempNoted_heat (h : Hw) (s : Nat) (t : Int) : (h.tempRead s t).SameHeat (h.tempNoted s t) := by
  have hread : (h.tempRead s t).SameHeat (h.tempRead s t) := ⟨rfl, rfl, fun _ => rfl⟩
  unfold Hw.tempNoted
  extract_lets hot was g
  have hg : (h.tempRead s t).SameHeat g := by
    unfold g
    split
    · exact hread.trans ((Hw.SameBoard.refl _).irq 4).sameHeat
    · exact hread
  split
  · exact hg.setPoint _ _
  · exact hg

/-- After a reading the square has it, is hot or not by it, and 125 °C have set TRIP, if no job runs. -/
theorem Hw.tempSample_heat {h : Hw} {t : Int} (hjob : t < 125 ∨ h.anyJob = false) (s : Nat) :
    ({ h.tempRead s t with bud := { (h.tempRead s t).bud with trip := h.bud.trip || decide (125 ≤ t) } } : Hw).SameHeat
      (h.tempSample s t) := by
  obtain ⟨hbud, hjobs, htemp⟩ := h.tempNoted_heat s t
  rw [Hw.tempSample_eq]
  split
  · next h125 =>
    have hnone : (h.tempNoted s t).anyJob = false :=
      (Hw.anyJob_of_jobs hjobs).trans (hjob.resolve_left (Int.not_lt.mpr h125))
    obtain ⟨hbud', hjobs', htemp'⟩ := Hw.trip_heat hnone
    refine ⟨?_, hjobs'.trans hjobs, fun x => (htemp' x).trans (htemp x)⟩
    rw [hbud', hbud, decide_eq_true h125, Bool.or_true]
  · next h125 =>
    refine ⟨?_, hjobs, htemp⟩
    rw [hbud, decide_eq_false h125, Bool.or_false]
    rfl

/-! ### The end of a raise (08/R294). -/

/-- The change of voltage of a raise has begun: none of the square waits. -/
theorem Hw.raise_begun {h : Hw} {s : Nat} (hwait : ∀ n, Transition.dvfs s n true ∉ h.power.waiting) :
    (h.power.waiting.any fun t => match t with | .dvfs x _ up => x == s && up | .domain _ _ => false) = false := by
  rw [List.any_eq_false]
  intro t ht
  cases t with
  | domain d v => exact Bool.false_ne_true
  | dvfs x n up =>
    intro hmatch
    rw [Bool.and_eq_true, beq_iff_eq] at hmatch
    obtain ⟨rfl, rfl⟩ := hmatch
    exact hwait n ht

section
variable {h : Hw} {s p : Nat} (hraise : (h.sqOf s).raising = some p) (hwait : ∀ n, Transition.dvfs s n true ∉ h.power.waiting)
include hraise hwait

theorem Hw.raiseDone_begun : h.raiseDone s
    = if h.awaitsStart s then h.modSq s fun q => { q with raising := none, volt := some p }
      else if h.heldLow s then h.modSq s fun q => { q with raising := none }
      else h.modSq s fun q => q.switchTo p h.elapsed := by
  unfold Hw.raiseDone
  extract_lets begun
  have hbegun : begun = true := congrArg Bool.not (Hw.raise_begun hwait)
  rw [hraise, hbegun]
  rfl

end

/-! ### The commands. -/

theorem exec_windowStart (temps : List Int) (s : State) :
    exec (.windowStart temps) s = .next (s.withHw (s.hw.windowStart temps).pscResume) := rfl

theorem exec_powerSample (e : Nat) (sqs : List (Nat × Nat)) (c0 : Nat) (s : State) :
    exec (.powerSample e sqs c0) s = .next (s.withHw (s.hw.powerSample e sqs c0).pscResume) := rfl

theorem exec_tempSample (q : Fin 64) (t : Int) (s : State) :
    exec (.tempSample q t) s = .next (s.withHw (s.hw.tempSample q t)) := rfl

theorem exec_dvfsRaiseComplete (q : Fin 64) (s : State) :
    exec (.dvfsRaiseComplete q) s = .next (s.withHw (s.hw.raiseDone q)) := rfl

/-- Settles O53: a window and a sample change the budget alone, as no descriptor goes on; a reading changes its square and what the
budget says of its heat; and a raise ends by what the square waits for. -/
theorem powerAccounting : Obligations.PowerAccounting := by
  unfold Obligations.PowerAccounting
  intro s
  refine ⟨fun hidle => ⟨fun temps => ?window, fun e sqs c0 => ?sample⟩, fun q x hjob => ?temp, fun q p hraise hwait => ?raise⟩
  case window =>
    rw [exec_windowStart, Hw.pscResume_idle fun c => (s.hw.windowStart_desc temps c).trans (hidle c)]
    obtain ⟨b, hb, hnow, hprev, hhist, hstart, hsq, hc0, hlim, hsum⟩ := s.hw.windowStart_bud temps
    refine ⟨_, rfl, ?_⟩
    rw [State.withHw_hw, hb, hhist]
    exact ⟨hnow, hprev, rfl, hstart, hsq, hc0, hlim, hsum⟩
  case sample =>
    obtain ⟨g, hg, hdma, hbud⟩ := s.hw.powerSample_counts e sqs c0
    obtain ⟨th, at_, hth, hover⟩ := g.sampleThrottle_bud e
    have hdesc (c : Fin 16) : ((g.sampleThrottle e).dmaOf c).d = none := by
      rw [Hw.sampleThrottle_desc, Hw.dmaOf, hdma]
      exact hidle c
    rw [exec_powerSample, hg, Hw.pscResume_idle hdesc]
    refine ⟨_, rfl, ?_⟩
    rw [State.withHw_hw, hth, hbud]
    exact ⟨rfl, rfl, rfl, hover⟩
  case temp =>
    obtain ⟨hbud, -, htemp⟩ := Hw.tempSample_heat hjob q.val
    refine ⟨_, exec_tempSample q x s, ?_⟩
    rw [State.withHw_hw, hbud, htemp]
    refine ⟨?_, contains_sput _ _ _, rfl⟩
    exact congrArg Square.temp (Hw.modSq_sqOf_same s.hw q.val fun k => { k with temp := x })
  case raise =>
    rw [exec_dvfsRaiseComplete, Hw.raiseDone_begun hraise hwait]
    refine ⟨fun hstart hlow => ?_, fun hstart hlow => ?_, fun hstart => ?_⟩
    · rw [if_neg (by rw [hstart]; decide), if_neg (by rw [hlow]; decide)]
      rfl
    · rw [if_neg (by rw [hstart]; decide), if_pos hlow]
    · rw [if_pos hstart]

end Sys2Proof.Machine
end

section
/-! PROOFS. Chapter 08: a TEMPO_RUN whose TID is that of the job that it is refused for (08/R273, R278). -/

namespace Sys2Proof.Machine

/-- TEMPO_RUN, class 0, TID 0, on square 0, and ready to start (08/T8-1). -/
def sameTidTask : Task := { desc := [1, 0, 0, 0, 1] ++ List.replicate 59 0, state := .ready }

/-- The task alone in task memory, while job slot 0 runs a job on square 0 that carries TID 0 too. -/
def sameTidState : State :=
  { pending := [], hw := { seq := { tasks := [(0, sameTidTask)] }, jobs := [(0, { active := true, tid := 0, mask := 1 })] } }

theorem exec_taskStart (s : State) : exec .taskStart s = .next (s.withHw s.hw.seqCycle) := rfl

/-- The task is refused with BUSY, and its end takes the running job of its slot for its own. -/
theorem sameTidState_jobOver : (sameTidState.hw.jobOf 0).active = true ∧ (sameTidState.hw.seqCycle.jobOf 0).active = false := by
  decide +kernel

/-- Refutes O52: a TEMPO_RUN on squares of a running job does not leave the jobs as they are when that job runs in the slot that the
task's entry names and carries the task's TID: the task's end ends the job. No hypothesis keeps the TID of a ready task from being
that of a running job. -/
theorem not_tasksStartAndEnd : ¬ Obligations.TasksStartAndEnd := by
  unfold Obligations.TasksStartAndEnd
  intro h
  obtain ⟨hstarts, -, -⟩ := h sameTidState
  obtain ⟨-, -, -, halone⟩ := hstarts rfl
  have heligible : sameTidState.hw.eligible = [(0, sameTidTask)] := by decide +kernel
  have hon : (sameTidState.hw.taskDomains sameTidTask).all (fun d => sameTidState.hw.isOn d) = true := by decide +kernel
  have hoverlap : sameTidState.hw.jobOverlap sameTidTask.mask = true := by decide +kernel
  obtain ⟨-, htempoRun, -, -⟩ := halone 0 sameTidTask heligible rfl rfl hon rfl rfl rfl rfl rfl _ rfl _ rfl
  obtain ⟨hbusy, -⟩ := htempoRun rfl
  obtain ⟨u, hu, -, hjobs⟩ := hbusy hoverlap
  rw [exec_taskStart] at hu
  injection hu with hu
  subst hu
  obtain ⟨hruns, hover⟩ := sameTidState_jobOver
  rw [State.withHw_hw] at hjobs
  have hkept : sameTidState.hw.seqCycle.jobOf 0 = sameTidState.hw.jobOf 0 := by rw [Hw.jobOf, Hw.jobOf, hjobs]
  rw [hkept, hruns] at hover
  exact absurd hover (by decide)

end Sys2Proof.Machine
end

section
/-! PROOFS. Chapters 08 and 10: the graph commands of the Kezil engine (08/R268 to R271, R274, R276, R280, 10/R350). -/

namespace Sys2Proof.Machine

/-! ### The arrival of a command at a quiet port (10/R348, R349). -/

/-- The arrival of a command changes at most the Kezil engine, the interrupt controller and power domains. -/
theorem Hw.arrived_sameBoard (hw : Hw) (p : Bool) : hw.SameBoard (hw.arrived p) := by
  unfold Hw.arrived Hw.kzTouch
  dsimp only
  refine ((((Hw.SameBoard.mk ?_).wakeDom _).wakeDom _).touchDom _).irq _
  split <;> rfl

/-- A command as its port holds it on arrival. -/
def Hw.cmdAt (hw : Hw) (op tag : Nat) (async : Bool) (ps : List Byte) : Cmd :=
  { cmdOf op tag async ps with arrived := hw.kz.arrivals, time := hw.tb.now }

/-- An opcode of a port that may use every opcode: it needs S8, the owner at most, and PROVISIONED, DEPLOYED or SERVICE, it takes no
DMA channel, and its command is well framed (10/R348). -/
structure Permitted (op tag : Nat) (async : Bool) (ps : List Byte) : Prop where
  row : ∃ r, opRow op = some r ∧ r.lcs = lcPDS ∧ (async = false ∨ r.async = true)
  noChannel : op ≠ opMemRead ∧ op ≠ opMemWrite
  tag : tag ≠ 0xFFFF
  len : ps.length ≤ maxPlen

section
variable {hw : Hw} {p async : Bool} {op tag : Nat} {ps : List Byte}

theorem Hw.mayAll_kzChecks (hmay : hw.mayAll p) (hok : Permitted op tag async ps) :
    (hw.arrived p).kzChecks p (hw.cmdAt op tag async ps) = (stOK, 0) := by
  obtain ⟨howner, hserved, hlc⟩ := hmay
  obtain ⟨⟨r, hrow, hlcs, hasync⟩, -, htag, hlen⟩ := hok
  have hsame := hw.arrived_sameBoard p
  have hbad : (hw.cmdAt op tag async ps).bad = none := by
    simp only [cmdAt, cmdOf, Nat.not_lt.mpr hlen, htag, if_false]
  have hserved' : (hw.arrived p).served = true := by
    rw [served, ready, hsame.bring]
    exact hserved
  have howner' : (hw.arrived p).kz.owner = some p := by rw [Hw.arrived_kz]; exact howner
  have hstate : r.lcs.testBit (hw.arrived p).fuses.lc = true := by
    rw [hlcs, hsame.fuses]
    rcases hlc with h | h | h <;> rw [h] <;> decide
  exact Hw.kzChecks_ok hbad hrow hasync (.inr hserved') (.inr howner') hstate

/-- A permitted command that arrives at a quiet port is carried out at once, over what its arrival leaves. -/
theorem Hw.kzCommand_permitted (hq : hw.kzQuiet p) (hmay : hw.mayAll p) (hok : Permitted op tag async ps) :
    hw.kzCommand op p async tag ps
      = (((hw.arrived p).kzExec p (hw.cmdAt op tag async ps)).1.kzAnswer p (hw.cmdAt op tag async ps)
          ((hw.arrived p).kzExec p (hw.cmdAt op tag async ps)).2).kzGrant := by
  have hroom : (hw.arrived p).kzRoom p (hw.cmdAt op tag async ps) = true := by
    have hop : (hw.cmdAt op tag async ps).opcode = op := rfl
    simp only [kzRoom, hop, bne_iff_ne.mpr hok.noChannel.1, bne_iff_ne.mpr hok.noChannel.2, Bool.and_self, Bool.true_or]
  rw [Hw.kzCommand_quiet hq hroom, ← cmdAt]
  simp only [kzStart, Hw.mayAll_kzChecks hmay hok, ne_eq, not_true, if_false]

/-- A permitted command that is done in one step is answered OK. -/
theorem Hw.kzCommand_answered {h : Hw} (hq : hw.kzQuiet p) (hmay : hw.mayAll p) (hok : Permitted op tag async ps)
    (hx : (hw.arrived p).kzExec p (hw.cmdAt op tag async ps) = (h, .done stOK 0 [])) :
    hw.kzCommand op p async tag ps = (h.answered p op tag async stOK 0 []).kzGrant := by
  rw [Hw.kzCommand_permitted hq hmay hok, hx]
  rfl

end

/-- Work that leaves the Kezil engine as the arrival left it leaves what its ports have in progress. -/
theorem Hw.portOf_current_arrived {hw h : Hw} {p : Bool} (hkz : h.kz = (hw.arrived p).kz) (g : Bool) :
    (h.portOf g).current = (hw.portOf g).current := by
  rw [← Hw.arrived_portOf hw p g, portOf, portOf, hkz]

/-- Work that starts no command at a quiet port leaves nothing to be granted after its reply. -/
theorem Hw.answered_kzGrant {hw h : Hw} {p : Bool} (hq : hw.kzQuiet p)
    (hkept : ∀ g, (h.portOf g).current = (hw.portOf g).current) (op tag : Nat) (async : Bool) :
    (h.answered p op tag async stOK 0 []).kzGrant = h.answered p op tag async stOK 0 [] := by
  obtain ⟨-, -, -, -, hcur, hcur', -⟩ := hq
  refine Hw.kzGrant_none' (p := p) ?_ ?_
  · rw [Hw.answered_current, hkept]; exact hcur
  · rw [Hw.answered_current, hkept]; exact hcur'

/-- A permitted command that is done in one step, and leaves the Kezil engine as its arrival did, completes. -/
theorem Hw.kzCommand_completes {hw h : Hw} {p : Bool} {op tag : Nat} {ps : List Byte} (hq : hw.kzQuiet p) (hmay : hw.mayAll p)
    (hok : Permitted op tag false ps) (hx : (hw.arrived p).kzExec p (hw.cmdAt op tag false ps) = (h, .done stOK 0 []))
    (hkz : h.kz = (hw.arrived p).kz) : hw.kzCommand op p false tag ps = h.answered p op tag false stOK 0 [] := by
  rw [Hw.kzCommand_answered hq hmay hok hx, Hw.answered_kzGrant hq (Hw.portOf_current_arrived hkz)]

/-! ### What the graph opcodes carry out (10/T10-11). -/

section
variable (h : Hw) (p : Bool) {c : Cmd}

theorem Hw.kzExec_graphSubmit (hc : c.opcode = 0x0401) : h.kzExec p c = h.kzGraphSubmit c.params := by
  simp only [kzExec, kzExecA, hc]

theorem Hw.kzExec_taskRetire (hc : c.opcode = 0x0402) : h.kzExec p c = h.kzTaskRetire c.params := by
  simp only [kzExec, kzExecA, hc]

theorem Hw.kzExec_taskCancel (hc : c.opcode = 0x0403) : h.kzExec p c = h.kzTaskCancel c.params := by
  simp only [kzExec, kzExecA, hc]

theorem Hw.kzExec_jobStop (hc : c.opcode = 0x0405) : h.kzExec p c = h.kzJobStop c.params := by
  simp only [kzExec, kzExecA, hc]

end

theorem exec_graphSubmit (p async : Bool) (tag : BitVec 16) (ps : List Byte) (s : State) :
    exec (.graphSubmit p async tag ps) s = .next (s.withHw (s.hw.kzCommand 0x0401 p async tag.toNat ps)) := rfl

theorem exec_taskRetire (p async : Bool) (tag : BitVec 16) (ps : List Byte) (s : State) :
    exec (.taskRetire p async tag ps) s = .next (s.withHw (s.hw.kzCommand 0x0402 p async tag.toNat ps)) := rfl

theorem exec_taskCancel (p async : Bool) (tag : BitVec 16) (ps : List Byte) (s : State) :
    exec (.taskCancel p async tag ps) s = .next (s.withHw (s.hw.kzCommand 0x0403 p async tag.toNat ps)) := rfl

theorem exec_jobStop (p async : Bool) (tag : BitVec 16) (ps : List Byte) (s : State) :
    exec (.jobStop p async tag ps) s = .next (s.withHw (s.hw.kzCommand 0x0405 p async tag.toNat ps)) := rfl

theorem permitted_graph {op tag : Nat} {async : Bool} {ps : List Byte} (hop : op = 0x0401 ∨ op = 0x0402 ∨ op = 0x0403 ∨ op = 0x0405)
    (hasync : async = false ∨ op = 0x0405) (htag : tag ≠ 0xFFFF) (hlen : ps.length ≤ maxPlen) : Permitted op tag async ps := by
  refine ⟨?_, ?_, htag, hlen⟩
  · obtain rfl | rfl | rfl | rfl := hop
    · exact ⟨_, rfl, rfl, hasync.imp_right (by decide)⟩
    · exact ⟨_, rfl, rfl, hasync.imp_right (by decide)⟩
    · exact ⟨_, rfl, rfl, hasync.imp_right (by decide)⟩
    · exact ⟨_, rfl, rfl, .inr rfl⟩
  · obtain rfl | rfl | rfl | rfl := hop <;> decide

/-! ### Parameters (00/R10, 10/T10-11). -/

theorem leAt_leBytes (n v : Nat) : leAt (leBytes n v) 0 n = v % 256 ^ n := by
  have hall : (leBytes n v).take n = leBytes n v := List.take_of_length_le (Nat.le_of_eq (length_leBytes n v))
  rw [leAt, List.drop_zero, hall, ofLe_leBytes_mod]

/-- A TID as two bytes. -/
theorem leAt_tid (t : Fin 4096) : leAt (leBytes 2 t) 0 2 = t.val := by
  rw [leAt_leBytes, Nat.mod_eq_of_lt (by omega)]

theorem tidsOf_one (t : Fin 4096) : tidsOf (leBytes 2 t) = [t.val] := by
  simp only [tidsOf, length_leBytes, Nat.div_self (by decide : 0 < 2), List.range_one, List.map_cons, List.map_nil, Nat.mul_zero,
    leAt_tid]

theorem tidsOk_one (t : Fin 4096) : tidsOk (leBytes 2 t) = true := by
  have ht : t.val ≤ 4095 := by omega
  simp [tidsOk, itemsOk, tidsOf_one, ht]

theorem leAt_slot (j : Fin 4) : leAt [BitVec.ofNat 8 j.val] 0 1 = j.val := by
  revert j
  decide

theorem firstOf_eq_none {l : List Nat} {f : Nat → Bool} (h : ∀ i ∈ l, f i = false) : firstOf l f = none :=
  List.find?_eq_none.mpr fun i hi => by rw [h i hi]; exact Bool.false_ne_true

/-! ### GRAPH_SUBMIT (08/R270, R271, R274). -/

/-- The module with the descriptors of a batch in task memory. -/
def Hw.batchTaken (h : Hw) (batch : List Task) : Hw :=
  { h with seq := { h.seq with tasks := batch.foldl (fun m (k : Task) => mset m k.tid k) h.seq.tasks } }

/-- A batch whose descriptors all pass, and for which there is room, is taken whole. -/
theorem Hw.kzGraphSubmit_taken {h : Hw} {ps : List Byte} (hitems : itemsOk ps 64 = true)
    (hok : ∀ i, i < (batchOf ps).length → h.batchStatus (batchOf ps) i = stOK)
    (hroom : h.seq.tasks.length + (batchOf ps).length ≤ 4096) :
    h.kzGraphSubmit ps = ((h.batchTaken (batchOf ps)).settle, .done stOK 0 []) := by
  have hfirst : firstOf (List.range (batchOf ps).length) (fun i => h.batchStatus (batchOf ps) i != stOK) = none :=
    firstOf_eq_none fun i hi => by rw [hok i (List.mem_range.mp hi)]; rfl
  simp only [kzGraphSubmit, hitems, submit, hfirst, Nat.not_lt.mpr hroom, Bool.not_true, Bool.false_eq_true, if_false, batchTaken]

theorem batchOf_one {ps : List Byte} (h : ps.length = 64) : batchOf ps = [{ desc := ps }] := by
  have hall : ps.take 64 = ps := List.take_of_length_le (Nat.le_of_eq h)
  simp [batchOf, h, hall]

/-- A descriptor alone, into an empty task memory, fails by its own fields only. -/
theorem Hw.batchStatus_alone {h : Hw} {k : Task} (hempty : h.seq.tasks = []) (hpreds : k.preds = []) (hok : h.descStatus k = stOK) :
    h.batchStatus [k] 0 = stOK := by
  simp [batchStatus, hok, taskOf, hempty, mfind, hpreds, reaches]

section
variable {h : Hw} {t : Nat} {k : Task} (halone : h.seq.tasks = [(t, k)])
include halone

theorem Hw.taskOf_alone : h.taskOf t = some k := by
  simp only [taskOf, mfind, halone, List.find?_cons, beq_self_eq_true, Option.map_some]

theorem Hw.modTask_alone (f : Task → Task) : h.modTask t f = { h with seq := { h.seq with tasks := [(t, f k)] } } := by
  simp only [modTask, Hw.taskOf_alone halone, halone, mset, if_true]

end

/-- Without a waiting task nothing is woken ahead of work (08/R302). -/
theorem Hw.wakeAhead_none {h : Hw} (hnone : ∀ x ∈ h.seq.tasks, x.2.state ≠ .waiting) : h.wakeAhead = h := by
  have hdue : (h.seq.tasks.filter fun p => p.2.state == .waiting && !p.2.imminent && h.imminent p.2) = [] := by
    refine List.filter_eq_nil_iff.mpr fun x hx => ?_
    rw [beq_eq_false_iff_ne.mpr (hnone x hx)]
    exact Bool.false_ne_true
  rw [wakeAhead, hdue]
  rfl

/-- A task without predecessors becomes READY; a CONSOLIDATE task that no running job binds is no more than that. -/
theorem Hw.settle_alone {h : Hw} {t : Nat} {k : Task} (halone : h.seq.tasks = [(t, k)]) (hstate : k.state = .waiting)
    (hpreds : k.preds = []) (hbind : k.ty = tyConsolidate → h.bindJob k = none) :
    h.settle = { h with seq := { h.seq with tasks := [(t, { k with state := .ready, readyAt := h.tb.now })] } } := by
  have hready : h.becomeReady t k
      = { h with seq := { h.seq with tasks := [(t, { k with state := .ready, readyAt := h.tb.now })] } } := by
    rw [becomeReady, Hw.modTask_alone halone]
    dsimp only
    split
    · next hcons =>
      have hnone : ({ h with seq := { h.seq with tasks := [(t, { k with state := .ready, readyAt := h.tb.now })] } } : Hw).bindJob k
          = none := hbind hcons
      rw [bind, hnone]
    · rfl
  have hresolve : h.resolve k = some none := by simp [resolve, hpreds]
  have honce : h.settleOnce = h.becomeReady t k := by
    simp only [settleOnce, halone, List.foldl_cons, List.foldl_nil, Hw.taskOf_alone halone, hstate, hresolve, if_true]
  have hlen : h.seq.tasks.length = 1 := by rw [halone]; rfl
  rw [settle, hlen, settleN, settleN, honce, hready]
  refine Hw.wakeAhead_none fun x hx => ?_
  rw [List.mem_singleton.mp hx]
  exact nofun

theorem Hw.settle_batchTaken_alone {h : Hw} {k : Task} (hempty : h.seq.tasks = []) (hstate : k.state = .waiting)
    (hpreds : k.preds = []) (hbind : k.ty = tyConsolidate → h.bindJob k = none) : (h.batchTaken [k]).settle
      = { h with seq := { h.seq with tasks := [(k.tid, { k with state := .ready, readyAt := h.tb.now })] } } := by
  have halone : (h.batchTaken [k]).seq.tasks = [(k.tid, k)] := by
    simp only [batchTaken, hempty, List.foldl_cons, List.foldl_nil, mset]
  exact Hw.settle_alone halone hstate hpreds hbind

/-! ### TASK_RETIRE (08/R268, R271). -/

theorem Hw.retireStatus_free {h : Hw} {t : Nat} {k : Task} (hk : h.taskOf t = some k) (hended : k.state.ended = true)
    (hfree : ∀ x ∈ h.seq.tasks, x.2.state = .waiting ∨ x.2.state = .ready → x.2.preds.contains t = false) :
    h.retireStatus t = stOK := by
  have hnamed : (h.seq.tasks.any fun p => (p.2.state == .waiting || p.2.state == .ready) && p.2.preds.contains t) = false := by
    rw [List.any_eq_false]
    intro x hx hmatch
    rw [Bool.and_eq_true, Bool.or_eq_true, beq_iff_eq, beq_iff_eq] at hmatch
    obtain ⟨hopen, hpred⟩ := hmatch
    exact Bool.false_ne_true ((hfree x hx hopen).symm.trans hpred)
  simp only [retireStatus, hk, hended, hnamed, Bool.not_true, Bool.false_eq_true, if_false]

/-- One task that may be retired is retired. -/
theorem Hw.kzTaskRetire_one {h : Hw} {t : Fin 4096} (hfree : h.retireStatus t = stOK) : h.kzTaskRetire (leBytes 2 t)
    = ({ h with seq := { h.seq with tasks := h.seq.tasks.filter fun x => x.1 != t.val } }, .done stOK 0 []) := by
  have hfirst : firstOf (List.range [t.val].length) (fun i => h.retireStatus ([t.val].getD i 0) != stOK) = none :=
    firstOf_eq_none fun i hi => by
      rw [Nat.lt_one_iff.mp (List.mem_range.mp hi)]
      exact bne_eq_false_iff_eq.mpr hfree
  have hkeep : (fun x : Nat × Task => !([t.val].contains x.1)) = fun x => x.1 != t.val := by
    funext x
    rw [List.contains_cons, List.contains_nil, Bool.or_false]
    rfl
  simp only [kzTaskRetire, tidsOk_one, tidsOf_one, retire, hfirst, hkeep, Bool.not_true, Bool.false_eq_true, if_false]

/-! ### TASK_CANCEL and JOB_STOP (08/R276, R280). -/

theorem Hw.kzTaskCancel_one {h h' : Hw} {t : Fin 4096} {st : Nat} (hcancel : h.cancel t = (h', st)) :
    h.kzTaskCancel (leBytes 2 t) = (h', .done st 0 []) := by
  have hbound : ¬((leBytes 2 t.val).length ≠ 2 ∨ 4095 < t.val) := by
    rw [length_leBytes]
    omega
  simp only [kzTaskCancel, leAt_tid, if_neg hbound, hcancel]

section
variable {h : Hw} {t : Nat} {k : Task} (hk : h.taskOf t = some k)
include hk

/-- A task that has not started, and a running WAIT_TIME or DOORBELL, ends with CLOSED; one that was READY is bound no more. -/
theorem Hw.cancel_closes (hstate : k.state = .waiting ∨ k.state = .ready ∨ (k.state = .running ∧ (k.ty = tyWaitTime ∨ k.ty = tyDoorbell))) :
    h.cancel t = (if k.state = .ready then (h.taskEnd t stCLOSED).unbind t else h.taskEnd t stCLOSED, stOK) := by
  obtain hs | hs | ⟨hs, hty⟩ := hstate
  · simp only [cancel, hk, hs, reduceCtorEq, if_false]
  · simp only [cancel, hk, hs, if_true]
  · simp only [cancel, hk, hs, hty, reduceCtorEq, if_false, if_true]

theorem Hw.cancel_stops (hstate : k.state = .running) (hty : k.ty = tyTempoRun) (hopen : k.param 4 4 = 0) :
    h.cancel t = (h.modJob k.jslot Job.stopNow, stOK) := by
  simp [cancel, hk, hstate, hty, hopen, tyTempoRun, tyWaitTime, tyDoorbell]

end

/-- A stop asked for again keeps the tempo of the first. -/
theorem Job.stopNow_eq : Job.stopNow = fun k => { k with stopReq := true, stopT := if k.stopReq then k.stopT else k.tempo } := by
  funext k
  unfold Job.stopNow
  split
  · next hstop => rw [← hstop]
  · rfl

theorem Hw.kzJobStop_open {h : Hw} {j : Fin 4} (hactive : (h.jobOf j).active = true) (hopen : (h.jobOf j).ntempo = 0) :
    h.kzJobStop [BitVec.ofNat 8 j.val] = (h.modJob j Job.stopNow, .wait (.task (h.jobOf j).tid)) := by
  have hbound : ¬([BitVec.ofNat 8 j.val].length ≠ 1 ∨ 3 < j.val) := by
    rw [List.length_singleton]
    omega
  simp only [kzJobStop, leAt_slot, if_neg hbound, hactive, hopen, Bool.not_true, Bool.false_eq_true, ne_eq, not_true, if_false]

/-- While the owner's own command is in progress, nothing is granted (10/R354). -/
theorem Hw.kzGrant_ownerBusy {h : Hw} {p : Bool} (howner : h.kz.owner = some p) (hbusy : (h.portOf p).current.isSome = true) :
    h.kzGrant = h := by
  have hidle : (h.portOf p).current.isNone = false := by rw [← Option.not_isSome, hbusy]; rfl
  simp only [kzGrant, howner, hidle, Bool.not_false, if_true]

theorem Hw.kzAnswer_wait (h : Hw) (p : Bool) {c : Cmd} (w : KWait) (hc : c.async = false) :
    h.kzAnswer p c (.wait w) = h.modPort p fun q => { q with current := some (c, w) } := by
  simp only [kzAnswer, hc, Bool.false_eq_true, if_false]

/-- The module with one more asynchronous command that runs. -/
def Hw.withRunning (h : Hw) (r : Running) : Hw := { h with kz := { h.kz with running := h.kz.running ++ [r] } }

theorem Hw.withRunning_portOf (h : Hw) (r : Running) (g : Bool) : (h.withRunning r).portOf g = h.portOf g := rfl

/-- An asynchronous command that waits is answered OK and counted among those that run. -/
theorem Hw.kzAnswer_asyncWait (h : Hw) (p : Bool) {c : Cmd} (w : KWait) (hc : c.async = true) :
    h.kzAnswer p c (.wait w) = (h.withRunning ⟨p, c, w⟩).answered p c.opcode c.tag true stOK 0 [] := by
  simp only [kzAnswer, hc, if_true, reply, answered, withRunning]
  cases p <;> rfl

/-- A list of items is within the length of a command's parameters. -/
theorem length_le_of_itemsOk {ps : List Byte} (h : itemsOk ps 64 = true) : ps.length ≤ maxPlen := by
  simp only [itemsOk, Bool.and_eq_true, beq_iff_eq, decide_eq_true_eq] at h
  obtain ⟨hmod, -, hmax⟩ := h
  rw [maxPlen]
  omega

/-- Settles O43: each command arrives at a quiet port, passes the checks, and is one operation on task memory or on a job slot. -/
theorem kezilGraphCommands : Obligations.KezilGraphCommands := by
  unfold Obligations.KezilGraphCommands
  intro p tag s hq hmay htag a ha
  have htag' : tag.toNat ≠ 0xFFFF := fun h => htag (BitVec.eq_of_toNat_eq h)
  have hsame : s.hw.SameBoard a := ha ▸ s.hw.arrived_sameBoard p
  have htasks : a.seq.tasks = s.hw.seq.tasks := by rw [hsame.seq]
  have htaskOf (t : Nat) : a.taskOf t = s.hw.taskOf t := by rw [Hw.taskOf, Hw.taskOf, hsame.seq]
  have hjobOf (j : Nat) : a.jobOf j = s.hw.jobOf j := by rw [Hw.jobOf, Hw.jobOf, hsame.jobs]
  subst ha
  have htwo (t : Fin 4096) : (leBytes 2 t.val).length ≤ maxPlen := by rw [length_leBytes]; decide
  have hsubmit (ps : List Byte) (hitems : itemsOk ps 64 = true)
      (hok : ∀ i, i < (batchOf ps).length → (s.hw.arrived p).batchStatus (batchOf ps) i = stOK)
      (hroom : s.hw.seq.tasks.length + (batchOf ps).length ≤ 4096) : exec (.graphSubmit p false tag ps) s
        = .next (s.withHw ((((s.hw.arrived p).batchTaken (batchOf ps)).settle).answered p 0x0401 tag.toNat false stOK 0 []).kzGrant) := by
    rw [exec_graphSubmit, Hw.kzCommand_answered hq hmay
      (permitted_graph (.inl rfl) (.inl rfl) htag' (length_le_of_itemsOk hitems))
      ((Hw.kzExec_graphSubmit _ _ rfl).trans (Hw.kzGraphSubmit_taken hitems hok (htasks ▸ hroom)))]
    rfl
  refine ⟨fun ps hitems hok hroom h hh => ?batch, fun ps k hlen hk hempty hok hpreds hbind => ?single,
    fun t k hk hended hfree => ?retire, fun t k hk hstate h hh => ?cancel, fun t k hk hstate hty hopen => ?stops,
    fun j hactive hopen async c h hc hh => ?jobStop⟩
  case batch =>
    rw [hsubmit ps hitems hok hroom, hh, Hw.batchTaken, htasks]
  case single =>
    have hnone : (s.hw.arrived p).seq.tasks = [] := htasks.trans hempty
    have hbatch : batchOf ps = [k] := by rw [batchOf_one hlen, hk]
    have hsettle := Hw.settle_batchTaken_alone hnone (by rw [hk]) hpreds hbind
    have hok' : ∀ i, i < (batchOf ps).length → (s.hw.arrived p).batchStatus (batchOf ps) i = stOK := by
      rw [hbatch]
      intro i hi
      rw [Nat.lt_one_iff.mp hi]
      exact Hw.batchStatus_alone hnone hpreds hok
    have hroom : s.hw.seq.tasks.length + (batchOf ps).length ≤ 4096 := by
      rw [hempty, hbatch, List.length_nil, List.length_singleton]
      decide
    refine ⟨((s.hw.arrived p).batchTaken [k]).settle, ?_, ?_⟩
    · rw [Completes, hsubmit ps (by simp [itemsOk, hlen]) hok' hroom, hbatch,
        Hw.answered_kzGrant hq (Hw.portOf_current_arrived (by rw [hsettle]))]
    · rw [hsettle, ← hsame.tb]
  case retire =>
    have hok := Hw.retireStatus_free ((htaskOf t).trans hk) hended (htasks ▸ hfree)
    rw [Completes, exec_taskRetire, Hw.kzCommand_completes hq hmay (permitted_graph (.inr (.inl rfl)) (.inl rfl) htag' (htwo t))
      ((Hw.kzExec_taskRetire _ _ rfl).trans (Hw.kzTaskRetire_one hok)) rfl, htasks]
  case cancel =>
    have hclose := Hw.kzTaskCancel_one (Hw.cancel_closes ((htaskOf t).trans hk) hstate)
    rw [exec_taskCancel, Hw.kzCommand_answered hq hmay (permitted_graph (.inr (.inr (.inl rfl))) (.inl rfl) htag' (htwo t))
      ((Hw.kzExec_taskCancel _ _ rfl).trans hclose), hh]
  case stops =>
    have hstop := Hw.kzTaskCancel_one (Hw.cancel_stops ((htaskOf t).trans hk) hstate hty hopen)
    rw [Completes, exec_taskCancel, Hw.kzCommand_completes hq hmay
      (permitted_graph (.inr (.inr (.inl rfl))) (.inl rfl) htag' (htwo t)) ((Hw.kzExec_taskCancel _ _ rfl).trans hstop)
      (Hw.modJob_kz _ _ _), Job.stopNow_eq]
  case jobStop =>
    have hopenStop := Hw.kzJobStop_open (h := s.hw.arrived p) (j := j) (by rw [hjobOf]; exact hactive) (by rw [hjobOf]; exact hopen)
    have hstop : (s.hw.arrived p).kzExec p c = (h, .wait (.task (s.hw.jobOf j).tid)) := by
      rw [hc, Hw.kzExec_jobStop _ _ rfl, hh, ← Job.stopNow_eq, ← hjobOf j]
      exact hopenStop
    have hkz : h.kz = (s.hw.arrived p).kz := by rw [hh]; rfl
    have hrun : s.hw.kzCommand 0x0405 p async tag.toNat [BitVec.ofNat 8 j.val]
        = (h.kzAnswer p c (.wait (.task (s.hw.jobOf j).tid))).kzGrant := by
      have hcmd : s.hw.cmdAt 0x0405 tag.toNat async [BitVec.ofNat 8 j.val] = c := hc.symm
      have hone : [BitVec.ofNat 8 j.val].length ≤ maxPlen := by rw [List.length_singleton]; decide
      rw [Hw.kzCommand_permitted hq hmay (permitted_graph (.inr (.inr (.inr rfl))) (.inr rfl) htag' hone), hcmd, hstop]
    refine ⟨fun hasync => ?_, fun hasync => ?_⟩
    · subst hasync
      have howner : h.kz.owner = some p := by rw [hkz, Hw.arrived_kz]; exact hmay.1
      rw [exec_jobStop, hrun, Hw.kzAnswer_wait _ _ _ (by rw [hc]; rfl),
        Hw.kzGrant_ownerBusy (p := p) (by rw [← howner]; cases p <;> rfl) (by cases p <;> rfl)]
    · subst hasync
      have hrunning : h.kz.running = s.hw.kz.running := by rw [hkz, Hw.arrived_kz]
      have hkept (g : Bool) : ((h.withRunning ⟨p, c, .task (s.hw.jobOf j).tid⟩).portOf g).current = (s.hw.portOf g).current := by
        rw [Hw.withRunning_portOf]
        exact Hw.portOf_current_arrived hkz g
      rw [exec_jobStop, hrun, Hw.kzAnswer_asyncWait _ _ _ (by rw [hc]; rfl), Hw.answered_kzGrant hq hkept, Hw.withRunning, hrunning, hc]
      rfl

end Sys2Proof.Machine
end

section
/-! PROOFS. Chapters 09 and 12: corrected words, row repair, and the states of bank groups (09/R306, 12/R395 to R397, R402 to
R404). -/

namespace Sys2Proof.Machine

/-! ### What a fault record leaves alone (09/R340 to R342). -/

section
variable {h g : Hw}

theorem Hw.SameBoard.banks (hg : h.SameBoard g) : g.banks = h.banks := (congrArg Hw.banks hg.eq :)

theorem Hw.SameBoard.sqOf (hg : h.SameBoard g) (s : Nat) : g.sqOf s = h.sqOf s := by rw [Hw.sqOf, Hw.sqOf, hg.sq]

theorem Hw.SameBoard.modFlt (hg : h.SameBoard g) (s : Nat) (f : SqFault → SqFault) : (h.modFlt s f).SameBoard (g.modFlt s f) :=
  ⟨congrArg (fun x : Hw => x.modFlt s f) hg.eq⟩

end

/-- A fault record that names a square sets its sticky bits (09/R342). -/
theorem Hw.faultRecord_inSquare (hw : Hw) {f : FaultInfo} {s : Nat} (hsq : f.sq = some s) :
    (hw.modFlt s fun q => { q with sticky := q.sticky ||| stickySq f }).SameBoard (hw.faultRecord f) := by
  unfold Hw.faultRecord
  rw [hsq]
  extract_lets b seq _ numbered written _ placed marked stuck
  have hnumbered : hw.SameBoard numbered := (Hw.SameBoard.refl hw).setFlt _
  have hplaced : hw.SameBoard placed := by
    unfold placed
    split
    · exact hnumbered.ringPush b
    · split
      · exact hnumbered.setFlt _
      · exact Hw.SameBoard.irq (hnumbered.setFlt _) 225
  have hstuck := (((hplaced.modFlt s fun q => { q with sticky := q.sticky ||| stickySq f }).rise (.faults s) (stickySq f)).irq
    (32 + s)).stick (stickyOut f).1 (stickyOut f).2
  split
  · exact (hstuck.irq 224).noteBoth _
  · exact hstuck

theorem Hw.faultRecord_banks (hw : Hw) (f : FaultInfo) : (hw.faultRecord f).banks = hw.banks := by
  cases hsq : f.sq with
  | none => exact ((Hw.SameBoard.refl hw).faultRecord hsq).banks
  | some s => exact (hw.faultRecord_inSquare hsq).banks

theorem Hw.faultRecord_jobs (hw : Hw) (f : FaultInfo) : (hw.faultRecord f).jobs = hw.jobs := by
  cases hsq : f.sq with
  | none => exact ((Hw.SameBoard.refl hw).faultRecord hsq).jobs
  | some s => exact (hw.faultRecord_inSquare hsq).jobs

/-! ### Corrected words (09/R306). -/

/-- Two changes of a fault block are one. -/
theorem Hw.modFlt_modFlt (hw : Hw) (s : Nat) (f g : SqFault → SqFault) :
    (hw.modFlt s f).modFlt s g = hw.modFlt s fun q => g (f q) := by
  simp only [modFlt, modSq, mupd_mupd]

/-- A corrected word is noted for its row. -/
def Banks.corrNoted (k : Banks) (now u g b r : Nat) : Banks :=
  { k with corr := mupd [] k.corr (rowKey u g b r) fun l => recent now l ++ [now] }

theorem Banks.corrNoted_corr (k : Banks) (now u g b r : Nat) : mget [] (k.corrNoted now u g b r).corr (rowKey u g b r)
    = recent now (mget [] k.corr (rowKey u g b r)) ++ [now] :=
  mget_mupd_same [] k.corr (rowKey u g b r) fun l => recent now l ++ [now]

/-- A corrected word counts in a fault block, with its sticky bit (09/T9-12). -/
def SqFault.eccCounted (f : SqFault) : SqFault :=
  { f with eccCount := satAdd 0xFFFF f.eccCount 1, sticky := f.sticky ||| 2 ^ 22 }

/-- The module after a corrected word, before the word goes to the unit that uses it. -/
def Hw.eccNoted (hw : Hw) (u g b r : Nat) : Hw := hw.eccWriteback u g b r none

theorem Hw.eccWriteback_used (hw : Hw) (u g b r i : Nat) (hi : i < 16) (w : DWord) (par : BitVec 4) :
    hw.eccWriteback u g b r (some (⟨i, hi⟩, w, par)) = (hw.eccNoted u g b r).handOver u g b r i w par := rfl

/-- A corrected word of a square is counted and noted; outside a job, a record says so, and sets the sticky bit again. -/
theorem Hw.eccNoted_sameBoard (hw : Hw) {u : Nat} (hu : u < 64) (g b r : Nat) :
    (({ hw with banks := hw.banks.corrNoted hw.tb.now u g b r } : Hw).modFlt u SqFault.eccCounted).SameBoard
      (hw.eccNoted u g b r) := by
  have hcounted := (Hw.SameBoard.refl (({ hw with banks := hw.banks.corrNoted hw.tb.now u g b r } : Hw).modFlt u
    SqFault.eccCounted)).rise (.faults u) (2 ^ 22)
  simp only [Hw.eccNoted, eccWriteback, countEcc, if_pos hu]
  split
  · exact hcounted
  · have hrecord := Hw.faultRecord_inSquare ((({ hw with banks := hw.banks.corrNoted hw.tb.now u g b r } : Hw).modFlt u
      SqFault.eccCounted).rise (.faults u) (2 ^ 22))
      (f := { det := 0x05, sq := sqOfUnit u, detail := repairDetail u g b r, unit := outUnit u g }) (if_pos hu)
    have hagain := hcounted.modFlt u fun q => { q with sticky := q.sticky ||| 2 ^ 22 }
    rw [Hw.modFlt_modFlt] at hagain
    simp only [SqFault.eccCounted, Nat.or_assoc, Nat.or_self] at hagain
    exact hagain.trans hrecord

theorem isBank_of_lt {u g b : Nat} (hu : u < 64) (hg : g < 28) (hb : b < 16) : isBank u g b = true := by
  exact decide_eq_true ⟨hu, hg, hb⟩

/-- A word whose path parity fails is one that the next read of it cannot use (09/R306). -/
theorem Hw.eccAt_isSome_of_path {hw : Hw} {w : Nat} (h : hw.banks.path.contains w = true) : (hw.eccAt (8 * w) 8).isSome = true := by
  have hfind : (hw.banks.path.find? fun w' => decide (w' * 8 < 8 * w + 8 ∧ 8 * w < w' * 8 + 8)).isSome = true :=
    List.find?_isSome.mpr ⟨w, List.contains_iff_mem.mp h, decide_eq_true (by omega)⟩
  obtain ⟨x, hx⟩ := Option.isSome_iff_exists.mp hfind
  simp only [eccAt, hx]
  cases hw.banks.poison.find? fun w' => decide (w' * 8 < 8 * w + 8 ∧ 8 * w < w' * 8 + 8) with
  | some p => rfl
  | none =>
    dsimp only
    split <;> rfl

theorem Hw.handOver_agrees {hw : Hw} {u g b r i : Nat} {w : DWord} {par : BitVec 4} (h : pathOk w par = true) :
    hw.handOver u g b r i w par = hw := if_pos h

theorem Hw.handOver_bank {hw : Hw} {u g b r i : Nat} {w : DWord} {par : BitVec 4} (hu : u < 64) (h : pathOk w par = false)
    (hbank : isBank u g b = true) : hw.handOver u g b r i w par
      = { hw with banks := { hw.banks with path := sins hw.banks.path (rowAddr u g b r / 8 + i) } } := by
  rw [handOver, if_neg (by rw [h]; exact Bool.false_ne_true), if_pos ⟨hu, .inl hbank⟩]

/-! ### Row repair (12/R402 to R404). -/

/-- The module with a row copied into a spare row, its words `bad` poisoned, and its corrected reads forgotten. -/
def Hw.rowMoved (hw : Hw) (u g b r : Nat) (bad : List Nat) : Hw :=
  let hw := hw.useSpare u g b r bad
  { hw with banks := { hw.banks with corr := mdel hw.banks.corr (rowKey u g b r) } }

section
variable {hw : Hw} {u g b r : Nat}

/-- The bank has a spare row, and the soft repair table has room. -/
theorem Hw.spareRoom (hspare : mget 0 hw.banks.spare (bankKey u g b) < spareRows u g) (hsoft : hw.banks.soft.length < 64) :
    (decide (0 < hw.spareIn u g b) && decide (hw.banks.soft.length < 64)) = true := by
  rw [spareIn, decide_eq_true (Nat.sub_pos_of_lt hspare), decide_eq_true hsoft, Bool.and_self]

theorem Hw.rowMoved_soft (hu : u < 64) (bad : List Nat) : (hw.rowMoved u g b r bad).banks.soft = hw.banks.soft ++ [⟨u, g, b, r⟩] := by
  simp only [rowMoved, useSpare, poisonRow, groupCode, if_pos hu]

theorem Hw.rowMoved_spare (bad : List Nat) : mget 0 (hw.rowMoved u g b r bad).banks.spare (bankKey u g b)
    = mget 0 hw.banks.spare (bankKey u g b) + 1 := mget_mupd_same _ _ _ _

theorem Hw.rowMoved_mem (bad : List Nat) : (hw.rowMoved u g b r bad).banks.mem = hw.banks.mem := rfl

/-- After corrected errors alone no word is poisoned. -/
theorem Hw.rowMoved_poison_nil : (hw.rowMoved u g b r []).banks.poison = hw.banks.poison := rfl

theorem mem_sins {l : List Nat} {a k : Nat} : a ∈ sins l k ↔ a = k ∨ a ∈ l := by
  induction l with
  | nil => simp [sins]
  | cons c rest ih =>
    unfold sins
    split
    · next h => simp [h]
    · split
      · simp
      · rw [List.mem_cons, ih, List.mem_cons, or_left_comm]

theorem mem_foldl_sins {f : Nat → Nat} {ws l : List Nat} {a : Nat} :
    a ∈ ws.foldl (fun p w => sins p (f w)) l ↔ (∃ w ∈ ws, f w = a) ∨ a ∈ l := by
  induction ws generalizing l with
  | nil => simp
  | cons w rest ih =>
    simp only [List.foldl_cons, ih, mem_sins, List.mem_cons, or_and_right, exists_or, exists_eq_left, eq_comm (a := a)]
    rw [or_assoc, or_left_comm]

/-- The words of a row that cannot be corrected are poisoned (12/R404). -/
theorem Hw.rowMoved_poison {bad : List Nat} {w : Nat} (hbad : w ∈ bad) (hlen : w < rowLen g / 8) :
    (hw.rowMoved u g b r bad).banks.poison.contains (rowAddr u g b r / 8 + w) = true :=
  List.contains_iff_mem.mpr (mem_foldl_sins.mpr (.inl ⟨w, List.mem_filter.mpr ⟨hbad, decide_eq_true hlen⟩, rfl⟩))

/-- A row that is not due stays (12/R403). -/
theorem Hw.rowRepair_notDue {bad : List Nat} {check : Option Nat}
    (h : (recent hw.tb.now (mget [] hw.banks.corr (rowKey u g b r))).length < 4) : hw.rowRepair u g b r bad false check = hw := by
  have hdue : hw.repairDue u g b r false = false := by
    rw [repairDue, Bool.false_or, decide_eq_false (Nat.not_le.mpr h)]
  simp only [rowRepair, hdue, Bool.not_false, if_true]

/-- After four corrected reads in 10 s the row moves, and a record says so (12/R403). -/
theorem Hw.rowRepair_corrected {bad : List Nat} {check : Option Nat} (hspare : mget 0 hw.banks.spare (bankKey u g b) < spareRows u g)
    (hsoft : hw.banks.soft.length < 64) (h : 4 ≤ (recent hw.tb.now (mget [] hw.banks.corr (rowKey u g b r))).length) :
    hw.rowRepair u g b r bad false check
      = (hw.rowMoved u g b r []).faultRecord { det := 0x05, sq := sqOfUnit u, detail := repairDetail u g b r, unit := outUnit u g } := by
  have hdue : hw.repairDue u g b r false = true := by rw [repairDue, Bool.false_or, decide_eq_true h]
  simp only [rowRepair, hdue, Hw.spareRoom hspare hsoft, Bool.not_true, Bool.not_false, Bool.false_eq_true, if_false, if_true, rowMoved]

theorem Hw.portOut_counted (hw : Hw) (c : Charge) : hw.portOut c false = hw := by cases c <;> rfl

/-- Outside a running job an uncorrectable read only writes a record (09/R304). -/
theorem Hw.unitFaults_noJob (hu : u < 64) (hjob : hw.jobOfSq u = none) {f : FaultInfo} (hdet : f.det = 0x06) :
    hw.unitFaults u f = hw.faultRecord { f with job := none, sq := some u } := by
  have hdrop : hw.pathDrop { f with job := none, sq := some u } = hw := if_neg (by rw [hdet]; decide)
  simp only [unitFaults, if_pos hu, hjob, jobFault, hdrop, jobFaultCore, Hw.portOut_counted]

/-- Units that become DIRTY change neither memory nor a job. -/
theorem Hw.dirtyRow_frame (hw : Hw) (u g b r : Nat) :
    (hw.dirtyRow u g b r).1.banks = hw.banks ∧ (hw.dirtyRow u g b r).1.jobs = hw.jobs :=
  foldl_keeps (fun h : Hw => h.banks = hw.banks ∧ h.jobs = hw.jobs) (fun h x => h.modFlt u fun f => f.mark x) (fun _ _ h => h) _ hw
    ⟨rfl, rfl⟩

/-- Where no unit is pending, none is lost with the row (12/R404). -/
theorem Hw.dirtyRow_keeps (hpend : (hw.sqOf u).flt.pend = []) : (hw.dirtyRow u g b r).2 = false := by
  simp only [dirtyRow, hpend, List.contains_nil, List.any_eq_false, Bool.false_eq_true, not_false_eq_true, implies_true]

/-- An uncorrectable read that no job meets, or that a reload check made, moves the row, and ends with a record: it takes no job onto
the restart path (03/R122, 09/R304, 12/R404). -/
theorem Hw.rowRepair_uncorrectable {bad : List Nat} {check : Option Nat} (hu : u < 64)
    (hspare : mget 0 hw.banks.spare (bankKey u g b) < spareRows u g) (hsoft : hw.banks.soft.length < 64)
    (hfree : hw.jobOfSq u = none ∨ check ≠ none) (hpend : (hw.sqOf u).flt.pend = []) : ∃ (h : Hw) (f : FaultInfo),
      hw.rowRepair u g b r bad true check = h.faultRecord f ∧ h.banks = (hw.rowMoved u g b r bad).banks ∧ h.jobs = hw.jobs := by
  have hdue : hw.repairDue u g b r true = true := rfl
  have hlost : ((hw.rowMoved u g b r bad).dirtyRow u g b r).2 = false := Hw.dirtyRow_keeps hpend
  obtain ⟨hbanks, hjobs⟩ := (hw.rowMoved u g b r bad).dirtyRow_frame u g b r
  rw [rowMoved] at hlost hbanks hjobs
  simp only [rowRepair, hdue, Hw.spareRoom hspare hsoft, hu, hlost, Bool.not_true, Bool.false_eq_true, if_false, if_true, rowMoved]
  cases check with
  | some p => exact ⟨_, _, rfl, hbanks, hjobs⟩
  | none =>
    have hjob := hfree.resolve_right fun h => h rfl
    exact ⟨_, _, Hw.unitFaults_noJob hu ((Hw.jobOfSq_of_jobs hjobs u).trans hjob) rfl, hbanks, hjobs⟩

end

/-! ### Bank groups (12/R395 to R397). -/

theorem Hw.doWrite_bankReq {hw : Hw} {s : Nat} (ini : Initiator) (v : Word) (hs : s < 64) (hq : hw.sqServes s) :
    hw.doWrite ini (sqAddr s 0x3860108) v.toNat = (hw.bankReq s (fld v.toNat 4 0) (fld v.toNat 6 5)).1.answer 0
      (hw.bankReq s (fld v.toNat 4 0) (fld v.toNat 6 5)).2 :=
  Hw.doWrite_sq ini v hs (by decide) (by decide) (by decide) hq rfl rfl rfl

/-- The code of a state in SQ_BANKREQ (12/T12-10). -/
def bankCodeOf : PwrState → Nat
  | .on => 0
  | .retain => 1
  | .off => 2

theorem bankCodeOf_lt (x : PwrState) : bankCodeOf x < 3 := by cases x <;> decide

theorem bankCodeOf_eq_zero {x : PwrState} : bankCodeOf x = 0 ↔ x = .on := by cases x <;> decide

theorem bankCodeOf_eq_two {x : PwrState} : bankCodeOf x = 2 ↔ x = .off := by cases x <;> decide

/-- The bank groups of a square and their three states are in the range of SQ_BANKREQ (12/R397). -/
theorem bankReq_range {g : Nat} (hg : g < 28) (x : PwrState) : ¬(27 < g ∨ bankCodeOf x = 3) := by
  have := bankCodeOf_lt x
  omega

/-- A bank group on its way to a state, or there already. -/
def BankGroup.sent (b : BankGroup) (x : PwrState) : BankGroup :=
  { b with moving := if b.state = x ∧ b.moving = none then none else some x, reqOn := bankCodeOf x == 0 }

section
variable {hw : Hw} {s g : Nat} {x : PwrState} (hg : g < 28) (hon : hw.isOn s = true)
include hg hon

/-- The content of a bank group that a loaded square or a job may need is not given up (12/R397). -/
theorem Hw.bankReq_busy (hslot : (hw.sqOf s).idleSlot g = false)
    (h : (x = .off ∧ (hw.sqOf s).loaded = true) ∨ (x ≠ .on ∧ hw.jobOfSq s ≠ none)) :
    hw.bankReq s g (bankCodeOf x) = (hw, stBUSY) := by
  have hserved : ¬(!hw.isOn s) = true := by rw [hon]; exact Bool.false_ne_true
  simp only [bankReq, if_neg (bankReq_range hg x), if_neg hserved, hslot, bankCodeOf_eq_two, bankCodeOf_eq_zero, ne_eq]
  rcases h with ⟨hoff, hloaded⟩ | ⟨hx, hjob⟩
  · rw [if_pos ⟨hoff, hloaded, rfl⟩]
  · have hneeded : ¬x = .on ∧ (hw.jobOfSq s).isSome = true ∧ (!false) = true := ⟨hx, Option.isSome_iff_ne_none.mpr hjob, rfl⟩
    rw [if_pos hneeded, ite_self]

/-- Any other request sends the group to the state (12/R397). -/
theorem Hw.bankReq_sent (h : x = .on ∨ (hw.sqOf s).idleSlot g = true
      ∨ (hw.jobOfSq s = none ∧ (x = .off → (hw.sqOf s).loaded = false))) :
    hw.bankReq s g (bankCodeOf x) = (hw.modSq s fun q => q.setBank g fun b => b.sent x, stOK) := by
  have hserved : ¬(!hw.isOn s) = true := by rw [hon]; exact Bool.false_ne_true
  have hloaded : ¬(bankCodeOf x = 2 ∧ (hw.sqOf s).loaded = true ∧ (!(hw.sqOf s).idleSlot g) = true) := by
    rw [bankCodeOf_eq_two]
    rintro ⟨rfl, hl, hslot⟩
    rcases h with hon | hidle | ⟨-, hunloaded⟩
    · cases hon
    · rw [hidle] at hslot
      cases hslot
    · exact Bool.false_ne_true ((hunloaded rfl).symm.trans hl)
  have hjob : ¬(bankCodeOf x ≠ 0 ∧ (hw.jobOfSq s).isSome = true ∧ (!(hw.sqOf s).idleSlot g) = true) := by
    rw [ne_eq, bankCodeOf_eq_zero]
    rintro ⟨hx, hj, hslot⟩
    rcases h with hon | hidle | ⟨hnone, -⟩
    · exact hx hon
    · rw [hidle] at hslot
      cases hslot
    · rw [hnone] at hj
      cases hj
  have hstate : (if bankCodeOf x = 0 then PwrState.on else if bankCodeOf x = 1 then .retain else .off) = x := by cases x <;> rfl
  have hsent (b : BankGroup) : (if b.state = x ∧ b.moving = none then { b with reqOn := bankCodeOf x == 0 }
      else { b with moving := some x, reqOn := bankCodeOf x == 0 }) = b.sent x := by
    unfold BankGroup.sent
    split
    · next h => rw [← h.2]
    · rfl
  simp only [bankReq, if_neg (bankReq_range hg x), if_neg hserved, if_neg hloaded, if_neg hjob, hstate, hsent]

end

/-- A bank group that has arrived in a state, with a wake on its way served by going on to ON (12/R396). -/
def BankGroup.arrive (b : BankGroup) (x : PwrState) : BankGroup :=
  { b with state := x, moving := if b.wake = true ∧ x ≠ .on then some .on else none, wake := false }

/-- The module with the bank group wiped, if it leaves OFF or enters it (12/R395). -/
def Hw.bankWiped (hw : Hw) (s g : Nat) (old x : PwrState) : Hw :=
  if old = .off ∨ x = .off then hw.wipe (bankRange s g).1 (bankRange s g).2 else hw

/-- A wipe changes memory alone. -/
theorem Hw.bankWiped_frame (hw : Hw) (s g : Nat) (old x : PwrState) : { hw.bankWiped s g old x with banks := hw.banks } = hw := by
  unfold bankWiped
  split <;> rfl

theorem Hw.bankDone_arrives {hw : Hw} {s g : Nat} {x : PwrState} (hmov : ((hw.sqOf s).bankOf g).moving = some x)
    (hon : x = .on → (hw.domOf s).state = .on) : hw.bankDone s g
      = (hw.bankWiped s g ((hw.sqOf s).bankOf g).state x).modSq s fun q => q.setBank g fun b => b.arrive x := by
  have hmay : ¬(x = .on ∧ (hw.domOf s).state ≠ .on) := fun ⟨hx, hdom⟩ => hdom (hon hx)
  have harrive (b : BankGroup) :
      ({ b with state := x, moving := if b.wake && x != .on then some .on else none, wake := false } : BankGroup) = b.arrive x := by
    simp only [BankGroup.arrive, Bool.and_eq_true, bne_iff_ne]
  simp only [bankDone, hmov, if_neg hmay, harrive, bankWiped]

/-- Where no access is held and no descriptor is in progress, a bank group that arrives lets nothing go on. -/
theorem Hw.bankServed_arrives {hw : Hw} {s g : Nat} {x : PwrState} (hmov : ((hw.sqOf s).bankOf g).moving = some x)
    (hon : x = .on → (hw.domOf s).state = .on) (hheld : hw.heldAcc = []) (hdma : ∀ c : Fin 16, (hw.dmaOf c).d = none) :
    hw.bankServed s g = (hw.bankWiped s g ((hw.sqOf s).bankOf g).state x).modSq s fun q => q.setBank g fun b => b.arrive x := by
  have hframe := hw.bankWiped_frame s g ((hw.sqOf s).bankOf g).state x
  simp only [bankServed, Hw.bankDone_arrives hmov hon]
  rw [Hw.serveHeld_nil, Hw.pscResume_idle]
  · exact fun c => (congrArg (fun k : Hw => (k.dmaOf c).d) hframe :).trans (hdma c)
  · exact (congrArg Hw.heldAcc hframe :).trans hheld

/-! ### The commands. -/

theorem exec_eccWriteback (u : Fin 68) (g : Fin 32) (b : Fin 16) (r : Fin 2048) (used : Option (Fin 16 × DWord × BitVec 4))
    (s : State) : exec (.eccWriteback u g b r used) s = .next (s.withHw (s.hw.eccWriteback u g b r used)) := rfl

theorem exec_rowRepair (u : Fin 68) (g : Fin 32) (b : Fin 16) (r : Fin 2048) (bad : List Nat) (uncorr : Bool)
    (check : Option (Fin 19)) (s : State) : exec (.rowRepair u g b r bad uncorr check) s
      = .next (s.withHw (s.hw.rowRepair u g b r bad uncorr (check.map (·.val)))) := rfl

theorem exec_sqBankreqWrite (ini : Initiator) (q : Fin 64) (v : Word) (s : State) :
    exec (.sqBankreqWrite ini q v) s = .next (s.withHw (s.hw.doWrite ini (sqAddr q 0x3860108) v.toNat)) := rfl

theorem exec_bankGroupTransitionDone (q : Fin 64) (g : Fin 28) (s : State) :
    exec (.bankGroupTransitionDone q g) s = .next (s.withHw (s.hw.bankServed q g)) := rfl

/-- Settles O56: a corrected word is noted and then handed over, a row that is due takes a spare row and its record changes neither
memory nor a job, and a bank group goes where it is sent and arrives there. -/
theorem rowsAndBankGroups : Obligations.RowsAndBankGroups := by
  unfold Obligations.RowsAndBankGroups
  intro u g b r s sp hsp
  subst hsp
  simp only [exec_eccWriteback, exec_rowRepair, exec_sqBankreqWrite, exec_bankGroupTransitionDone, Fin.val_castLE]
  have hcode {v : Word} {x : PwrState} (hx : fld v.toNat 6 5 = 0 ∧ x = .on ∨ fld v.toNat 6 5 = 1 ∧ x = .retain
      ∨ fld v.toNat 6 5 = 2 ∧ x = .off) : fld v.toNat 6 5 = bankCodeOf x := by
    rcases hx with ⟨h, rfl⟩ | ⟨h, rfl⟩ | ⟨h, rfl⟩ <;> exact h
  refine ⟨?corrected,
    fun bad ck n hn => ⟨fun hfew => ?stays, fun hspare hsoft => ⟨fun hfour => ?moves, fun hfree hpend => ?uncorrectable⟩⟩,
    fun ini v x q hq hserves hgroup hx => ⟨fun hslot hneeded => ?busy, fun hmay k hk => ?sent⟩,
    fun x old hold hmov hheld hdma hon h hh => ?arrives⟩
  case corrected =>
    have hboard := s.hw.eccNoted_sameBoard u.isLt g b r
    have hsq := (hboard.sqOf u).trans (Hw.modSq_sqOf_same _ _ _)
    have hbanks : (s.hw.eccNoted u g b r).banks = s.hw.banks.corrNoted s.hw.tb.now u g b r := hboard.banks
    refine ⟨_, rfl, ?_⟩
    rw [State.withHw_hw, ← Hw.eccNoted, hsq, hbanks]
    refine ⟨rfl, rfl, ?_, Banks.corrNoted_corr _ _ _ _ _ _, fun i w par => ⟨fun hok => ?_, fun hbad hbank => ⟨_, rfl, ?_⟩⟩⟩
    · simp only [SqFault.eccCounted, Nat.testBit_or, Bool.or_eq_true]
      exact .inr (by decide)
    · rw [Hw.eccWriteback_used, Hw.handOver_agrees hok]
    · rw [State.withHw_hw, Hw.eccWriteback_used, Hw.handOver_bank u.isLt hbad hbank]
      exact ⟨(congrArg Banks.mem hbanks :), hboard.jobs, Hw.eccAt_isSome_of_path (contains_sins _ _)⟩
  case stays =>
    rw [Hw.rowRepair_notDue (hn ▸ hfew), State.withHw_self]
  case moves =>
    refine ⟨_, rfl, ?_⟩
    rw [State.withHw_hw, Hw.rowRepair_corrected hspare hsoft (hn ▸ hfour), Hw.faultRecord_banks]
    exact ⟨Hw.rowMoved_soft u.isLt _, Hw.rowMoved_spare _, Hw.rowMoved_mem _, Hw.rowMoved_poison_nil⟩
  case uncorrectable =>
    obtain ⟨h, f, hrepair, hbanks, hjobs⟩ := Hw.rowRepair_uncorrectable (bad := bad) (check := ck.map (·.val)) u.isLt hspare hsoft
      (hfree.imp_right fun h hnone => h (Option.map_eq_none_iff.mp hnone)) hpend
    refine ⟨_, rfl, ?_⟩
    rw [State.withHw_hw, hrepair, Hw.faultRecord_banks, Hw.faultRecord_jobs, hbanks, hjobs]
    exact ⟨Hw.rowMoved_soft u.isLt _, Hw.rowMoved_mem _, rfl, fun w hw hlen => Hw.rowMoved_poison hw hlen⟩
  case busy =>
    subst hq
    obtain ⟨-, -, -, -, hon⟩ := id hserves
    rw [Hw.doWrite_bankReq ini v u.isLt hserves, hgroup, hcode hx, Hw.bankReq_busy g.isLt hon hslot hneeded]
  case sent =>
    subst hq hk
    obtain ⟨-, -, -, -, hon⟩ := id hserves
    rw [Hw.doWrite_bankReq ini v u.isLt hserves, hgroup, hcode hx, Hw.bankReq_sent g.isLt hon hmay]
    rfl
  case arrives =>
    subst hold
    have hsq : h.sqOf u = s.hw.sqOf u := by rw [hh]; exact (congrArg (fun k : Hw => k.sqOf u) (s.hw.bankWiped_frame ..) :)
    rw [Hw.bankServed_arrives hmov hon hheld hdma, Hw.bankWiped, ← hh]
    refine congrArg (fun k => Host.Outcome.next (s.withHw k)) (Hw.modSq_congr ?_)
    simp only [Square.setBank, BankGroup.arrive, hsq]

end Sys2Proof.Machine
end

section
/-! PROOFS. Chapter 09: the steps of a restart: the purge, the start of the restore, and the restore of one row (09/R332 to R334,
R337). -/

namespace Sys2Proof.Machine

/-! ### What the purge leaves alone (09/R332). -/

/-- The two modules have the same jobs, and the same marks on links, and every square has the same inbox and fault block. -/
structure Hw.SameInboxes (h g : Hw) : Prop where
  jobs : g.jobs = h.jobs
  marks : ∀ n, (g.linkOf n).jobs = (h.linkOf n).jobs
  inbox : ∀ s, (g.sqOf s).inbox = (h.sqOf s).inbox
  flt : ∀ s, (g.sqOf s).flt = (h.sqOf s).flt

section
variable {h g : Hw}

theorem Hw.SameInboxes.refl (h : Hw) : h.SameInboxes h := ⟨rfl, fun _ => rfl, fun _ => rfl, fun _ => rfl⟩

theorem Hw.SameInboxes.trans {k : Hw} (hg : h.SameInboxes g) (hk : g.SameInboxes k) : h.SameInboxes k where
  jobs := hk.jobs.trans hg.jobs
  marks n := (hk.marks n).trans (hg.marks n)
  inbox s := (hk.inbox s).trans (hg.inbox s)
  flt s := (hk.flt s).trans (hg.flt s)

theorem Hw.SameInboxes.jobOf (hg : h.SameInboxes g) (j : Nat) : g.jobOf j = h.jobOf j := by rw [Hw.jobOf, Hw.jobOf, hg.jobs]

theorem Hw.SameInboxes.modLink (hg : h.SameInboxes g) (n : Nat) {f : Link → Link} (hf : ∀ l, (f l).jobs = l.jobs) :
    h.SameInboxes (g.modLink n f) := by
  refine hg.trans ⟨rfl, fun x => ?_, fun _ => rfl, fun _ => rfl⟩
  by_cases hx : x = n
  · rw [hx, Hw.modLink_linkOf_same, hf]
  · rw [Hw.modLink_linkOf_ne _ _ hx]

theorem Hw.SameInboxes.modSq (hg : h.SameInboxes g) (s : Nat) {f : Square → Square} (hinbox : (f (g.sqOf s)).inbox = (g.sqOf s).inbox)
    (hflt : (f (g.sqOf s)).flt = (g.sqOf s).flt) : h.SameInboxes (g.modSq s f) := by
  refine hg.trans ⟨rfl, fun _ => rfl, fun x => ?_, fun x => ?_⟩
  all_goals
    by_cases hx : x = s
    · rw [hx, Hw.modSq_sqOf_same]
      assumption
    · rw [Hw.modSq_sqOf_ne _ _ hx]

end

/-- What an update of every entry of a sparse list keeps, each of its entries keeps. -/
theorem mget_map_keeps {α β : Type} (d : α) (f : α → α) (p : α → β) (hf : ∀ a, p (f a) = p a) (m : List (Nat × α)) (k : Nat) :
    p (mget d (m.map fun x => (x.1, f x.2)) k) = p (mget d m k) := by
  induction m with
  | nil => rfl
  | cons x rest ih =>
    simp only [List.map_cons, mget]
    split
    · exact hf _
    · split
      · rfl
      · exact ih

/-- Routers and replay buffers without the packets that a test names. -/
def Hw.packetsOut (hw : Hw) (out : Packet → Bool) : Hw :=
  { hw with
    sq := hw.sq.map fun (p : Nat × Square) => (p.1, { p.2 with rt := p.2.rt.purge out })
    link := hw.link.map fun (p : Nat × Link) => (p.1, p.2.purge out) }

theorem Hw.packetsOut_sameInboxes (hw : Hw) (out : Packet → Bool) : hw.SameInboxes (hw.packetsOut out) where
  jobs := rfl
  marks := mget_map_keeps ({} : Link) (fun l : Link => l.purge out) Link.jobs (fun _ => rfl) hw.link
  inbox := mget_map_keeps ({} : Square) (fun q : Square => { q with rt := q.rt.purge out }) Square.inbox (fun _ => rfl) hw.sq
  flt := mget_map_keeps ({} : Square) (fun q : Square => { q with rt := q.rt.purge out }) Square.flt (fun _ => rfl) hw.sq

/-- The purge takes packets from routers and replay buffers, and returns credits. -/
theorem Hw.purge_sameInboxes (hw : Hw) (j : Nat) : hw.SameInboxes (hw.purge j) := by
  unfold Hw.purge
  extract_lets out credited
  have hcredited : hw.SameInboxes credited := by
    refine forAll_keeps hw.SameInboxes _ (fun n h hh => ?_) _ hw (.refl hw)
    dsimp only
    split
    · exact hh
    · exact hh.modLink n fun _ => rfl
  exact hcredited.trans (credited.packetsOut_sameInboxes out)

/-- A fault block for which step 2 fences nothing. -/
def SqFault.unfenced (f : SqFault) : Prop := f.fenceAt2 = [] ∧ f.fenceSq = false ∧ f.fenceRt = false ∧ f.shadowOut = false

theorem SqFault.unfenced.cleared {f : SqFault} (h : f.unfenced) : { f with fenceAt2 := [], fenceSq := false, fenceRt := false } = f := by
  obtain ⟨hslots, hsq, hrt, -⟩ := h
  cases f
  cases hslots
  cases hsq
  cases hrt
  rfl

/-- Where nothing is to be fenced, step 2 changes nothing (09/R317). -/
theorem Hw.applyFences_unfenced {hw : Hw} {s : Nat} (h : (hw.sqOf s).flt.unfenced) : hw.SameInboxes (hw.applyFences s) := by
  have hcleared : hw.SameInboxes (hw.modFlt s fun f => { f with fenceAt2 := [], fenceSq := false, fenceRt := false }) :=
    (Hw.SameInboxes.refl hw).modSq s rfl h.cleared
  obtain ⟨hslots, hsq, hrt, hshadow⟩ := h
  have hkept := hcleared.flt s
  simp only [applyFences, shadowFence, hkept, hslots, hsq, hrt, hshadow, Bool.false_eq_true, if_false, List.foldl_nil, Bool.false_and]
  exact hcleared

/-- The fences of step 2 over a list of squares where nothing is to be fenced. -/
theorem Hw.applyFences_all {hw : Hw} {sqs : List Nat} (j : Nat) (h : ∀ s ∈ sqs, (hw.sqOf s).flt.unfenced) :
    hw.SameInboxes (sqs.foldl (fun (h : Hw) s => if h.atStep j 1 then h.applyFences s else h) hw) := by
  refine List.foldlRecOn sqs _ (.refl hw) fun g hg s hs => ?_
  split
  · exact hg.trans (Hw.applyFences_unfenced (by rw [hg.flt]; exact h s hs))
  · exact hg

/-- Where no link is marked, the readiness check of links does nothing (13/R441). -/
theorem Hw.fitLinks_unmarked {hw : Hw} {j : Nat} (h : ∀ n : Fin 6, (hw.linkOf n).jobs.testBit j = false) : hw.fitLinks j = hw :=
  forAll_unchanged _ fun n hn => by
    have hmark : (hw.linkOf n).jobs.testBit j = false := h ⟨n, List.mem_range.mp hn⟩
    simp only [hmark, Bool.false_and, Bool.false_eq_true, if_false]

/-! ### The end of the purge (09/R332, log 73). -/

/-- An update of every square of a list that names each square once. -/
theorem Hw.forAll_modSq (f : Square → Square) {sqs : List Nat} (hnodup : sqs.Nodup) (hw : Hw) {q : Nat} (hq : q ∈ sqs) :
    (forAll sqs (fun s h => h.modSq s f) hw).sqOf q = f (hw.sqOf q) := by
  have hother (l : List Nat) (h : Hw) (hl : q ∉ l) : (forAll l (fun s h => h.modSq s f) h).sqOf q = h.sqOf q := by
    refine List.foldlRecOn (motive := fun g : Hw => g.sqOf q = h.sqOf q) l _ rfl fun g hg s hs => ?_
    exact (Hw.modSq_sqOf_ne _ _ fun heq => hl (by rw [heq]; exact hs)).trans hg
  induction sqs generalizing hw with
  | nil => cases hq
  | cons s rest ih =>
    obtain ⟨hs, hrest⟩ := List.nodup_cons.mp hnodup
    rw [forAll_cons]
    rcases List.mem_cons.mp hq with rfl | hq
    · rw [hother _ _ hs, Hw.modSq_sqOf_same]
    · rw [ih hrest _ hq, Hw.modSq_sqOf_ne _ _ fun heq => hs (by rw [← heq]; exact hq)]

theorem Hw.forAll_modSq_jobs (f : Square → Square) (sqs : List Nat) (hw : Hw) :
    (forAll sqs (fun s h => h.modSq s f) hw).jobs = hw.jobs :=
  forAll_keeps (fun h : Hw => h.jobs = hw.jobs) (fun s h => h.modSq s f) (fun _ _ h => h) sqs hw rfl

theorem Hw.mem_jobSqs {hw : Hw} {j s : Nat} : s ∈ hw.jobSqs j ↔ s < 64 ∧ (hw.jobOf j).mask.testBit s = true := by
  rw [jobSqs, ofMask, List.mem_filter, List.mem_range]

theorem Hw.jobSqs_nodup (hw : Hw) (j : Nat) : (hw.jobSqs j).Nodup := List.Pairwise.filter _ List.nodup_range

theorem Hw.atStep_eq {hw : Hw} {j n : Nat} {r : Restart} (hactive : (hw.jobOf j).active = true)
    (hr : (hw.jobOf j).restart = some r) : hw.atStep j n = (r.step == n) := by
  rw [atStep, hactive, hr, Bool.true_and, Option.any_some]

/-- A job whose purge is done is at step 2, and nothing of its tempo has begun or ended. -/
def Job.purged (k : Job) : Job :=
  { k with
    restart := k.restart.map fun r => { r with step := 2 }, held := false, injected := false, started := false
    closedSq := [], doneSq := [], outHeld := [] }

/-- With nothing to fence and no marked link, step 2 ends with the inboxes of the job's squares emptied, over a module that still has
its inboxes. -/
theorem Hw.purgeDone_unfenced {hw : Hw} {j : Nat} {r : Restart} (hactive : (hw.jobOf j).active = true)
    (hr : (hw.jobOf j).restart = some r) (hstep : r.step = 1) (hflip : r.flip = false)
    (hmarks : ∀ n : Fin 6, (hw.linkOf n).jobs.testBit j = false) (hunits : ∀ s ∈ hw.jobSqs j, (hw.sqOf s).flt.unfenced) :
    ∃ g, hw.SameInboxes g
      ∧ hw.purgeDone j = (forAll (hw.jobSqs j) (fun s h => h.modSq s Square.emptied) g).modJob j Job.purged := by
  have hpurged := hw.purge_sameInboxes j
  have hg := hpurged.trans (Hw.applyFences_all (hw := hw.purge j) (sqs := hw.jobSqs j) j fun s hs => by
    rw [hpurged.flt]
    exact hunits s hs)
  refine ⟨_, hg, ?_⟩
  have hat (h : Hw) (hh : hw.SameInboxes h) : (!h.atStep j 1) = false := by
    rw [Hw.atStep_eq (r := r) (by rw [hh.jobOf, hactive]) (by rw [hh.jobOf, hr]), hstep]
    rfl
  simp only [purgeDone, hat hw (.refl hw), hat _ hg, Bool.false_eq_true, if_false]
  rw [Hw.fitLinks_unmarked (fun n => by rw [hg.marks]; exact hmarks n), hg.jobOf, hr, Option.any_some, hflip]
  rfl

/-! ### The start of the restore (09/R337). -/

theorem Hw.modJob_modJob (hw : Hw) (j : Nat) (f g : Job → Job) : (hw.modJob j f).modJob j g = hw.modJob j fun k => g (f k) := by
  rw [modJob, modJob, modJob, mupd_mupd]

/-- What two updates make of the present job is all that they do. -/
theorem Hw.modJob_congr {hw : Hw} {j : Nat} {f g : Job → Job} (h : f (hw.jobOf j) = g (hw.jobOf j)) : hw.modJob j f = hw.modJob j g :=
  congrArg (fun k => { hw with jobs := mset hw.jobs j k }) h

/-- Without a held record of the run, none is marked. -/
theorem markHeld_none {j run : Nat} {l : List Record} (h : ∀ x ∈ l, x.of j run = false) : markHeld j run l = (l, false) := by
  induction l with
  | nil => rfl
  | cons x rest ih =>
    have hrest := ih fun y hy => h y (List.mem_cons_of_mem _ hy)
    simp only [markHeld, h x List.mem_cons_self, hrest, Bool.false_eq_true, if_false]

/-- The first result record that the replay builds is to be marked (02/R85). -/
def Job.firstAgain (k : Job) : Job := { k with firstDue := true, afterRst := true }

/-- Step 3 of a restart begins. -/
def Job.restoring (k : Job) : Job := { k with restart := k.restart.map fun r => { r with step := 3 } }

/-- Without a held record of the job's run, none is dropped, and the first that the replay builds is to be marked (02/R85). -/
theorem Hw.dropHeld_none {hw : Hw} {j : Nat} (ts : Nat) (hheld : ∀ x ∈ hw.results, x.of j (hw.jobOf j).run = false)
    (hhdr : (hw.jobOf j).pendHdr = none) :
    hw.dropHeld j ts = hw.modJob j Job.firstAgain := by
  have hkept : (hw.results.filter fun r => !(r.of j (hw.jobOf j).run && decide (replayFrom ts ≤ r.tempo))) = hw.results :=
    List.filter_eq_self.mpr fun x hx => by rw [hheld x hx]; rfl
  simp only [dropHeld, hkept, markHeld_none hheld]
  refine congrArg (fun k => { hw with jobs := mset hw.jobs j k }) ?_
  have hhdr' : (mget {} hw.jobs j).pendHdr = none := hhdr
  simp only [hhdr', Option.bind_none, Bool.not_false, Job.firstAgain]

theorem Hw.restoreStart_unnamed {hw : Hw} {j : Nat} {r : Restart} (hactive : (hw.jobOf j).active = true)
    (hr : (hw.jobOf j).restart = some r) (hstep : r.step = 2) (htime : r.at_ + 4000 ≤ hw.elapsed) (hnamed : r.named = none)
    (hhdr : (hw.jobOf j).pendHdr = none) (hheld : ∀ x ∈ hw.results, x.of j (hw.jobOf j).run = false) :
    hw.restoreStart j = (hw.modJob j Job.firstAgain).modJob j Job.restoring := by
  have hat : (!hw.atStep j 2) = false := by rw [Hw.atStep_eq hactive hr, hstep]; rfl
  have hlate : ((hw.jobOf j).restart.any fun r => decide (hw.elapsed < r.at_ + 4000)) = false := by
    rw [hr, Option.any_some, decide_eq_false (Nat.not_lt.mpr htime)]
  have hpoint : ((hw.jobOf j).restart.bind fun r => r.named).getD (hw.jobOf j).snapT = (hw.jobOf j).snapT := by
    rw [hr, Option.bind_some, hnamed, Option.getD_none]
  have hstay : ¬((hw.jobOf j).snapT ≠ (hw.jobOf j).snapT ∧ (hw.jobOf j).phase = 3 ∧ (hw.jobOf j).snapT = (hw.jobOf j).tempo) :=
    fun h => h.1 rfl
  simp only [restoreStart, hlate, hpoint, if_neg hstay, hat, Hw.dropHeld_none _ hheld hhdr, Bool.or_self, Bool.false_eq_true, if_false]
  rfl

/-! ### The restore of one square (09/R333). -/

theorem Hw.modL_slot (hw : Hw) (s l : Nat) (f : Slot → Slot) : ∃ x, hw.modL s l f = { hw with slot := x } := by
  unfold modL
  split
  · exact ⟨_, rfl⟩
  · exact ⟨_, rfl⟩

/-- Updates of cores change slots alone. -/
theorem Hw.modL_all_slot (hw : Hw) (s : Nat) (ls : List Nat) (f : Hw → Nat → Slot → Slot) :
    ∃ x, ls.foldl (fun (h : Hw) l => h.modL s l (f h l)) hw = { hw with slot := x } := by
  refine foldl_keeps (fun g : Hw => ∃ x, g = { hw with slot := x }) _ ?_ ls hw ⟨_, rfl⟩
  rintro _ l ⟨x, rfl⟩
  exact Hw.modL_slot ..

theorem Hw.lfsrsBack_slot (hw : Hw) (s : Nat) : ∃ x, hw.lfsrsBack s = { hw with slot := x } :=
  hw.modL_all_slot s _ fun h l k => { k with lfsr := BitVec.ofNat 32 (h.rdN (mirTier s + 0xF88000 + 8 + 4 * l) 4) }

/-- Pieces that are copied, each from one address to another. -/
theorem Hw.copyAll_banks (ps : List (Nat × Nat × Nat)) (hw : Hw) :
    ∃ b, ps.foldl (fun (h : Hw) x => h.wrWhole x.2.1 (h.rd x.1 x.2.2)) hw = { hw with banks := b }
      ∧ b.mem = ps.foldl (fun m x => memWriteN m x.2.1 (memReadN m x.1 x.2.2)) hw.banks.mem := by
  induction ps generalizing hw with
  | nil => exact ⟨_, rfl, rfl⟩
  | cons x rest ih =>
    obtain ⟨b, hb, hmem⟩ := ih (hw.wrWhole x.2.1 (hw.rd x.1 x.2.2))
    exact ⟨b, hb, hmem⟩

/-- A square that has its one dirty row back: memory is `b`, slots are `x`. -/
def Hw.rowBack (hw : Hw) (s : Nat) (b : Banks) (x : List (Nat × Slot)) : Hw :=
  ({ hw with banks := b, slot := x } : Hw).modSq s fun q => { q with left := [], flt := { q.flt with dirty := [], waiting := [] } }

/-- A square whose only dirty unit is a row gets the neurons of the row back from the Mirror tier. -/
theorem Hw.restoreSquare_row {hw : Hw} {s l r : Nat} (hdirty : (hw.sqOf s).flt.dirty = [.row l r]) (hpend : (hw.sqOf s).flt.pend = [])
    (hrecords : (hw.sqOf s).usedSlots = []) : ∃ b x, hw.restoreSquare s = hw.rowBack s b x
      ∧ b.mem = (hw.rowNeurons s l r).foldl (fun m n => memWriteN m (hw.recAddr s l n) (memReadN m (hw.mirRec s l n) 32)) hw.banks.mem := by
  have hweights : hw.wnBackAll s = hw := by rw [wnBackAll, hrecords, List.foldl_nil]
  obtain ⟨x, hx⟩ := hw.lfsrsBack_slot s
  obtain ⟨b, hb, hmem⟩ := Hw.copyAll_banks (hw.unitMirror s (.row l r)) { hw with slot := x }
  have hunit : ({ hw with slot := x } : Hw).restoreUnit s (.row l r) = { hw with slot := x, banks := b } := hb
  obtain ⟨y, hy⟩ := (hw.rowBack s b x).modL_all_slot s ((hw.rowBack s b x).sqOf s).cores fun _ _ k => { k with
    modSum := [], laneHalf := 0, wide := 0, plastic := 0, sop := 0, updating := false, phaseA := false, phaseB := false }
  refine ⟨b, y, ?_, ?_⟩
  · have hcontrol : (hw.sqOf s).flt.pend.contains .control = false := by rw [hpend]; rfl
    have hunits : ((hw.sqOf s).flt.dirty.filter fun u => !(hw.sqOf s).flt.pend.contains u) = [.row l r] := by rw [hdirty, hpend]; rfl
    have hvalues : [SnapUnit.row l r].filter (fun u => !u.fireValue) ++ [SnapUnit.row l r].filter SnapUnit.fireValue = [.row l r] := rfl
    simp only [restoreSquare, hweights, hunits, hcontrol, hvalues, hx, hunit, List.foldl_cons, List.foldl_nil, Bool.false_eq_true,
      if_false]
    exact hy
  · rw [hmem, unitMirror, List.foldl_map]

/-! ### The end of the restore (09/R332, R333). -/

theorem ofMask_two_pow {n q : Nat} (hq : q < n) : ofMask n (2 ^ q) = [q] := by
  have hbit : (fun i => (2 ^ q).testBit i) = fun i => i == q := funext fun i => by
    rw [Nat.testBit_two_pow, Bool.beq_comm]
    rfl
  rw [ofMask, hbit, List.filter_beq, List.count_range, if_pos hq, List.replicate_one]

/-- Where nothing that a square saw is a fault, the checks of a job of that square alone pass. -/
theorem Hw.sawFault_none {hw : Hw} {s : Nat} {seen : List (Fin 64 × Seen)} (h : ∀ x ∈ seen, x.1.val = s → hw.seenFault s x.2 = none) :
    hw.sawFault [s] seen = none := by
  have hfind : hw.seenFind s (seenBy s seen) = none := List.findSome?_eq_none_iff.mpr fun y hy => by
    obtain ⟨x, hx, rfl⟩ := List.mem_map.mp hy
    obtain ⟨hmem, hsq⟩ := List.mem_filter.mp hx
    exact h x hmem (eq_of_beq hsq)
  rw [sawFault, List.findSome?_cons, hfind]
  rfl

/-- The numbers of the cores are all of a square that its checks depend on. -/
theorem Hw.sawFault_of_lmap {hw g : Hw} {s : Nat} (h : (g.sqOf s).lmap = (hw.sqOf s).lmap) (seen : List (Fin 64 × Seen)) :
    g.sawFault [s] seen = hw.sawFault [s] seen := by
  rw [sawFault, sawFault, List.findSome?_cons, List.findSome?_cons, Hw.seenFind_of_lmap h]
  rfl

/-- A square is ready for a replay. -/
def Square.replaying (q : Square) : Square := { q with moved := [], dvfsNext := 0 }

/-- The restart of a job is over. -/
def Job.restartOver (k : Job) : Job := { k with restart := none }

/-- The replay of a job that was not released begins nothing (09/R332). -/
theorem Hw.beginReplay_held {hw : Hw} {j s : Nat} (hsqs : hw.jobSqs j = [s]) (hstate : (hw.rtOf s).state ≠ .sink)
    (hheld : (hw.jobOf j).released = false) : hw.beginReplay j
      = ({ hw.modSq s Square.replaying with bring := { hw.bring with pass := sins hw.bring.pass j } } : Hw).modJob j
        Job.restartOver := by
  have hkept : (if (hw.rtOf s).state = .sink then hw.setRtState s .normal else hw) = hw := if_neg hstate
  have hstays : ((({ hw.modSq s Square.replaying with bring := { hw.bring with pass := sins hw.bring.pass j } } : Hw).modJob j
      Job.restartOver).jobOf j).released = false := by rw [Hw.modJob_jobOf_same]; exact hheld
  simp only [beginReplay, hsqs, forAll_cons, forAll_nil, hkept]
  exact if_neg (by rw [Bool.not_eq_true]; exact hstays)

/-- No core of the job has moved: no image is loaded (09/R335). -/
theorem Hw.loadAllMoved_none {hw : Hw} {j s : Nat} (hsqs : hw.jobSqs j = [s]) (hmoved : (hw.sqOf s).moved = []) :
    hw.loadAllMoved j = (hw, stOK) := by
  rw [loadAllMoved, hsqs, List.flatMap_singleton, hmoved]
  rfl

/-- What the restore of one dirty row leaves: the row is back, and the job runs on without a restart. -/
def Hw.rowRestored (hw : Hw) (j s : Nat) (b : Banks) (x : List (Nat × Slot)) : Hw :=
  ({ (hw.rowBack s b x).modSq s Square.replaying with bring := { hw.bring with pass := sins hw.bring.pass j } } : Hw).modJob j
    Job.restartOver

section
variable {hw : Hw} {j s : Nat}

theorem Hw.restoreBad_none {seen : List (Fin 64 × Seen)} (hsqs : hw.jobSqs j = [s]) (hread : hw.unreadable j s = none)
    (hseen : ∀ x ∈ seen, x.1.val = s → hw.seenFault s x.2 = none) : hw.restoreBad j seen = none := by
  rw [restoreBad, hsqs, Hw.sawFault_none fun x hx => hseen x (List.mem_filter.mp hx).1, List.findSome?_cons, hread]
  rfl

/-- Where the restore of the squares of a job of one square gives `g`, the checks pass and no core has moved, the replay begins. -/
theorem Hw.restoreDone_passes {g : Hw} {seen : List (Fin 64 × Seen)} (hat : hw.atStep j 3 = true) (hsqs : hw.jobSqs j = [s])
    (hread : hw.unreadable j s = none) (hseen : ∀ x ∈ seen, x.1.val = s → hw.seenFault s x.2 = none)
    (hg : hw.restoreSquare s = g) (hjobs : g.jobs = hw.jobs) (hlmap : (g.sqOf s).lmap = (hw.sqOf s).lmap)
    (hmoved : (g.sqOf s).moved = []) : hw.restoreDone j seen = g.beginReplay j := by
  have hjob : g.jobOf j = hw.jobOf j := by rw [jobOf, jobOf, hjobs]
  have hgsqs : g.jobSqs j = [s] := by rw [jobSqs, hjob]; exact hsqs
  have hgat : g.atStep j 3 = true := by rw [atStep, hjob]; exact hat
  have hchecks : g.sawFault [s] (seen.filter fun x => !(seenWord x.2)) = none := by
    rw [Hw.sawFault_of_lmap hlmap, Hw.sawFault_none fun x hx => hseen x (List.mem_filter.mp hx).1]
  simp only [restoreDone, hat, Hw.restoreBad_none hsqs hread hseen, hsqs, forAll_cons, forAll_nil, hg, hgsqs, hchecks,
    Hw.loadAllMoved_none hgsqs hmoved, hgat, Bool.not_true, Bool.false_eq_true, if_false, ne_eq, not_true_eq_false]

/-- A job of one square whose only dirty unit is a row that the Mirror tier holds readable gets the row back, and its restart is over
(09/R332, R333). -/
theorem Hw.restoreDone_row {l r : Nat} {seen : List (Fin 64 × Seen)} (hat : hw.atStep j 3 = true) (hsqs : hw.jobSqs j = [s])
    (hread : hw.unreadable j s = none) (hseen : ∀ x ∈ seen, x.1.val = s → hw.seenFault s x.2 = none)
    (hdirty : (hw.sqOf s).flt.dirty = [.row l r]) (hpend : (hw.sqOf s).flt.pend = []) (hrecords : (hw.sqOf s).usedSlots = [])
    (hmoved : (hw.sqOf s).moved = []) (hstate : (hw.rtOf s).state ≠ .sink) (hheld : (hw.jobOf j).released = false) :
    ∃ b x, hw.restoreDone j seen = hw.rowRestored j s b x ∧ b.mem = (hw.rowNeurons s l r).foldl
      (fun m n => memWriteN m (hw.recAddr s l n) (memReadN m (hw.mirRec s l n) 32)) hw.banks.mem := by
  obtain ⟨b, x, hback, hmem⟩ := Hw.restoreSquare_row hdirty hpend hrecords
  have hsquare : (hw.rowBack s b x).sqOf s
      = { hw.sqOf s with left := [], flt := { (hw.sqOf s).flt with dirty := [], waiting := [] } } := Hw.modSq_sqOf_same _ _ _
  refine ⟨b, x, ?_, hmem⟩
  rw [Hw.restoreDone_passes hat hsqs hread hseen hback rfl (by rw [hsquare]) (by rw [hsquare]; exact hmoved)]
  exact Hw.beginReplay_held hsqs (by rw [rtOf, hsquare]; exact hstate) hheld

theorem Hw.rowRestored_restart (b : Banks) (x : List (Nat × Slot)) : ((hw.rowRestored j s b x).jobOf j).restart = none := by
  rw [rowRestored, Hw.modJob_jobOf_same, Job.restartOver]

theorem Hw.rowRestored_dirty (b : Banks) (x : List (Nat × Slot)) : ((hw.rowRestored j s b x).sqOf s).flt.dirty = [] := by
  have hsquare : (hw.rowRestored j s b x).sqOf s = ((hw.rowBack s b x).modSq s Square.replaying).sqOf s := rfl
  rw [hsquare, Hw.modSq_sqOf_same, Hw.rowBack, Hw.modSq_sqOf_same, Square.replaying]

theorem Hw.rowRestored_mem (b : Banks) (x : List (Nat × Slot)) : (hw.rowRestored j s b x).banks.mem = b.mem := rfl

end

/-! ### The commands. -/

theorem exec_restartPurgeDone (j : Fin 4) (s : State) : exec (.restartPurgeDone j) s = .next (s.withHw (s.hw.purgeDone j)) := rfl

theorem exec_restoreStart (j : Fin 4) (s : State) : exec (.restoreStart j) s = .next (s.withHw (s.hw.restoreStart j)) := rfl

theorem exec_restoreDone (j : Fin 4) (seen : List (Fin 64 × Seen)) (s : State) :
    exec (.restoreDone j seen) s = .next (s.withHw (s.hw.restoreDone j seen)) := rfl

/-- Settles O55: the purge and the fences of step 2 leave every inbox, which its end then empties; without a held record only the job
itself changes as step 3 begins; and the restore of a row ends the restart. -/
theorem restartSteps : Obligations.RestartSteps := by
  unfold Obligations.RestartSteps
  intro j s k r hk hactive hr
  subst hk
  simp only [exec_restartPurgeDone, exec_restoreStart, exec_restoreDone]
  refine ⟨fun hstep hflip hmarks hunits => ?purge, fun hstep htime hnamed hhdr hheld => ?start,
    fun q l row seen hseen hstep hheld hmask hdirty hpend hmoved hrecords hstate hread => ?restore⟩
  case purge =>
    have hunits' : ∀ q ∈ s.hw.jobSqs j, (s.hw.sqOf q).flt.unfenced := fun q hq => by
      obtain ⟨hlt, hbit⟩ := Hw.mem_jobSqs.mp hq
      exact hunits ⟨q, hlt⟩ hbit
    obtain ⟨g, hg, hdone⟩ := Hw.purgeDone_unfenced hactive hr hstep hflip hmarks hunits'
    have hjob : ((s.hw.purgeDone j).jobOf j) = (s.hw.jobOf j).purged := by
      rw [hdone, Hw.modJob_jobOf_same, Hw.jobOf, Hw.forAll_modSq_jobs, ← Hw.jobOf, hg.jobOf]
    refine ⟨_, rfl, ?_⟩
    rw [State.withHw_hw, hjob]
    refine ⟨by rw [Job.purged, hr]; rfl, rfl, fun q hq => ?_⟩
    have hmem : q.val ∈ s.hw.jobSqs j := Hw.mem_jobSqs.mpr ⟨q.isLt, hq⟩
    rw [hdone, Hw.modJob_sqOf, Hw.forAll_modSq _ (Hw.jobSqs_nodup _ _) _ hmem, Square.emptied, hg.inbox]
  case start =>
    have hnone : ∀ x ∈ s.hw.results, x.of j (s.hw.jobOf j).run = false := fun x hx => by
      rcases hheld x hx with h | h <;> simp [Record.of, h]
    rw [Hw.restoreStart_unnamed hactive hr hstep htime hnamed hhdr hnone]
    rw [Hw.modJob_modJob, Hw.modJob_congr]
    simp only [Job.restoring, Job.firstAgain, hr, Option.map_some]
  case restore =>
    have hat : s.hw.atStep j 3 = true := by rw [Hw.atStep_eq hactive hr, hstep]; rfl
    have hsqs : s.hw.jobSqs j = [q.val] := by rw [Hw.jobSqs, hmask, ofMask_two_pow q.isLt]
    obtain ⟨b, x, hdone, hmem⟩ := Hw.restoreDone_row hat hsqs hread (fun x hx hq => hseen x hx (Fin.ext hq)) hdirty hpend hrecords
      hmoved hstate hheld
    refine ⟨_, rfl, ?_⟩
    rw [State.withHw_hw, hdone]
    exact ⟨Hw.rowRestored_restart _ _, Hw.rowRestored_dirty _ _, hmem⟩

end Sys2Proof.Machine
end
